-- ==== Sys2Proof/Word.lean ====
section
/-! DEFINITION. Words, names of the module's parts, and the operand types of the commands.
Layouts that the spec numbers as bits are bit vectors; everything else is a named structure. -/

namespace Sys2Proof

/-- One byte. -/
abbrev Byte := BitVec 8
/-- A register word (R515). -/
abbrev W32 := BitVec 32
/-- A general register or an instruction word of a cell (R25, R32). -/
abbrev W64 := BitVec 64
/-- A status code (R11). -/
abbrev Status := BitVec 8

namespace Status
/-- Status codes of R11. -/
abbrev done : Status := 0x00
abbrev donePartial : Status := 0x01
abbrev refusedQuota : Status := 0x10
abbrev refusedBusy : Status := 0x11
abbrev windowClosed : Status := 0x20
abbrev epochStale : Status := 0x21
abbrev resetAbort : Status := 0x30
abbrev incarnationStale : Status := 0x31
abbrev dataUncorrectable : Status := 0x40
abbrev addressInvalid : Status := 0x41
abbrev protection : Status := 0x42
abbrev shapeExceedsBucket : Status := 0x50
abbrev accOvercommit : Status := 0x51
abbrev bufferOvercommit : Status := 0x52
abbrev steerLate : Status := 0x53
abbrev notDrained : Status := 0x54
abbrev genMismatch : Status := 0x60
abbrev genNotStaged : Status := 0x61
abbrev holdOverrun : Status := 0x70
abbrev internal : Status := 0xFF
end Status

/-- A polder of the module (R13). -/
abbrev Pid := Fin 4

/-- A cell by its polder coordinates (R95). -/
structure CellId where
  p : Pid
  row : Fin 256
  col : Fin 160
  deriving DecidableEq, Repr

/-- A cell's place in row-major order of its polder. -/
def CellId.key (c : CellId) : Nat := c.row.val * 160 + c.col.val

/-- The field die of a cell (R19). -/
def CellId.die (c : CellId) : Nat := 2 * (c.row.val / 128) + c.col.val / 80

/-- An Intake (`out = false`) or Outfall engine of a field die (R100). -/
structure EngId where
  p : Pid
  die : Fin 4
  out : Bool
  k : Fin 8
  deriving DecidableEq, Repr

/-- 16 x field die + index, with Outfall indices 8 to 15 (R35). -/
def EngId.key (e : EngId) : Nat := 16 * e.die.val + (if e.out then 8 else 0) + e.k.val

/-- A rectangle of cells: the layout of GRD_PLOT_RECT (R125). -/
abbrev Rect := BitVec 32

namespace Rect
def row0 (r : Rect) : Nat := (r.extractLsb' 0 8).toNat
def row1 (r : Rect) : Nat := (r.extractLsb' 8 8).toNat
def col0 (r : Rect) : Nat := (r.extractLsb' 16 8).toNat
def col1 (r : Rect) : Nat := (r.extractLsb' 24 8).toNat
/-- R122, R138: first above last, or a column above 159, is malformed. -/
def malformed (r : Rect) : Bool := r.row1 < r.row0 || r.col1 < r.col0 || 159 < r.col1
/-- The cell with this key lies in the rectangle. -/
def hasKey (r : Rect) (k : Nat) : Bool :=
  r.row0 ≤ k / 160 && k / 160 ≤ r.row1 && r.col0 ≤ k % 160 && k % 160 ≤ r.col1
def overlaps (a b : Rect) : Bool :=
  a.row0 ≤ b.row1 && b.row0 ≤ a.row1 && a.col0 ≤ b.col1 && b.col0 ≤ a.col1
/-- The cells of the rectangle in row-major order, by key. -/
def keys (r : Rect) : List Nat :=
  (List.range (r.row1 + 1 - r.row0)).flatMap fun i =>
    (List.range (r.col1 + 1 - r.col0)).map fun j => (r.row0 + i) * 160 + (r.col0 + j)
end Rect

/-- Who makes an access (R462), with the context it carries (R430). -/
inductive Requester where
  | keeperFw | keeperAgent | fabric | twin | inlet | debug
  deriving DecidableEq, Repr

/-- The number R462 gives a requester. -/
def Requester.num : Requester → Nat
  | .keeperFw => 0 | .keeperAgent => 1 | .fabric => 2 | .twin => 3 | .inlet => 4 | .debug => 5

/-- An access: its requester and the context it carries (R430, R462). -/
structure Who where
  req : Requester
  ctx : BitVec 16
  deriving DecidableEq, Repr

/-- A direct access of the server (R430). -/
def Who.server : Who := ⟨.keeperAgent, 0⟩

/-- A register location outside BAR2: a BAR0 offset of a polder or a keeper MMIO offset (R428). -/
inductive RegAddr where
  | polder (p : Pid) (off : BitVec 26)
  | module (off : BitVec 32)
  deriving DecidableEq, Repr

/-- A register page whose header a command names: any page outside BAR2, or a cell's page. -/
inductive PageAddr where
  | page (a : RegAddr)
  | cell (c : CellId)
  deriving DecidableEq, Repr

/-- Traffic class of the fabric (R331). -/
inductive TClass where
  | guaranteed | elastic | background
  deriving DecidableEq, Repr

/-- The number the link header gives a class (R298). -/
def TClass.num : TClass → Nat
  | .guaranteed => 0 | .elastic => 1 | .background => 2

/-- A fabric transaction: the header fields of R314, the route word's SRC and DEST (R311), the
class of its stream and its data. LEN is the length of `data`, but for a READ, whose `len` says
how many bytes are asked for. -/
structure Txn where
  op : BitVec 8
  mod : BitVec 4
  tinc : BitVec 4
  tag : BitVec 16
  len : BitVec 10
  epoch : BitVec 8
  rinc : BitVec 4
  chk : Bool
  deferred : Bool
  status : Status
  addr : BitVec 64
  ctx : BitVec 16
  opnd : BitVec 64
  src : BitVec 12
  dst : BitVec 12
  cls : TClass
  data : List Byte
  deriving DecidableEq, Repr

/-- What a read of memory outside the polder (tier 3 or 4) brought back. -/
structure ReadReply where
  status : Status
  deferred : Bool
  data : List Byte
  deriving DecidableEq, Repr

/-- Where a window command comes from (R327, R329). -/
inductive WinFrom where
  | regPath
  | fabric (port : Fin 8) (t : Txn)
  deriving DecidableEq, Repr

/-- An access through BAR2 or BAR4: a read of `len` bytes or a write of the enabled bytes. -/
inductive Access where
  | read (len : Nat)
  | write (bytes : List (Option Byte))
  deriving DecidableEq, Repr

/-- The outcome of a tier-3 request on the PCIe side (R253). -/
inductive PcieOutcome where
  | ok (data : List Byte) | ur | ca | poisoned | timeout
  deriving DecidableEq, Repr

/-- What a port's NEGOTIATE round brought in on one receive lane (R290). -/
inductive LaneRx where
  /-- nothing arrived -/
  | nothing
  /-- a base page without a Strelham message page -/
  | ethernet
  /-- an identity record (R290), bytes 0 to 15, byte 0 in [7:0] -/
  | record (r : BitVec 128)
  deriving DecidableEq, Repr

/-- The peer's final page of a round (R290). -/
structure FinalPage where
  rxGood : BitVec 8
  forceX4 : Bool
  deriving DecidableEq, Repr

/-- An Inlet transport frame (R448) with the address checks of R446, R447 and R450 made visible. -/
structure Frame where
  type : BitVec 4
  first : Bool
  last : Bool
  abort : Bool
  deferred : Bool
  gap : Bool
  stream : Fin 16
  status : Status
  session : W32
  offset : BitVec 64
  limit : BitVec 64
  step : W32
  srcIp : BitVec 128
  payload : List Byte
  deriving DecidableEq, Repr

/-- Why a received Inlet frame is dropped (R446, R447, R449, R450, R451). -/
inductive DropCause where
  | fcs | other | session
  deriving DecidableEq, Repr

/-- An internal join of a polder (R384): a seam page, a UCL link, or a field PLL. -/
inductive JoinId where
  | seam (i : Fin 8)
  | ucl (u : Fin 6)
  | pll
  deriving DecidableEq, Repr

/-- A PLL of R480. -/
inductive PllId where
  | polder (p : Pid)
  | keeper
  | mgmt
  deriving DecidableEq, Repr

/-- A block that may fail to answer (R384). -/
inductive BlockId where
  | fieldDie (d : Fin 4)
  | basin
  | sluice
  deriving DecidableEq, Repr

/-- The unit queues that have no row of their own (R27). -/
inductive UnitId where
  | mem | vec | svc
  deriving DecidableEq, Repr

/-- The bytes of a little-endian value (R6). -/
def bytesOf {n : Nat} (v : BitVec n) (len : Nat) : List Byte :=
  (List.range len).map fun i => v.extractLsb' (8 * i) 8

/-- A little-endian value from bytes (R6). -/
def natOfBytes : List Byte → Nat
  | [] => 0
  | b :: bs => b.toNat + 256 * natOfBytes bs

/-- A little-endian word from bytes (R6). -/
def wordOf (n : Nat) (bs : List Byte) : BitVec n := BitVec.ofNat n (natOfBytes bs)

/-- Bits [lo + w - 1 : lo] of a word (R5). -/
abbrev bits {n : Nat} (v : BitVec n) (lo w : Nat) : BitVec w := v.extractLsb' lo w

/-- Bits [lo + w - 1 : lo] of a word as a number (R5). -/
abbrev bitsN {n : Nat} (v : BitVec n) (lo w : Nat) : Nat := (v.extractLsb' lo w).toNat

/-- A value placed at bit `lo` of a 32-bit word. -/
def fld (lo : Nat) (v : Nat) : W32 := BitVec.ofNat 32 (v <<< lo)

/-- 1 for true. -/
def bit01 (b : Bool) : Nat := if b then 1 else 0

/-- Addition that stops at the largest value of a w-bit field (R518). -/
def satAdd (w : Nat) (a n : Nat) : Nat := min (2 ^ w - 1) (a + n)

end Sys2Proof
end

