-- ==== Sys2Proof/Syntax.lean ====
section
/-! DEFINITION. The commands: one constructor for each row of spec/opcode_table.json. A row of a
field program (R34) names the cell whose sequencer issues the instruction at its PC; its operand
fields stand in the instruction word there (R32). -/

namespace Sys2Proof

/-- The commands of the block. -/
inductive Instr where
  /-- R34. Field-program instruction that stops issue; once all issued instructions have completed the cell becomes HALTED. -/
  | halt (c : CellId)
  /-- R34. After HALT or STOP, the last issued instruction completes, the gather buffer is flushed, STATE becomes HALTED and HALTED is raised. -/
  | cellHaltComplete (c : CellId)
  /-- R34. Field-program instruction that does nothing. -/
  | nop (c : CellId)
  /-- R34. Sets PC to IMM[9:0]. -/
  | jmp (c : CellId)
  /-- R34. Loads a loop counter with n, or jumps when n is zero. -/
  | loop (c : CellId)
  /-- R34. Decrements a loop counter and branches while the result is non-zero. -/
  | brc (c : CellId)
  /-- R34. Flushes the gather buffer and waits until every earlier write of the cell, SVWR included, has landed. -/
  | fence (c : CellId)
  /-- R34. A waiting FENCE ends when the last earlier write of the cell has landed. -/
  | fenceRelease (c : CellId)
  /-- R34. Waits until the cell's tide count and slot reach the target; faults with STEER_LATE if the target has already passed. -/
  | twait (c : CellId)
  /-- R34. A waiting TWAIT ends when its target tide and slot arrive. -/
  | twaitRelease (c : CellId)
  /-- R34. Copies a special register (tide count, slot, extent, own coordinates, polder number or loop counter) into RD. -/
  | movs (c : CellId)
  /-- R34. Scalar add RD = RA + RB, completing in its issue cycle. -/
  | add (c : CellId)
  /-- R34. Scalar add of the sign-extended immediate. -/
  | addi (c : CellId)
  /-- R34. Scalar subtract RD = RA − RB. -/
  | sub (c : CellId)
  /-- R34. Scalar multiply giving the low 64 bits, completing in its issue cycle. -/
  | mul (c : CellId)
  /-- R34. Scalar bitwise AND. -/
  | and (c : CellId)
  /-- R34. Scalar bitwise OR. -/
  | or (c : CellId)
  /-- R34. Scalar bitwise XOR. -/
  | xor (c : CellId)
  /-- R34. Scalar shift left by an immediate. -/
  | shli (c : CellId)
  /-- R34. Scalar logical shift right by an immediate. -/
  | shri (c : CellId)
  /-- R34. Loads the sign-extended immediate into RD. -/
  | ldi (c : CellId)
  /-- R34. Loads the immediate into RD[63:32], keeping RD[31:0]. -/
  | ldhi (c : CellId)
  /-- R29. Loads 8 to 64 bits from the scratchpad or accumulator; the result reaches the register 4 cycles after issue when no bank wait occurs. -/
  | ld (c : CellId)
  /-- R52. Stores 8 to 64 bits, narrow stores passing through the gather buffer. -/
  | st (c : CellId)
  /-- R34. Copies 16-byte units from RA to RD, 4 units per cycle. -/
  | copy (c : CellId)
  /-- R50. Clears the valid bits of 128-byte rows, one row per cycle, and discards gather-buffer entries inside the region. -/
  | vclr (c : CellId)
  /-- R56. Reads bytes from a remote cell's scratchpad over the SERVICE channel. -/
  | svrd (c : CellId)
  /-- R56. Writes bytes to a remote cell's scratchpad over the SERVICE channel. -/
  | svwr (c : CellId)
  /-- R56. A SERVICE access finishes: on success the named local semaphore is incremented, on DATA_UNCORRECTABLE the issuing cell faults. -/
  | serviceAccessComplete (c : CellId) (i : Fin 4)
  /-- R58. Sends 32-byte beats from the scratchpad on a data-net circuit, one per reserved injection slot from its start slot. -/
  | send (c : CellId)
  /-- R58. Receives 32-byte beats from a data-net circuit into scratchpad, or adds them into accumulator tiles when ADD is set. -/
  | recv (c : CellId)
  /-- R58. A SEND or RECV waiting in the port queue begins when an executing one of its kind completes, at its start slot, or faults STEER_LATE if that slot has passed. -/
  | portQueueStart (c : CellId)
  /-- R57. Waits until a semaphore is at least n and subtracts n. -/
  | swait (c : CellId)
  /-- R57. A waiting SWAIT is released in the cycle its semaphore reaches n, subtracting n. -/
  | swaitRelease (c : CellId)
  /-- R110. Sends a semaphore increment over the sync net to a cell or engine. -/
  | ssig (c : CellId)
  /-- R57. A sync-net increment arrives at a cell semaphore and becomes visible in the next cycle. -/
  | semIncrement (c : CellId) (sem : Fin 16) (n : Byte)
  /-- R186. A sync-net increment arrives at an engine semaphore; overflow faults the engine. -/
  | engineSemIncrement (e : EngId) (sem : Fin 16) (n : Byte)
  /-- R59. Emits a weir token to a named router output in the cell's next valid control-net injection slot. -/
  | wtok (c : CellId)
  /-- R60. Reads and clears an amax register and sends it to the Gauge, occupying the sync unit until the Gauge takes it. -/
  | amxs (c : CellId)
  /-- R60. The Gauge takes an AMXS report and the cell's sync unit is freed. -/
  | amxsComplete (c : CellId)
  /-- R41. Multiply-accumulates A·B into an accumulator tile with fixed timing per mode. -/
  | mma (c : CellId)
  /-- R41. An MMA waiting in the array queue starts the cycle after the previous MMA's last update. -/
  | arrayQueueStart (c : CellId)
  /-- R34. Zeroes accumulator tiles, one per cycle. -/
  | azero (c : CellId)
  /-- R34. Adds an 8×8 block in format FMT into accumulator tiles. -/
  | aacc (c : CellId)
  /-- R34. Multiplies accumulator tiles by an FP32 scale. -/
  | ascale (c : CellId)
  /-- R44. Reads tiles, scales, converts to DFMT and stores them as blocks, optionally transposed and masked. -/
  | acvt (c : CellId)
  /-- R73. Vector add in FP32. -/
  | vadd (c : CellId)
  /-- R73. Vector subtract in FP32. -/
  | vsub (c : CellId)
  /-- R73. Vector multiply in FP32. -/
  | vmul (c : CellId)
  /-- R73. Vector fused multiply-add with one rounding. -/
  | vfma (c : CellId)
  /-- R73. Vector maximum with NaN propagation. -/
  | vmax (c : CellId)
  /-- R73. Vector minimum with NaN propagation. -/
  | vmin (c : CellId)
  /-- R73. Vector multiply by an FP32 scalar. -/
  | vscl (c : CellId)
  /-- R73. Sums all elements into RD[31:0] in ascending order. -/
  | vrsum (c : CellId)
  /-- R73. Writes the maximum of all elements into RD[31:0]. -/
  | vrmax (c : CellId)
  /-- R74. Converts vectors between formats after scaling, rounding once under RND, MX blocks formed under R76. -/
  | cvt (c : CellId)
  /-- R46. Loads a 4,128-byte function-table image into table 0 or 1 over 33 cycles. -/
  | fload (c : CellId)
  /-- R47. Evaluates a function table for each element and converts the result to DFMT. -/
  | feval (c : CellId)
  /-- R49. Forms dy × f′(x) through table 1 and converts the result to DFMT. -/
  | fbwd (c : CellId)
  /-- R64. A cell reset clears scratchpad valid bits, accumulator, program store and state over 512 cycles and applies spare rows. -/
  | cellReset (c : CellId)
  /-- R128. A write of CEL_CTRL.RUN makes the cell's start pending until slot 0 of the next tide that is a multiple of 16. -/
  | celRunWrite (c : CellId) (w : Who)
  /-- R128. A pending cell starts at CEL_START in the start cycle with tide count 0 and STATE RUNNING. -/
  | cellStart (c : CellId)
  /-- R528. A write of CTRL.STOP ends a running program, or cancels a pending start. -/
  | celStop (c : CellId) (w : Who)
  /-- R527. A BAR2 write to a program-store half-word, refused with REFUSED_BUSY while the cell runs. -/
  | programStoreWrite (c : CellId) (w : Who) (pc : Fin 1024) (hi : Bool) (v : W32)
  /-- R91. A write to GRD_RNG_KEY or GRD_RNG_STEP takes effect at once when no cell runs, else at the next step boundary. -/
  | rngRegisterWrite (p : Pid) (w : Who) (i : Fin 5) (v : W32)
  /-- R98. The polder slot wraps from 63 to 0 and GRD_TIDE advances, unless HOLD freezes the polder. -/
  | tideWrap (p : Pid)
  /-- R102. A data-net beat arrives at a router input and leaves, or dwells, on each output circuit that selects it. -/
  | beatHop (c : CellId) (port : Fin 6) (circ : Fin 8)
  /-- R108. A control-net token is forwarded in a reserved slot, or discarded with TOKEN_INVALID when no slot serves its input. -/
  | controlTokenHop (c : CellId) (input : Fin 5)
  /-- R109. A SERVICE packet advances one hop in a free control-net slot, routed row first. -/
  | servicePacketHop (p : Pid) (i : Nat)
  /-- R106. A token enters a weir queue and is checked for epoch and timing, then accepted, dropped as stale or reported late. -/
  | weirTokenArrival (c : CellId) (out : Fin 6) (tok : BitVec 24)
  /-- R107. An accepted token changes its output circuit's setting in the first cycle of its named slot and tide. -/
  | tokenTakesEffect (c : CellId) (out : Fin 6) (i : Fin 4)
  /-- R115. 40 cycles after a HOLD request is first asserted, every cell, router, weir and engine of the polder freezes in one cycle. -/
  | holdFreeze (p : Pid)
  /-- R115. 40 cycles after the last HOLD request, the polder resumes everywhere in one cycle with timing unchanged. -/
  | holdResume (p : Pid)
  /-- R117. A write of GRD_CTRL.DEBUG_HOLD asserts or withdraws a HOLD request exempt from the overrun watchdog. -/
  | debugHoldWrite (p : Pid) (w : Who) (on : Bool)
  /-- R121. A write of GRD_RECFG.GO latches the rectangle and starts a drain test, or waits, or is refused. -/
  | recfgGo (p : Pid) (w : Who)
  /-- R124. A GO waiting for the 8-tide interval or for an accepted issue begins its drain test. -/
  | recfgWaitEnd (p : Pid)
  /-- R121. The plot becomes DRAINED within 4 tides: weir epochs advance, settings become NONE and OPEN is set. -/
  | recfgDone (p : Pid)
  /-- R121. The plot is not DRAINED 4 tides after the drain test started; the old configuration stays. -/
  | notDrained (p : Pid)
  /-- R121. A write of GRD_RECFG.RELEASE ends the open reconfiguration. -/
  | recfgRelease (p : Pid) (w : Who)
  /-- R129. A slot-table write through GRD_TBL_DATA, ignored with TBL_REFUSED outside an OPEN rectangle, for a missing table, or when it breaks seam spacing. -/
  | slotTableWrite (p : Pid) (w : Who) (v : W32)
  /-- R140. A write of GRD_ISSUE_CTRL.GO submits the issue record, which the issue unit checks in order. -/
  | issueGo (p : Pid) (w : Who)
  /-- R140. The variant table header or entry read completes and the remaining checks run, or check 3 fails with the read's code. -/
  | variantTableReadDone (p : Pid)
  /-- R145. At slot 0 of the start tide, once polder RUNNING and SCALES_BUSY clear, every cell of the plot sets RUN and starts, and bound engines start their tide. -/
  | plotStart (p : Pid) (i : Nat)
  /-- R145. An issue with a named START_TIDE whose tide arrives while the polder is not RUNNING or scales are busy completes with STEER_LATE. -/
  | startTideMissed (p : Pid) (i : Nat)
  /-- R146. An issue completes with DONE when every cell is HALTED, with a cell's ERR_CODE on a fault, or with RESET_ABORT on a reset. -/
  | issueComplete (p : Pid) (i : Nat)
  /-- R170. A write of GRD_PIPE_CTRL.GO submits a pipeline table, which first waits for its gate. -/
  | pipeGo (p : Pid) (w : Who)
  /-- R173. Every enabled hand-off channel meets its lead, the gate opens and the pipeline table is read. -/
  | pipeGateOpen (p : Pid)
  /-- R170. The pipeline table read completes and each stage is checked, stash checks included, and started if all pass. -/
  | pipeTableReadDone (p : Pid)
  /-- R150. A pass begins every PERIOD tides; the stash manager has written every stash word for it. -/
  | passBegin (p : Pid)
  /-- R164. An OFFLOAD entry produced in the previous pass is copied out through Outfall into the reserve. -/
  | stashCopyOut (p : Pid) (stage : Fin 64) (rec : Fin 32)
  /-- R164. An OFFLOAD entry is returned through Intake into the consume slot in the pass before its backward half. -/
  | stashReturn (p : Pid) (stage : Fin 64) (rec : Fin 32)
  /-- R171. A pipeline run completes with DONE when every cell of every stage is HALTED, or with a fault code or RESET_ABORT. -/
  | pipeRunComplete (p : Pid)
  /-- R172. A write of GRD_HANDn_SEQ or GRD_HANDn_DONE, locally or by fabric, advances a hand-off channel and may open waiting gates. -/
  | handoffRegisterWrite (p : Pid) (w : Who) (n : Fin 4) (isDone : Bool) (v : W32)
  /-- R175. A write of INT or OUT RING_TAIL rings an engine's doorbell. -/
  | ringTailWrite (e : EngId) (w : Who) (v : W32)
  /-- R176. An engine fetches up to 8 descriptors in one 512-byte read whenever entries and queue space are available. -/
  | descBurstFetch (e : EngId)
  /-- R177. A descriptor burst lands and its descriptors join the engine queue. -/
  | descBurstLanded (e : EngId)
  /-- R181. A descriptor enters the fetching position and is checked; a malformed one faults the engine. -/
  | descEnterFetching (e : EngId)
  /-- R182. A write of CTRL.ARM arms an IDLE engine to fetch, or is refused with ARM_REFUSED. -/
  | engineArm (e : EngId) (w : Who)
  /-- R203. A write of CTRL.STOP stops new requests and beats, discards the queue and drops Outfall buffered beats. -/
  | engineStop (e : EngId) (w : Who)
  /-- R203. In-flight reads and writes of a stopping engine complete, the buffer is empty and STATE becomes STOPPED. -/
  | engineStopped (e : EngId)
  /-- R182. After plot completion the engine's reads have been dropped and writes completed, and it becomes IDLE. -/
  | engineIdle (e : EngId)
  /-- R185. The fetch side issues a memory request of up to 512 bytes when buffer space and, for tier 1, a grant are available. -/
  | intakeRequestIssue (e : EngId)
  /-- R197. A gathered-weight descriptor waiting on its hand-off channel and chunk may issue its requests. -/
  | handGateWaitEnd (e : EngId)
  /-- R193. A read's data arrives, is converted and placed in the Intake buffer, or is replayed, retried or faults. -/
  | intakeDataLanded (e : EngId) (i : Nat) (r : ReadReply)
  /-- R194. 256 cycles after REFUSED_BUSY a tier-3 or tier-4 read is reissued. -/
  | intakeRetryTimer (e : EngId) (i : Nat)
  /-- R188. The Intake execute side emits a beat into its EDGE port in a reserved slot, freeing its buffer space after the last emission. -/
  | intakeBeatEmit (e : EngId) (circ : Fin 8)
  /-- R195. An Intake engine asserts HOLD in each cycle in which the beat due 42 cycles later is not yet in its buffer. -/
  | intakeHoldRequest (e : EngId)
  /-- R187. A descriptor's last beat moves or write becomes visible, it signals SSIG when SIG_EN is set, and retires. -/
  | descRetire (e : EngId)
  /-- R198. An Outfall engine takes a beat from its EDGE output for the oldest executing descriptor of its circuit, or faults on an orphan beat. -/
  | outfallBeatTake (e : EngId)
  /-- R186. An Outfall descriptor waiting on its engine semaphore proceeds to its first write once the semaphore reaches n. -/
  | outfallWaitRelease (e : EngId)
  /-- R200. An Outfall engine writes buffered beats to memory; OFFLOAD skips and invalidates all-zero granules. -/
  | outfallWrite (e : EngId)
  /-- R199. Outfall hands a REDUCE_WRITE transaction of up to 512 bytes to the fabric transaction engine, translated through the shard map if MAP is set. -/
  | reduceWriteSend (e : EngId)
  /-- R199. A REDUCE_WRITE completion returns to Outfall and is retired, reissued, counted as rejected, or faults the engine. -/
  | reduceWriteCompletion (e : EngId) (tag : BitVec 16) (status : Status) (deferred : Bool)
  /-- R199. 256 cycles after REFUSED_BUSY, Outfall reissues the transaction. -/
  | outfallReissueTimer (e : EngId) (tag : BitVec 16)
  /-- R192. An access slot grants up to 512 bytes to its requester, to refresh, or to unscheduled traffic. -/
  | hbmAccessGrant (p : Pid) (die : Fin 4) (ctrl : Fin 2)
  /-- R191. A write of HBC_ACC_DATA, ignored with ACC_REFUSED unless every engine of the die is IDLE. -/
  | accessTableWrite (p : Pid) (die : Fin 4) (ctrl : Fin 2) (w : Who) (v : W32)
  /-- R218. Edit CREATE makes a zeroed head LIVE with an empty image at version 1. -/
  | kvCreate (p : Pid)
  /-- R218. Edit APPEND adds one new page at logical offset LEN from the context's quota and publishes a new image. -/
  | kvAppend (p : Pid)
  /-- R218. Edit FORK makes a new head sharing the source's entries up to OFFSET and republishes the source with SHARED set. -/
  | kvFork (p : Pid)
  /-- R218. Edit PREPARE_WRITE replaces shared entries in a range by private RESIDENT copies. -/
  | kvPrepareWrite (p : Pid)
  /-- R218. Edit TRUNCATE removes every entry at or above OFFSET. -/
  | kvTruncate (p : Pid)
  /-- R218. Edit DESTROY sets the head DESTROYING and publishes an empty image. -/
  | kvDestroy (p : Pid)
  /-- R218. Edit PREFETCH brings SPILLED entries of a range back to tier 1. -/
  | kvPrefetch (p : Pid)
  /-- R218. Edit RESIDENT sets or clears RESIDENT on entries of a range, fetching spilled ones first when setting. -/
  | kvResident (p : Pid)
  /-- R220. A walk's last data lands, its pin is released, and an unpinned superseded image is reclaimed. -/
  | kvPinRelease (p : Pid) (i : Nat)
  /-- R225. A prefetched page has been copied back to tier 1 and a new image is published for it. -/
  | kvPrefetchPageDone (p : Pid)
  /-- R243. Range engine op CLEAR clears the valid bits of a BITMAP range. -/
  | rangeClear (p : Pid) (w : Who)
  /-- R247. Range engine op FETCH moves SPILL-region pages from LOW through FILLING to HIGH. -/
  | rangeFetch (p : Pid) (w : Who)
  /-- R247. Range engine op EVICT writes back dirty granules and returns pages to LOW. -/
  | rangeEvict (p : Pid) (w : Who)
  /-- R255. A GO with OP 3 changes nothing and completes at once with INTERNAL. -/
  | rangeReservedOp (p : Pid) (w : Who)
  /-- R255. A range operation completes, writes its status and raises RANGE_DONE. -/
  | rangeDone (p : Pid)
  /-- R251. A 1 µs bandwidth window ends and each context's admitted byte count restarts. -/
  | bwWindowExpiry (p : Pid)
  /-- R254. A server access through a BAR4 aperture reaches tier 1 or 2 as KEEPER_AGENT context 0, or is aborted. -/
  | bar4Access (p : Pid) (off : BitVec 36) (a : Access)
  /-- R253. A tier-3 request completes according to its PCIe outcome, or times out after 50 ms. -/
  | tier3Completion (p : Pid) (i : Nat) (o : PcieOutcome)
  /-- R263. A write of PMP_CHn_CTRL.GO reads and checks the update table, zeroes counts if asked and opens the reduction. -/
  | pumpArm (p : Pid) (ch : Fin 4) (w : Who)
  /-- R266. A write of PMP_CHn_CTRL.CLOSE brings the reduction to its close point with DONE_PARTIAL. -/
  | pumpClose (p : Pid) (ch : Fin 4) (w : Who)
  /-- R266. PMP_DEADLINE passes since the first admitted write and the reduction closes DONE_PARTIAL. -/
  | pumpDeadlineExpiry (p : Pid) (ch : Fin 4)
  /-- R266. PMP_GRACE passes after a NOTICE of a lost contributor or member; the reduction closes, or a root finishes its total. -/
  | pumpGraceExpiry (p : Pid) (ch : Fin 4)
  /-- R267. Writes admitted before the close have landed; the pool is merged, partial blocks rescaled, tie-sums run and the sum of squares sent to the roots. -/
  | reductionDrained (p : Pid) (ch : Fin 4)
  /-- R271. A member's norm cell shows SEQ; the controller decides skip or clip factor and starts the update pass. -/
  | normTotalReady (p : Pid) (ch : Fin 4)
  /-- R277. A shard's last write becomes visible and DONE is advanced on hand-off destinations when all chunks up to it are complete. -/
  | pumpShardComplete (p : Pid) (ch : Fin 4) (shard : Nat)
  /-- R282. The update pass ends and the update completes with its close status, a failure code, or DONE with SKIPPED. -/
  | pumpUpdateComplete (p : Pid) (ch : Fin 4)
  /-- R458. Pumps waiting for room in the snapshot stream's share resume handing off high halves. -/
  | snapshotHandoffWaitEnd (p : Pid) (ch : Fin 4)
  /-- R458. Pump waits on a snapshot exceed INL_SNAP_WAIT; the snapshot aborts with an ABORT frame and the update proceeds. -/
  | snapshotAbort (p : Pid) (ch : Fin 4)
  /-- R288. A write of FLP CTRL.ENABLE starts bring-up or disables the port. -/
  | portEnableWrite (p : Pid) (port : Fin 8) (w : Who) (v : W32)
  /-- R289. The transmitter load test ends, shorted lanes are marked TX_SHORT and the port enters NEGOTIATE. -/
  | laneCheckDone (p : Pid) (port : Fin 8) (shorted : BitVec 8)
  /-- R291. Every lane's exchange has completed or timed out; peer records are checked, lanes ordered and width chosen or the port refused. -/
  | negotiateRoundEnd (p : Pid) (port : Fin 8) (lanes : List LaneRx) (peer : Option FinalPage)
  /-- R294. Link training completes on every lane in use, or a lane times out and the port returns to NEGOTIATE or fails. -/
  | trainDone (p : Pid) (port : Fin 8) (failed : BitVec 8) (inverted : BitVec 8)
  /-- R296. FEC and alignment lock are gained; the port enters UP with SEQ 0 and full credits. -/
  | alignDone (p : Pid) (port : Fin 8)
  /-- R288. The 1 s pause after NO_PEER or a refusal ends and the port restarts LANE_CHECK. -/
  | waitExpiry (p : Pid) (port : Fin 8)
  /-- R293. A write of CTRL.RETRAIN takes the link down with cause RETRAIN and restarts bring-up. -/
  | retrain (p : Pid) (port : Fin 8) (w : Who)
  /-- R304. A lane in use loses signal or lock and the link goes down. -/
  | laneLost (p : Pid) (port : Fin 8)
  /-- R304. After 1 ms of electrical idle the downed port restarts bring-up. -/
  | downIdleEnd (p : Pid) (port : Fin 8)
  /-- R306. An in-package link runs its fixed lane check, training and RX_GOOD exchange within 5 ms. -/
  | inPackageBringup (p : Pid) (port : Fin 8) (failed : BitVec 8) (peer : Option (BitVec 8))
  /-- R302. A flit arrives; CRC, parity and SEQ are checked, it is delivered or discarded, and its ACK/NAK and credits are applied. -/
  | flitReceive (p : Pid) (port : Fin 8) (flit : BitVec 2048)
  /-- R301. The sender sends a replay, a new TXN flit against a credit, or a NULL flit in each flit time. -/
  | flitTransmit (p : Pid) (port : Fin 8)
  /-- R302. 64 port cycles after a delivery, or 32 deliveries, the receiver sends an ACK. -/
  | ackTimer (p : Pid) (port : Fin 8)
  /-- R312. A local requester's transaction is admitted for egress and packed into its stream's flits. -/
  | txnRequestIssue (p : Pid) (t : Txn)
  /-- R331. An ELASTIC transaction unsent after FLX_ELASTIC_MAX completes with REFUSED_BUSY. -/
  | elasticWaitExpiry (p : Pid) (tag : BitVec 16)
  /-- R317. An inbound READ is executed at its target and returns LEN bytes. -/
  | fabricRead (p : Pid) (port : Fin 8) (t : Txn)
  /-- R328. An inbound WRITE is checked against protection and windows and lands, or folds into parity. -/
  | fabricWrite (p : Pid) (port : Fin 8) (t : Txn)
  /-- R319. An inbound REDUCE_WRITE is epoch-checked, window-checked and added into its FP32 target. -/
  | fabricReduceWrite (p : Pid) (port : Fin 8) (t : Txn)
  /-- R318. An inbound ATOMIC FETCH_ADD adds OPND indivisibly and returns the old value. -/
  | fabricFetchAdd (p : Pid) (port : Fin 8) (t : Txn)
  /-- R318. An inbound ATOMIC COMPARE_SWAP writes the swap value if the old value equals OPND and returns it. -/
  | fabricCompareSwap (p : Pid) (port : Fin 8) (t : Txn)
  /-- R327. WINDOW_OPEN, from the fabric or FLX_WIN_CTRL.OPEN, opens a CLOSED window over a new range. -/
  | windowOpen (p : Pid) (o : WinFrom)
  /-- R329. WINDOW_CLOSE, from the fabric or FLX_WIN_CTRL.CLOSE, sets the close point and makes an OPEN window CLOSING. -/
  | windowClose (p : Pid) (o : WinFrom)
  /-- R328. An admitted window write becomes visible and the window counter falls; a CLOSING window at zero becomes CLOSED and WINDOW_CLOSE completes. -/
  | windowWriteVisible (p : Pid) (i : Fin 64)
  /-- R330. FENCE completes when every earlier request of its source to its destination in the named classes has completed. -/
  | fabricFence (p : Pid) (port : Fin 8) (t : Txn)
  /-- R320. A completion arrives, is checked for incarnation and tag and completes its request or is discarded. -/
  | txnCompletion (p : Pid) (t : Txn)
  /-- R322. A request without completion within its timeout is completed with RESET_ABORT by its own FLX. -/
  | requestTimeout (p : Pid) (tag : BitVec 16)
  /-- R334. Every 2 µs the FLX sends a HEARTBEAT to every valid heartbeat-list entry. -/
  | heartbeatTimer (p : Pid)
  /-- R334. A heartbeat arrives, updating the peer's incarnation view and clearing LOST and the lost mark. -/
  | heartbeatRx (p : Pid) (t : Txn)
  /-- R334. No heartbeat from a listed peer for 8 µs: the peer is declared lost, its requests abort and PEER_LOST is sent. -/
  | peerLossTimeout (p : Pid) (entry : Fin 32)
  /-- R335. A PEER_LOST notice marks its subject lost, aborts requests to it and informs the Warden and Pump controller. -/
  | noticePeerLost (p : Pid) (t : Txn)
  /-- R335. A PEER_UP notice sets the incarnation view and KNOWN and clears the lost mark. -/
  | noticePeerUp (p : Pid) (t : Txn)
  /-- R335. A ROUTE_CHANGE notice is queued for Varore. -/
  | noticeRouteChange (p : Pid) (t : Txn)
  /-- R335. A DRAIN notice makes new requests to its subject complete with REFUSED_BUSY until PEER_UP. -/
  | noticeDrain (p : Pid) (t : Txn)
  /-- R335. A USER notice is queued with its 16 data bytes. -/
  | noticeUser (p : Pid) (t : Txn)
  /-- R336. A write of FLX_CTRL.NOTICE_SEND injects the notice held in FLX_NTX0–3. -/
  | noticeSend (p : Pid) (w : Who)
  /-- R335. A write of FLX_CTRL.NOTICE_POP removes the head of the notice queue. -/
  | noticePop (p : Pid) (w : Who)
  /-- R339. A flit for another polder is forwarded on its route's PRIMARY or ALTERNATE port, or discarded as unroutable. -/
  | flitForward (p : Pid) (port : Fin 8) (flit : BitVec 2048)
  /-- R352. FLX_MAP_CTRL.STAGE copies a shard map table into map memory as the slot's STAGED map. -/
  | flxMapStage (p : Pid) (w : Who)
  /-- R353. FLX_MAP_CTRL.ACTIVATE requests activation of the STAGED map at the next phase boundary. -/
  | flxMapActivate (p : Pid) (w : Who)
  /-- R353. At a phase boundary with nothing pending, PREVIOUS retires, CURRENT becomes PREVIOUS and STAGED becomes CURRENT. -/
  | mapActivation (p : Pid) (slot : Fin 8)
  /-- R354. FLX_MAP_CTRL.RETIRE retires the PREVIOUS map at once and frees its entries. -/
  | flxMapRetire (p : Pid) (w : Who)
  /-- R352. FLX_MAP_CTRL.DROP discards the STAGED map. -/
  | flxMapDrop (p : Pid) (w : Who)
  /-- R363. A 64-byte mirror record WRITE to TWN_MBOX over the Twin port is placed whole in the receive ring. -/
  | mirrorRecordRx (p : Pid) (port : Fin 8) (t : Txn)
  /-- R363. A mirror record completion returns; a non-DONE code raises MIRROR_FAIL and resends it and every later record. -/
  | mirrorRecordCompletion (p : Pid) (status : Status)
  /-- R364. A write of TWN CTRL.POST sends a SAMPLES record for the current step. -/
  | twnPost (p : Pid) (w : Who)
  /-- R365. A write of TWN CTRL.STEP_END waits until no REDUCE_WRITE of the polder is outstanding. -/
  | stepEnd (p : Pid) (w : Who)
  /-- R365. TWN_STEP advances in one cycle; RNG step, scales and Gauge decisions take effect and STEP and GAUGE records are sent. -/
  | stepBoundary (p : Pid)
  /-- R416. All designated scale words are written, SCALES_BUSY clears and waiting starts may proceed. -/
  | scalesWritten (p : Pid)
  /-- R372. Transfer op COPY reads a range, multiplies by COEF in GF(2^8) and writes it by BACKGROUND fabric WRITE. -/
  | xfCopy (p : Pid) (w : Who)
  /-- R372. Transfer op ZERO writes zeros to the destination range. -/
  | xfZero (p : Pid) (w : Who)
  /-- R372. A transfer completes with DONE or its first failing code and raises XF_DONE. -/
  | xfComplete (p : Pid) (status : Status)
  /-- R384. A cell stays in WAIT_SEM beyond WDN_SEM_LIMIT tides and the Warden halts the plot with INTERNAL. -/
  | semWaitWatchdog (c : CellId)
  /-- R385. On a cell, engine or grid fault the Warden stops the plot, completes its run, records WDN_CAUSE and resets the plot. -/
  | plotHalt (p : Pid)
  /-- R384. An engine holds a request beyond WDN_ENG_LIMIT and the Warden resets it. -/
  | engWaitWatchdog (e : EngId)
  /-- R386. A non-debug HOLD lasts 200 µs and the Warden resets the responsible Intake or Outfall engine. -/
  | holdOverrun (p : Pid)
  /-- R384. A block fails to answer within 10 µs and its die, or the polder, is reset. -/
  | noResponseWatchdog (p : Pid) (b : BlockId)
  /-- R384. A seam, internal UCIe link or field PLL loses lock and the Warden resets the polder. -/
  | internalLinkLost (p : Pid) (j : JoinId)
  /-- R384. An enabled external port stays out of UP beyond WDN_LINK_LIMIT and LINK_STUCK is raised and journalled. -/
  | linkStuck (p : Pid) (port : Option (Fin 8))
  /-- R391. WDN_RESET_REQ with domain PLOT resets the rectangle's cells, routers, weirs, slot tables and bound engines. -/
  | resetReqPlot (p : Pid) (w : Who)
  /-- R391. WDN_RESET_REQ with domain ENGINE resets one Intake or Outfall engine. -/
  | resetReqEngine (p : Pid) (w : Who) (target : Byte)
  /-- R391. WDN_RESET_REQ with domain DIE resets a field die or the basin die. -/
  | resetReqDie (p : Pid) (w : Who) (target : Byte)
  /-- R391. WDN_RESET_REQ with domain POLDER resets every die of the polder except the Warden core. -/
  | resetReqPolder (p : Pid) (w : Who)
  /-- R391. WDN_RESET_REQ with domain POWER_CYCLE opens the polder's rail switches. -/
  | resetReqPowerCycle (p : Pid) (w : Who)
  /-- R392. A reset delayed by the 1 ms rule starts once 1 ms has passed since the block's previous reset. -/
  | resetHoldoffEnd (p : Pid) (i : Nat)
  /-- R387. Every block of the domain reports its reset state and recovery begins. -/
  | resetComplete (p : Pid) (i : Nat)
  /-- R389. A reset not complete within its rung's timeout escalates to the next domain, or stops at CEILING. -/
  | ladderTimeout (p : Pid) (i : Nat)
  /-- R397. A recovery phase completes and the next starts; after phase G the polder becomes READY. -/
  | recoveryPhaseDone (p : Pid)
  /-- R398. A phase exceeds its bound; the polder is power-cycled, or left FAILED on a second failure. -/
  | recoveryPhaseTimeout (p : Pid)
  /-- R399. A write of WDN CTRL.RESUME takes a READY polder to RUNNING. -/
  | wardenResume (p : Pid) (w : Who)
  /-- R383. A polder reset exceeds 2 ms or the Warden core ignores a read for 100 µs, and the keeper power manager power-cycles the polder. -/
  | wardenGuardTimeout (p : Pid)
  /-- R402. After an engine's domain is ready, the Warden holds the suspects' commands and replays the first suspect's batch. -/
  | probeStart (p : Pid)
  /-- R402. A replayed batch completes and the next suspect is probed, or all resume as TRANSIENT. -/
  | probeBatchDone (p : Pid)
  /-- R402. A batch leaves a request uncompleted for WDN_PROBE_LIMIT; the engine is reset and the suspect quarantined. -/
  | probeTimeout (p : Pid)
  /-- R404. A write of WDN_QUAR.RELEASE frees a quarantine entry. -/
  | quarantineRelease (p : Pid) (w : Who)
  /-- R414. An AMXS report reaches the Gauge and is descaled and folded into its entry's step maximum. -/
  | amaxReport (p : Pid)
  /-- R417. Pump sums for a shard reach the Gauge, which forms the layer ratio and applies the out-of-band action. -/
  | pumpRatioReport (p : Pid) (ch : Fin 4)
  /-- R417. A write of GAU CTRL.RELEASE releases a HALT-held update. -/
  | gaugeRelease (p : Pid) (w : Who)
  /-- R421. Each millisecond the thermal manager reads every die and changes the clock bin as its thresholds require. -/
  | thermalSample (p : Pid) (temps : BitVec 48)
  /-- R421. A die still at 105 °C 10 ms after the critical bin change makes the manager open the polder's rail switches. -/
  | thermalCritTimeout (p : Pid)
  /-- R425. A write of GAU CTRL.IMG_SAVE writes the Gauge state image to GAU_IMG. -/
  | imgSave (p : Pid) (w : Who)
  /-- R425. A write of GAU CTRL.IMG_LOAD replaces the Gauge state from the image, waiting until no cell runs. -/
  | imgLoad (p : Pid) (w : Who)
  /-- R431. A write of a slot's SQ_TAIL submits entries for the queue engine to fetch. -/
  | sqTailDoorbell (slot : Fin 64) (v : W32)
  /-- R431. A write of a slot's CQ_HEAD returns completion entries and lets a stalled queue fetch again. -/
  | cqHeadDoorbell (slot : Fin 64) (v : W32)
  /-- R436. The queue engine fetches a submission entry and admits it against the slot's command quota. -/
  | commandFetch (slot : Fin 64) (entry : BitVec 1024)
  /-- R435. A command is dispatched to its target after FENCE and quota waits, checking GEN, probe hold and quarantine. -/
  | commandDispatch (slot : Fin 64) (tag : BitVec 16)
  /-- R434. Command NOP completes DONE. -/
  | cmdNop (slot : Fin 64) (tag : BitVec 16)
  /-- R434. Command REG_READ returns a BAR0 register value in RESULT. -/
  | regRead (slot : Fin 64) (tag : BitVec 16)
  /-- R434. Command REG_WRITE writes a BAR0 register. -/
  | regWrite (slot : Fin 64) (tag : BitVec 16)
  /-- R138. Command PLOT_ISSUE submits an issue record to the polder's issue unit. -/
  | plotIssue (slot : Fin 64) (tag : BitVec 16)
  /-- R170. Command PIPE_START submits a pipeline table address. -/
  | pipeStart (slot : Fin 64) (tag : BitVec 16)
  /-- R218. Command KV_EDIT submits an edit record to the Spillway. -/
  | kvEdit (slot : Fin 64) (tag : BitVec 16)
  /-- R263. Command UPDATE_ARM arms a Pump channel with an update table. -/
  | updateArm (slot : Fin 64) (tag : BitVec 16)
  /-- R352. Command MAP_STAGE stages a shard map into a slot. -/
  | mapStage (slot : Fin 64) (tag : BitVec 16)
  /-- R353. Command MAP_ACTIVATE activates a slot's STAGED map and completes when it is CURRENT. -/
  | mapActivate (slot : Fin 64) (tag : BitVec 16)
  /-- R380. Command RESTORE_2408 converts Perirjo 2408 counter and queue images into STEP and SAMPLES records. -/
  | restore2408 (slot : Fin 64) (tag : BitVec 16) (counter : BitVec 512) (queue : List (BitVec 128))
  /-- R434. Command JOURNAL_READ copies journal records to server memory. -/
  | journalRead (slot : Fin 64) (tag : BitVec 16)
  /-- R441. Command CFG_STAGE opens a STAGED image numbered CFG_NEXT. -/
  | cfgStage (slot : Fin 64) (tag : BitVec 16)
  /-- R441. Command CFG_COMMIT seals and checks the STAGED image and makes the commit pending. -/
  | cfgCommit (slot : Fin 64) (tag : BitVec 16)
  /-- R441. Command CFG_DISCARD returns the shadows to ACTIVE. -/
  | cfgDiscard (slot : Fin 64) (tag : BitVec 16)
  /-- R441. Command CFG_ROLLBACK loads PREVIOUS into the shadows and commits it. -/
  | cfgRollback (slot : Fin 64) (tag : BitVec 16)
  /-- R441. A write of CFG_CTRL.STAGE opens a STAGED image. -/
  | cfgCtrlStage (w : Who)
  /-- R441. A write of CFG_CTRL.COMMIT seals, checks and pends the STAGED image. -/
  | cfgCtrlCommit (w : Who)
  /-- R441. A write of CFG_CTRL.DISCARD discards the STAGED image. -/
  | cfgCtrlDiscard (w : Who)
  /-- R441. A write of CFG_CTRL.ROLLBACK commits the PREVIOUS image. -/
  | cfgCtrlRollback (w : Who)
  /-- R443. Every polder is drained; pages apply their shadows, STAGED becomes ACTIVE and the COMMIT completes DONE. -/
  | commitSwap
  /-- R444. Polders are not drained within CFG_DRAIN_LIMIT and the COMMIT completes with NOT_DRAINED. -/
  | commitDrainTimeout
  /-- R441. A write of an RWS register updates its shadow, or is ignored with WRITE_IGNORED when no unsealed image is open. -/
  | rwsWrite (a : RegAddr) (w : Who) (v : W32)
  /-- R470. Command FW_LOAD verifies an image in keeper memory and writes it to a flash slot. -/
  | fwLoad (slot : Fin 64) (tag : BitVec 16) (image : Option (List Byte))
  /-- R437. Command FW_ACTIVATE causes a keeper reset into the named slot. -/
  | fwActivate (slot : Fin 64) (tag : BitVec 16)
  /-- R473. Command ATTEST writes a signed 512-byte attestation report with the nonce. -/
  | attest (slot : Fin 64) (tag : BitVec 16) (written : Bool)
  /-- R437. A write of KQ CTRL.KRESET resets the keeper into the running slot. -/
  | kreset (w : Who)
  /-- R437. Varore fails to service the keeper watchdog for 100 ms and a keeper reset follows. -/
  | keeperWatchdog
  /-- R438. A polder under HOST_HOLD finishes its accepted work, enters STEP_HOLD and sends PEER_LOST naming itself. -/
  | hostHoldPoint (p : Pid)
  /-- R439. Varore reports ready; held commands dispatch with DEFERRED and HOST_HOLD is released. -/
  | keeperReady
  /-- R437. Varore does not report ready within 2 s, and the boot ROM starts the other slot with FALLBACK set. -/
  | keeperBootTimeout
  /-- R439. A held command still unfinished 2 s after the keeper reset began completes with RESET_ABORT. -/
  | heldCommandTimeout (slot : Fin 64) (tag : BitVec 16)
  /-- R453. An inbound DATA frame is checked for order, credit, quota and staging and admitted or answered with a NACK. -/
  | inletDataFrame (p : Pid) (f : Frame)
  /-- R457. A CREDIT frame from an OUT stream's peer advances the send limit and frees delivered bytes. -/
  | inletCreditFrame (p : Pid) (f : Frame)
  /-- R457. A NACK frame makes the port resend the OUT stream from OFFSET. -/
  | inletNackFrame (p : Pid) (f : Frame)
  /-- R457. A received PFC frame pauses or resumes transmission on its priority. -/
  | inletPfcFrame (p : Pid) (enable : BitVec 8) (pause : BitVec 8)
  /-- R447. A frame failing FCS, protocol, address, session or type checks is dropped and counted. -/
  | inletFrameDrop (p : Pid) (cause : DropCause)
  /-- R455. A staged frame's last byte is visible in the ring; DELIVERED advances and SSIG is issued after LAST. -/
  | inletFrameDelivered (p : Pid)
  /-- R451. A write of INL_STR_SESSION opens a stream, resetting its offsets and sending a CREDIT, or closes it. -/
  | inletSessionWrite (p : Pid) (w : Who) (v : W32)
  /-- R452. A write of INL_STR_CONSUMED advances the credit limit, or is ignored if backwards or beyond DELIVERED. -/
  | inletConsumedWrite (p : Pid) (w : Who) (v : W64)
  /-- R452. Every 10 µs while state changed, or on a limit step, the port sends a CREDIT. -/
  | inletCreditTimer (p : Pid) (stream : Fin 16)
  /-- R456. A priority's staging headroom falls or recovers and the port sends a PFC pause or resume, repeating pauses every 10 µs. -/
  | inletPfcSend (p : Pid) (prio : Fin 8)
  /-- R457. The port sends SNAPSHOT frames of high halves below the peer's credit limit. -/
  | inletSnapshotSend (p : Pid) (stream : Fin 16)
  /-- R295. The Inlet port runs lane check, standard auto-negotiation and training, refusing Strelham peers. -/
  | inletBringup (p : Pid) (laneFault : Bool) (strelham : Bool)
  /-- R461. FUS_BLOW with field PROT_MAP blows one protection-map bit. -/
  | fuseBlowProtMap (w : Who) (i : Fin 128)
  /-- R461. FUS_BLOW with field DEBUG_LOCK blows the debug lock. -/
  | fuseBlowDebugLock (w : Who)
  /-- R461. FUS_BLOW with field FIELD_LOCK ends all field blows at once. -/
  | fuseBlowFieldLock (w : Who)
  /-- R461. A fuse blow completes after 1 ms and raises BLOWN. -/
  | fuseBlowDone
  /-- R471. A write of SEC CTRL.ARB_ADVANCE blows ARB bits up to the running SVN and empties older slots. -/
  | arbAdvance (w : Who)
  /-- R467. An access through the debug port, denied when DEBUG_LOCK is blown and otherwise setting DEBUG_USED on first use. -/
  | debugAccess (a : RegAddr) (v : Option W32)
  /-- R480. A PLL loses lock, leading to a polder reset or keeper reset. -/
  | pllLockLoss (l : PllId)
  /-- R481. The 54 V input rises above 40 V and hot-swap charge begins the power-up sequence. -/
  | inputRise
  /-- R484. Hot-swap charge completes, the keeper group comes up and MOD_PWROK is asserted. -/
  | hotswapChargeDone
  /-- R481. The input falls below 38 V and is ridden through for under 200 µs. -/
  | vinDip
  /-- R481. The input stays below 38 V for 200 µs or exceeds 63 V; MOD_PWROK drops and every rail switches off. -/
  | vinLoss
  /-- R481. Input current above 300 A opens the breaker within 2 µs until the input has been below 5 V for 1 s. -/
  | inputOvercurrent
  /-- R482. An overcurrent on a polder group opens its switch, treated as a power cycle of that polder. -/
  | railFault (p : Pid)
  /-- R482. A fault on the keeper rail group deasserts MOD_PWROK and opens all polder switches. -/
  | keeperGroupFault
  /-- R483. A write of PWR_CTRL.POLDER_OFF opens a polder's switch and leaves it FAILED. -/
  | polderOff (p : Pid) (w : Who)
  /-- R483. A write of PWR_CTRL.POLDER_ON switches an off polder on and runs recovery from phase B. -/
  | polderOn (p : Pid) (w : Who)
  /-- R485. MOD_RESET_N low for 10 µs opens every polder switch, resets the keeper and discards configuration images. -/
  | modResetAssert
  /-- R484. MOD_RESET_N rises; the fuse map is sensed and the boot ROM starts a verified slot. -/
  | modResetRelease
  /-- R484. Varore switches on polder groups in turn, 10 ms apart, each running recovery phases C to G. -/
  | polderPowerOnSequence (p : Pid)
  /-- R486. PERST# low on an endpoint port resets that port; its tier-3 requests complete with RESET_ABORT. -/
  | perstAssert (port : Fin 2)
  /-- R484. PERST# rises and the endpoint port trains and serves configuration requests. -/
  | perstRelease (port : Fin 2)
  /-- R510. A W1C write to EVENT clears bits, losing to a same-cycle set. -/
  | eventW1c (a : PageAddr) (w : Who) (v : W32)
  /-- R512. A write of EVENT_FORCE sets event bits and counts them without any action of the event. -/
  | eventForce (a : PageAddr) (w : Who) (v : W32)
  /-- R518. A read of an RC register returns the value and clears it for every requester. -/
  | rcRegisterRead (a : PageAddr) (w : Who)
  /-- R509. A read of ERR_CODE captures ERR_ADDR_LO and ERR_ADDR_HI until ERR_ADDR_HI is read. -/
  | errCodeRead (a : PageAddr) (w : Who)
  /-- R516. A write to the low register of a pair is held until the high register is written, then both take effect. -/
  | loHiPairWrite (a : RegAddr) (w : Who) (lo : W32) (hi : W32)
  /-- R8. A write to a register with no row of its own, applied under its access code. -/
  | registerWrite (a : PageAddr) (w : Who) (v : W32)
  /-- R27. An instruction waiting in the one-entry queue of the vector or memory unit begins executing when the unit's current instruction completes. -/
  | unitQueueStart (c : CellId) (u : UnitId)
  /-- R66. A host or debug access through BAR2 reaches a cell's scratchpad or accumulator over SERVICE, setting valid bits on write and replaying or returning DATA_UNCORRECTABLE on a failed read. -/
  | bar2Access (c : CellId) (w : Who) (addr : BitVec 17) (v : Option W32)
  /-- R288. A port that has not gained FEC and alignment lock within the 10 ms ALIGN bound fails and restarts bring-up at LANE_CHECK. -/
  | alignTimeout (p : Pid) (port : Fin 8)
  deriving DecidableEq, Repr

end Sys2Proof
end

