-- ==== Sys2Proof/Decode.lean ====
section
/-! DEFINITION. Reading a command from a word of the table. The opcode table of this hardware gives no row any
bits: a command is an operation or an event, not an encoded word, so no word spells one. Readings and choices:
log 1. Readings and choices: log 1. -/

namespace Sys2Proof

/-- The command a word spells by the table's bits: none, since no row of the table has bits. -/
def decodeTableWord (_nbits _w : Nat) : Option Instr := none

end Sys2Proof
end

