-- ==== Sys2Proof/Machine/Aes.lean ====
section
/-! DEFINITION. AES-128 (FIPS 197), the random engines' cipher (R87, R88). Readings and choices: log 51. -/

namespace Sys2Proof.Machine

/-- The S-box, entry k in bits [8k+7:8k]. -/
def aesSboxBits : Nat := 0x16bb54b00f2d99416842e6bf0d89a18cdf2855cee9871e9b948ed9691198f8e19e1dc186b95735610ef6034866b53e708a8bbd4b1f74dde8c6b4a61c2e2578ba08ae7a65eaf4566ca94ed58d6d37c8e779e4959162acd3c25c2406490a3a32e0db0b5ede14b8ee4688902a22dc4f816073195d643d7ea7c41744975fec130ccdd2f3ff1021dab6bcf5389d928f40a351a89f3c507f02f94585334d43fbaaefd0cf584c4a39becb6a5bb1fc20ed00d153842fe329b3d63b52a05a6e1b1a2c830975b227ebe28012079a059618c323c7041531d871f1e5a534ccf73f362693fdb7c072a49cafa2d4adf04759fa7dc982ca76abd7fe2b670130c56f6bf27b777c63

/-- One S-box entry. -/
def aesSub (b : Nat) : Nat := aesSboxBits / 2 ^ (8 * b) % 256

/-- Multiplication by x in the AES field. -/
def aesXtime (b : Nat) : Nat := ((2 * b) ^^^ (if 128 ≤ b then 0x1B else 0)) % 256

/-- Byte i of a list of 16. -/
def aesAt (s : List Nat) (i : Nat) : Nat := s.getD i 0

/-- SubBytes and ShiftRows on 16 bytes in column order. -/
def aesSubShift (s : List Nat) : List Nat :=
  (List.range 16).map fun i => aesSub (aesAt s ((i + 4 * (i % 4)) % 16))

/-- MixColumns. -/
def aesMix (s : List Nat) : List Nat :=
  (List.range 16).map fun i =>
    let c := 4 * (i / 4)
    let at' := fun k => aesAt s (c + (i % 4 + k) % 4)
    aesXtime (at' 0) ^^^ aesXtime (at' 1) ^^^ at' 1 ^^^ at' 2 ^^^ at' 3

/-- AddRoundKey. -/
def aesXor (s k : List Nat) : List Nat := List.zipWith (fun a b => a ^^^ b) s k

/-- The next round key with its round constant. -/
def aesNextKey (k : List Nat) (rc : Nat) : List Nat :=
  let t0 := (List.range 4).map fun i => aesSub (aesAt k (12 + (i + 1) % 4)) ^^^ (if i = 0 then rc else 0)
  let w0 := aesXor t0 (k.take 4)
  let w1 := aesXor w0 ((k.drop 4).take 4)
  let w2 := aesXor w1 ((k.drop 8).take 4)
  w0 ++ w1 ++ w2 ++ aesXor w2 (k.drop 12)

/-- `n` full rounds and the last one. -/
def aesRounds : Nat → Nat → List Nat → List Nat → List Nat
  | 0, rc, k, s => aesXor (aesSubShift s) (aesNextKey k rc)
  | n + 1, rc, k, s =>
    let k' := aesNextKey k rc
    aesRounds n (aesXtime rc) k' (aesXor (aesMix (aesSubShift s)) k')

/-- AES-128 of 16 bytes under 16 key bytes. -/
def aes128 (key block : List Nat) : List Nat := aesRounds 9 1 key (aesXor block key)

/-- The 16 bytes of a 128-bit block, most significant first (R88). -/
def aesBytesBE (b : BitVec 128) : List Nat :=
  (List.range 16).map fun i => bitsN b (8 * (15 - i)) 8

/-- The engine's 16 output bytes for a stream, a step and an element index (R88).
`key` holds key byte k in bits [8k+7:8k] (R91). -/
def randomBlock (key : BitVec 128) (stream step : W32) (index : W64) : List Nat :=
  aes128 ((List.range 16).map fun i => bitsN key (8 * i) 8) (aesBytesBE (stream ++ step ++ index))

/-- The 16-bit random value of element e (R88). -/
def randomElem (blk : List Nat) (e : Nat) : Nat := aesAt blk (2 * e) + 256 * aesAt blk (2 * e + 1)

end Sys2Proof.Machine
end

