-- ==== Sys2Proof/Machine/Numerics.lean ====
section
/-! DEFINITION. Number formats, exact arithmetic, rounding and conversion (R67 to R77, R89).
A number is decoded to an exact dyadic value, computed on exactly, and rounded once. -/

namespace Sys2Proof.Machine

/-- An exact value: a NaN, an infinity, or `(-1)^neg * m * 2^e`. -/
inductive Num where
  | nan
  | inf (neg : Bool)
  | fin (neg : Bool) (m : Nat) (e : Int)
  deriving DecidableEq, Repr

/-- The floating-point formats of R67; `fp64` only for the Pumps' sums (R267). -/
inductive Fmt where
  | fp32 | bf16 | fp16 | e4m3 | e5m2 | e2m1 | fp64
  deriving DecidableEq, Repr

/-- Rounding of a conversion (R75); `sr r` carries the element's 16-bit random value (R89). -/
inductive Rnd where
  | rne
  | rtz
  | sr (r : Nat)
  deriving DecidableEq, Repr

/-- Exponent bits (R67). -/
def Fmt.eb : Fmt → Nat
  | .fp32 => 8 | .bf16 => 8 | .fp16 => 5 | .e4m3 => 4 | .e5m2 => 5 | .e2m1 => 2 | .fp64 => 11

/-- Mantissa bits (R67). -/
def Fmt.mb : Fmt → Nat
  | .fp32 => 23 | .bf16 => 7 | .fp16 => 10 | .e4m3 => 3 | .e5m2 => 2 | .e2m1 => 1 | .fp64 => 52

/-- Exponent bias (R67). -/
def Fmt.bias : Fmt → Nat
  | .fp32 => 127 | .bf16 => 127 | .fp16 => 15 | .e4m3 => 7 | .e5m2 => 15 | .e2m1 => 1 | .fp64 => 1023

/-- Storage bits. -/
def Fmt.width (f : Fmt) : Nat := 1 + f.eb + f.mb

/-- Storage bytes of a format that fills bytes. -/
def Fmt.bytes (f : Fmt) : Nat := f.width / 8

/-- The code of the largest finite magnitude (R67). -/
def Fmt.maxCode : Fmt → Nat
  | .fp32 => 0x7F7FFFFF | .bf16 => 0x7F7F | .fp16 => 0x7BFF | .e4m3 => 0x7E | .e5m2 => 0x7B
  | .e2m1 => 0x7 | .fp64 => 0x7FEFFFFFFFFFFFFF

/-- The code of positive infinity, where the format has one (R67). -/
def Fmt.infCode : Fmt → Option Nat
  | .fp32 => some 0x7F800000 | .bf16 => some 0x7F80 | .fp16 => some 0x7C00 | .e5m2 => some 0x7C
  | .fp64 => some 0x7FF0000000000000 | .e4m3 => none | .e2m1 => none

/-- The NaN the module produces (R69); an E2M1 element has none, its block's scale says it. -/
def Fmt.nanCode : Fmt → Nat
  | .fp32 => 0x7FC00000 | .bf16 => 0x7FC0 | .fp16 => 0x7E00 | .e4m3 => 0x7F | .e5m2 => 0x7E
  | .e2m1 => 0 | .fp64 => 0x7FF8000000000000

/-- The exponent of the smallest subnormal unit. -/
def Fmt.qmin (f : Fmt) : Int := 1 - (f.bias : Int) - f.mb

/-- The value a code stands for (R67, R70). -/
def Fmt.decode (f : Fmt) (c : Nat) : Num :=
  let neg := c / 2 ^ (f.eb + f.mb) % 2 == 1
  let ex := c / 2 ^ f.mb % 2 ^ f.eb
  let ma := c % 2 ^ f.mb
  let mag := c % 2 ^ (f.eb + f.mb)
  if f.infCode = some mag then .inf neg
  else if f.maxCode < mag then .nan
  else if ex = 0 then .fin neg ma f.qmin
  else .fin neg (2 ^ f.mb + ma) (f.qmin + (ex : Int) - 1)

/-- Whether the part below the unit in the last place rounds the magnitude up (R75, R89):
`rem` of `2 ^ sh` is that part, `odd` says the kept mantissa is odd. -/
def roundsUp (rnd : Rnd) (odd : Bool) (rem sh : Nat) : Bool :=
  match rnd with
  | .rtz => false
  | .rne => 2 ^ sh < 2 * rem || (2 * rem == 2 ^ sh && odd)
  | .sr r => r < rem * 65536 / 2 ^ sh

/-- The code of the magnitude `m * 2^e` rounded once; above `maxCode` when too large (R75). -/
def Fmt.roundMag (f : Fmt) (rnd : Rnd) (m : Nat) (e : Int) : Nat :=
  if m = 0 then 0 else
    let q := max ((Nat.log2 m : Int) + e - f.mb) f.qmin
    let i :=
      if q ≤ e then m * 2 ^ (e - q).toNat
      else
        let sh := (q - e).toNat
        let k := m / 2 ^ sh
        if roundsUp rnd (k % 2 == 1) (m % 2 ^ sh) sh then k + 1 else k
    (q - f.qmin).toNat * 2 ^ f.mb + i

/-- The sign bit of a format. -/
def Fmt.sign (f : Fmt) (neg : Bool) : Nat := if neg then 2 ^ (f.eb + f.mb) else 0

/-- What a result too large becomes (R75). -/
def Fmt.tooLarge (f : Fmt) (rnd : Rnd) : Nat :=
  match f, rnd with
  | .fp32, .rtz | .bf16, .rtz | .fp16, .rtz | .fp64, .rtz => f.maxCode
  | .fp32, _ | .bf16, _ | .fp16, _ | .fp64, _ => f.infCode.getD f.maxCode
  | _, _ => f.maxCode

/-- Conversion of an exact value into a format, rounded once (R74, R75). -/
def Fmt.encode (f : Fmt) (rnd : Rnd) : Num → Nat
  | .nan => f.nanCode
  | .inf neg =>
    match f.infCode with
    | some c => f.sign neg + c
    | none => f.nanCode
  | .fin neg m e =>
    let c := f.roundMag rnd m e
    f.sign neg + (if f.maxCode < c then f.tooLarge rnd else c)

/-- A NaN or an infinity in a format (R60). -/
def Fmt.nonfinite (f : Fmt) (c : Nat) : Bool :=
  match f.decode c with
  | .nan => true
  | .inf _ => true
  | .fin _ _ _ => false

/-- Negation of an exact value. -/
def Num.neg : Num → Num
  | .nan => .nan
  | .inf n => .inf (!n)
  | .fin n m e => .fin (!n) m e

/-- The exact sum of two finite magnitudes with signs; an exact zero is -0 only from two -0 (R72). -/
def finAdd (n1 : Bool) (m1 : Nat) (e1 : Int) (n2 : Bool) (m2 : Nat) (e2 : Int) : Num :=
  let e := min e1 e2
  let a := m1 * 2 ^ (e1 - e).toNat
  let b := m2 * 2 ^ (e2 - e).toNat
  if n1 == n2 then .fin n1 (a + b) e
  else if a = b then .fin false 0 0
  else if b < a then .fin n1 (a - b) e
  else .fin n2 (b - a) e

/-- Exact addition (R72). -/
def Num.add : Num → Num → Num
  | .nan, _ => .nan
  | _, .nan => .nan
  | .inf a, .inf b => if a == b then .inf a else .nan
  | .inf a, .fin _ _ _ => .inf a
  | .fin _ _ _, .inf b => .inf b
  | .fin n1 m1 e1, .fin n2 m2 e2 => finAdd n1 m1 e1 n2 m2 e2

/-- Exact multiplication; infinity times zero is a NaN (IEEE 754, R73). -/
def Num.mul : Num → Num → Num
  | .nan, _ => .nan
  | _, .nan => .nan
  | .inf a, .inf b => .inf (a != b)
  | .inf a, .fin n m _ => if m = 0 then .nan else .inf (a != n)
  | .fin n m _, .inf b => if m = 0 then .nan else .inf (n != b)
  | .fin n1 m1 e1, .fin n2 m2 e2 => .fin (n1 != n2) (m1 * m2) (e1 + e2)

/-- Multiplication by a power of two (R82). -/
def Num.scale (t : Int) : Num → Num
  | .nan => .nan
  | .inf n => .inf n
  | .fin n m e => .fin n m (e + t)

/-- Absolute value. -/
def Num.abs : Num → Num
  | .nan => .nan
  | .inf _ => .inf false
  | .fin _ m e => .fin false m e

def Num.isNan : Num → Bool
  | .nan => true
  | _ => false

def Num.isZero : Num → Bool
  | .fin _ m _ => m == 0
  | _ => false

def Num.isFinite : Num → Bool
  | .fin _ _ _ => true
  | _ => false

/-- Strict order of two values, -0 below +0 (R73: VMAX treats +0 as greater than -0). -/
def Num.lt : Num → Num → Bool
  | .nan, _ => false
  | _, .nan => false
  | .inf a, .inf b => a && !b
  | .inf a, .fin _ _ _ => a
  | .fin _ _ _, .inf b => !b
  | .fin n1 m1 e1, .fin n2 m2 e2 =>
    let e := min e1 e2
    let a := m1 * 2 ^ (e1 - e).toNat
    let b := m2 * 2 ^ (e2 - e).toNat
    if a = 0 && b = 0 then n1 && !n2
    else if n1 && !n2 then true
    else if !n1 && n2 then false
    else if n1 then decide (b < a) else decide (a < b)

/-- floor of a finite value; sign and exact (R47). -/
def Num.floor : Num → Int
  | .fin neg m e =>
    let v : Int := if neg then -(m : Int) else m
    if 0 ≤ e then v * (2 ^ e.toNat : Nat) else v / (2 ^ (-e).toNat : Nat)
  | _ => 0

/-- floor(log2 v) of a positive finite value. -/
def Num.log2 : Num → Int
  | .fin _ m e => (Nat.log2 m : Int) + e
  | _ => 0

/-- A whole number. -/
def Num.ofInt (i : Int) : Num := .fin (decide (i < 0)) i.natAbs 0

/-- The value of an FP32 word. -/
def f32 (w : W32) : Num := Fmt.fp32.decode w.toNat

/-- One rounding to FP32, to nearest even (R72, R73). -/
def toF32 (x : Num) : W32 := BitVec.ofNat 32 (Fmt.fp32.encode .rne x)

def fadd (a b : W32) : W32 := toF32 ((f32 a).add (f32 b))
def fsub (a b : W32) : W32 := toF32 ((f32 a).add (f32 b).neg)
def fmul (a b : W32) : W32 := toF32 ((f32 a).mul (f32 b))
/-- `a * b + c` with one rounding (R73). -/
def ffma (a b c : W32) : W32 := toF32 (((f32 a).mul (f32 b)).add (f32 c))
/-- VMAX (R73). -/
def fmax (a b : W32) : W32 :=
  if (f32 a).isNan || (f32 b).isNan then 0x7FC00000 else if (f32 a).lt (f32 b) then b else a
/-- VMIN (R73). -/
def fmin (a b : W32) : W32 :=
  if (f32 a).isNan || (f32 b).isNan then 0x7FC00000 else if (f32 b).lt (f32 a) then b else a

/-- Division, exact enough for any one rounding: 70 bits and a sticky bit (R274, R275). -/
def Num.div : Num → Num → Num
  | .nan, _ => .nan
  | _, .nan => .nan
  | .inf _, .inf _ => .nan
  | .inf a, .fin n _ _ => .inf (a != n)
  | .fin n _ _, .inf b => .fin (n != b) 0 0
  | .fin n1 m1 e1, .fin n2 m2 e2 =>
    if m2 = 0 then (if m1 = 0 then .nan else .inf (n1 != n2))
    else
      let s := 70 + Nat.log2 m2
      let q := m1 * 2 ^ s / m2
      let r := m1 * 2 ^ s % m2
      .fin (n1 != n2) (2 * q + (if r = 0 then 0 else 1)) (e1 - e2 - s - 1)

/-- The integer square root, bit by bit from `2 ^ i`. -/
def isqrt (m : Nat) : Nat → Nat → Nat
  | 0, r => r
  | i + 1, r =>
    let t := r + 2 ^ i
    isqrt m i (if t * t ≤ m then t else r)

/-- The square root, exact enough for any one rounding (R271, R275). -/
def Num.sqrt : Num → Num
  | .nan => .nan
  | .inf n => if n then .nan else .inf false
  | .fin n m e =>
    if m = 0 then .fin n 0 0
    else if n then .nan
    else
      let (m, e) := if e % 2 = 0 then (m, e) else (2 * m, e - 1)
      let a := m * 2 ^ 140
      let r := isqrt a (Nat.log2 a / 2 + 1) 0
      .fin false (2 * r + (if r * r = a then 0 else 1)) (e / 2 - 71)

def fdiv (a b : W32) : W32 := toF32 ((f32 a).div (f32 b))
def fsqrt (a : W32) : W32 := toF32 (f32 a).sqrt

/-- The value of an FP64 word, and one rounding to FP64 (R265, R267, R280). -/
def f64 (w : BitVec 64) : Num := Fmt.fp64.decode w.toNat
def toF64 (x : Num) : BitVec 64 := BitVec.ofNat 64 (Fmt.fp64.encode .rne x)

/-- The n-th power of a finite value; anything else stays as it is. -/
def Num.pow (x : Num) (n : Nat) : Num :=
  match x with
  | .fin s m e => .fin (s && n % 2 == 1) (m ^ n) (e * n)
  | y => y

/-- A NaN or an infinity in FP32. -/
def f32Nonfinite (w : W32) : Bool := Fmt.fp32.nonfinite w.toNat

/-- The larger of two finite FP32 magnitudes; used for amax (R60). -/
def foldAmax (a w : W32) : W32 :=
  match f32 w with
  | .fin _ _ _ =>
    let m := w &&& 0x7FFFFFFF
    if a.toNat < m.toNat then m else a
  | _ => a

/-- The value of an E8M0 scale byte; 0xFF is a NaN (R67, R68). -/
def e8m0 (b : Nat) : Num := if b = 255 then .nan else .fin false 1 ((b : Int) - 127)

/-- The largest exponent E of an MX element format (R76). -/
def mxE : Fmt → Int
  | .e4m3 => 8
  | .e5m2 => 15
  | _ => 2

/-- One MX block: the scale byte and the element codes (R76). `rnds` gives each element's
rounding, `xs` the 32 values after scaling. -/
def mxBlock (ef : Fmt) (xs : List Num) (rnds : List Rnd) : Nat × List Nat :=
  if xs.any fun x => !x.isFinite then (255, xs.map fun _ => 0)
  else
    let a := xs.foldl (fun m x => if m.lt x.abs then x.abs else m) (.fin false 0 0)
    if a.isZero then (0, xs.map fun _ => 0)
    else
      let x := max (-127) (min 127 (a.log2 - mxE ef))
      ((x + 127).toNat, (xs.zip rnds).map fun p => ef.encode p.2 (p.1.scale (-x)))

end Sys2Proof.Machine
end

