-- ==== Sys2Proof/Machine/SMap.lean ====
section
/-! DEFINITION. Sparse maps: lists of (number, value) in one canonical form, keys strictly rising.
Memory, register files and every numbered set of the state are kept so, and equal maps are equal data. -/

namespace Sys2Proof

/-- A sparse map from numbers. -/
abbrev SMap (V : Type) := List (Nat × V)

namespace SMap
variable {V : Type}

/-- The value listed for `k`, if any. -/
def find? : SMap V → Nat → Option V
  | [], _ => none
  | (j, v) :: r, k => if k = j then some v else find? r k

/-- List `v` for `k`, in place. -/
def insert : SMap V → Nat → V → SMap V
  | [], k, v => [(k, v)]
  | (j, w) :: r, k, v =>
    if k < j then (k, v) :: (j, w) :: r
    else if k = j then (k, v) :: r
    else (j, w) :: insert r k v

/-- List nothing for `k`. -/
def erase : SMap V → Nat → SMap V
  | [], _ => []
  | (j, w) :: r, k => if k = j then erase r k else (j, w) :: erase r k

/-- Read `k`, where an unlisted key reads as `d k`. -/
def get (d : Nat → V) (m : SMap V) (k : Nat) : V := (find? m k).getD (d k)

/-- Write `k`; the value an unlisted key reads as is never listed. -/
def set [DecidableEq V] (d : Nat → V) (m : SMap V) (k : Nat) (v : V) : SMap V :=
  if v = d k then erase m k else insert m k v

/-- Keys strictly rising, the first above `lo`. -/
def sortedFrom : Nat → SMap V → Bool
  | _, [] => true
  | lo, (k, _) :: r => decide (lo ≤ k) && sortedFrom (k + 1) r

/-- The canonical form's order: keys strictly rising. -/
def sorted (m : SMap V) : Bool := sortedFrom 0 m

/-- The canonical form: keys strictly rising and no entry equal to what an unlisted key reads as. -/
def wf [DecidableEq V] (d : Nat → V) (m : SMap V) : Bool :=
  sorted m && m.all fun e => decide (e.2 ≠ d e.1)

/-- Every entry whose key passes. -/
def keep (f : Nat → Bool) (m : SMap V) : SMap V := m.filter fun e => f e.1

/-- Change every listed value. -/
def mapVals (f : Nat → V → V) (m : SMap V) : SMap V := m.map fun e => (e.1, f e.1 e.2)

end SMap

end Sys2Proof
end

