-- ==== Sys2Proof/Machine/CellState.lean ====
section
/-! DEFINITION. The state of one cell: everything R25 and R65 give it, what its execution units hold (R27,
R28, R58), and the field-program word's fields (R32 to R35). Readings and choices: log 7. -/

namespace Sys2Proof.Machine

/-- The opcodes of R34. -/
inductive FieldOp where
  | halt | nop | jmp | loop | brc | fence | twait | movs | add | addi | sub | mul | and | or | xor
  | shli | shri | ldi | ldhi | ld | st | copy | vclr | svrd | svwr | send | recv | swait | ssig
  | wtok | amxs | mma | azero | aacc | ascale | acvt | vadd | vsub | vmul | vfma | vmax | vmin | vscl
  | vrsum | vrmax | cvt | fload | feval | fbwd
  deriving DecidableEq, Repr

/-- The fields of one field-program word (R32). -/
structure FieldIns where
  op : FieldOp
  rd : BitVec 5
  ra : BitVec 5
  rb : BitVec 5
  rc : BitVec 5
  fmt : BitVec 4
  rnd : BitVec 2
  imm : W32
  deriving DecidableEq, Repr

/-- An issued instruction: its fields, its PC and the register values it reads at issue (R27, R28). -/
structure Issued where
  ins : FieldIns
  pc : BitVec 10
  ra : W64
  rb : W64
  rc : W64
  rd : W64
  deriving DecidableEq, Repr

/-- A function table (R46): the header's values and segment k's word, Y0 in [31:0], S in [63:32]. -/
structure FTable where
  xLo : W32
  step : W32
  invStep : W32
  lowConst : W32
  highConst : W32
  lowMode : BitVec 2
  highMode : BitVec 2
  segs : SMap W64
  deriving DecidableEq, Repr

/-- The unloaded table: zero segments, both modes CONST, zero constants (R46). -/
def FTable.unloaded : FTable := ⟨0, 0, 0, 0, 0, 1, 1, []⟩

/-- STATE of CEL_STATUS as the cell holds it (R65); HELD is read while the polder is frozen. -/
inductive CellSt where
  | idle | running | waitSem | waitTide | halted | faulted
  deriving DecidableEq, Repr

/-- An execution unit with its one-entry queue (R27): the cycle from which it is free, the queued
instruction, and a vector instruction under way that waits for a tile of a queued MMA (R45). -/
structure UnitSt where
  free : Nat
  queue : Option Issued
  wait : Option Issued
  deriving DecidableEq, Repr

/-- A SEND or RECV the port executes (R58, R525). -/
structure PortOp where
  isSend : Bool
  circ : Fin 8
  /-- local address of the next beat -/
  addr : Nat
  /-- beats still to move -/
  left : Nat
  /-- NEGINF of a SEND, ADD of a RECV -/
  flag : Bool
  /-- first cycle in which the next beat may move -/
  from_ : Nat
  /-- cycle in which the operation began (R525) -/
  began : Nat
  pc : BitVec 10
  deriving DecidableEq, Repr

/-- What the sync unit is doing (R27, R57, R60). -/
inductive SyncOp where
  | swait (sem : Fin 16) (n : Nat)
  | twait (tide : W32) (slot : Nat)
  | amxs (tensor : BitVec 16) (value : W32)
  deriving DecidableEq, Repr

/-- A SERVICE access a cell has outstanding (R56). -/
structure SvcAcc where
  /-- its place among the four, 0 to 3 -/
  place : Nat
  isRead : Bool
  target : Nat
  localAddr : Nat
  remoteAddr : Nat
  /-- length in 8-byte units -/
  len : Nat
  sem : Fin 16
  pc : BitVec 10
  /-- the completion the remote cell gave, once it is on its way back -/
  answer : Option Status
  /-- 8-byte units an SVRD brings back -/
  data : List W64
  deriving DecidableEq, Repr

/-- A gather-buffer entry: a 16-byte unit and the bytes stored to it (R52). -/
structure GatherEntry where
  unit : Nat
  bytes : List (Option Byte)
  deriving DecidableEq, Repr

/-- What holds the sequencer up beside a wait of the sync unit: a FENCE, a HALT or a STOP that is
not yet complete (R34, R528). -/
inductive Drain where
  | none | fence | halt | stop
  deriving DecidableEq, Repr

/-- One cell (R25, R65). -/
structure Cell where
  /-- common header and CEL registers that are plain stores, by page offset -/
  regs : SMap W32
  st : CellSt
  run : Bool
  shadow : Bool
  /-- polder tide of a pending start (R128, R145) -/
  startAt : Option Nat
  /-- the pending start comes from an issue, not from CEL_CTRL.RUN -/
  startIssue : Bool
  pc : BitVec 10
  /-- polder tide at which the program started (R58, R98) -/
  base : Option Nat
  g : SMap W64
  cnt : SMap (BitVec 16)
  sems : SMap Byte
  amax : SMap W32
  spad : SMap (BitVec 128)
  acc : SMap W32
  prog : SMap W64
  /-- parity mismatches: scratchpad units, 4096 + accumulator entries, 8192 + halves of program words;
  `true` also fails its replay (R53, R54) -/
  upset : SMap Bool
  tab0 : FTable
  tab1 : FTable
  gather : List GatherEntry
  mem : UnitSt
  arr : UnitSt
  vec : UnitSt
  ports : List PortOp
  portQ : Option Issued
  sync : Option SyncOp
  syncQ : Option Issued
  svc : List SvcAcc
  svcQ : Option Issued
  drain : Drain
  /-- cycle from which a register or a tile may be read (R28) -/
  regReady : SMap Nat
  tileReady : SMap Nat
  deriving DecidableEq, Repr

def UnitSt.idle : UnitSt := ⟨0, none, none⟩

/-- A cell after cell reset (R64). -/
def Cell.reset : Cell where
  regs := []
  st := .idle
  run := false
  shadow := false
  startAt := none
  startIssue := false
  pc := 0
  base := none
  g := []
  cnt := []
  sems := []
  amax := []
  spad := []
  acc := []
  prog := []
  upset := []
  tab0 := FTable.unloaded
  tab1 := FTable.unloaded
  gather := []
  mem := UnitSt.idle
  arr := UnitSt.idle
  vec := UnitSt.idle
  ports := []
  portQ := none
  sync := none
  syncQ := none
  svc := []
  svcQ := none
  drain := .none
  regReady := []
  tileReady := []

end Sys2Proof.Machine
end

