-- ==== Sys2Proof/Machine/Operands.lean ====
section
/-! DEFINITION. The field-program word: its opcodes, the fields each opcode uses, what R36 refuses, and the
operand forms of the immediate (R32 to R36). Readings and choices: log 13. -/

namespace Sys2Proof.Machine

/-- The opcode a value of OP names; every other value is reserved (R34). -/
def FieldOp.ofCode : Nat → Option FieldOp
  | 0x00 => some .halt | 0x01 => some .nop | 0x02 => some .jmp | 0x03 => some .loop
  | 0x04 => some .brc | 0x05 => some .fence | 0x06 => some .twait | 0x07 => some .movs
  | 0x08 => some .add | 0x09 => some .addi | 0x0A => some .sub | 0x0B => some .mul
  | 0x0C => some .and | 0x0D => some .or | 0x0E => some .xor | 0x0F => some .shli
  | 0x10 => some .shri | 0x11 => some .ldi | 0x12 => some .ldhi | 0x14 => some .ld
  | 0x15 => some .st | 0x16 => some .copy | 0x17 => some .vclr | 0x18 => some .svrd
  | 0x19 => some .svwr | 0x1C => some .send | 0x1D => some .recv | 0x20 => some .swait
  | 0x21 => some .ssig | 0x22 => some .wtok | 0x23 => some .amxs | 0x28 => some .mma
  | 0x29 => some .azero | 0x2A => some .aacc | 0x2B => some .ascale | 0x2C => some .acvt
  | 0x30 => some .vadd | 0x31 => some .vsub | 0x32 => some .vmul | 0x33 => some .vfma
  | 0x34 => some .vmax | 0x35 => some .vmin | 0x36 => some .vscl | 0x37 => some .vrsum
  | 0x38 => some .vrmax | 0x39 => some .cvt | 0x3A => some .fload | 0x3B => some .feval
  | 0x3C => some .fbwd | _ => none

/-- The value of OP for an opcode (R34). -/
def FieldOp.code : FieldOp → Nat
  | .halt => 0x00 | .nop => 0x01 | .jmp => 0x02 | .loop => 0x03 | .brc => 0x04 | .fence => 0x05
  | .twait => 0x06 | .movs => 0x07 | .add => 0x08 | .addi => 0x09 | .sub => 0x0A | .mul => 0x0B
  | .and => 0x0C | .or => 0x0D | .xor => 0x0E | .shli => 0x0F | .shri => 0x10 | .ldi => 0x11
  | .ldhi => 0x12 | .ld => 0x14 | .st => 0x15 | .copy => 0x16 | .vclr => 0x17 | .svrd => 0x18
  | .svwr => 0x19 | .send => 0x1C | .recv => 0x1D | .swait => 0x20 | .ssig => 0x21 | .wtok => 0x22
  | .amxs => 0x23 | .mma => 0x28 | .azero => 0x29 | .aacc => 0x2A | .ascale => 0x2B | .acvt => 0x2C
  | .vadd => 0x30 | .vsub => 0x31 | .vmul => 0x32 | .vfma => 0x33 | .vmax => 0x34 | .vmin => 0x35
  | .vscl => 0x36 | .vrsum => 0x37 | .vrmax => 0x38 | .cvt => 0x39 | .fload => 0x3A | .feval => 0x3B
  | .fbwd => 0x3C

/-- The fields of a word (R32); none for a reserved opcode. -/
def decodeField (w : W64) : Option FieldIns :=
  (FieldOp.ofCode (bitsN w 58 6)).map fun op =>
    { op := op, rd := bits w 53 5, ra := bits w 48 5, rb := bits w 43 5, rc := bits w 38 5
      fmt := bits w 34 4, rnd := bits w 32 2, imm := bits w 0 32 }

/-- The word with the given fields (R32). -/
def FieldIns.encode (i : FieldIns) : W64 :=
  BitVec.ofNat 6 i.op.code ++ i.rd ++ i.ra ++ i.rb ++ i.rc ++ i.fmt ++ i.rnd ++ i.imm

/-- The fields an opcode uses: RD, RA, RB, RC, FMT, RND and the immediate's listed bits (R34, R35).
RD of LOOP and BRC names a loop counter in its low three bits. -/
structure FieldForm where
  rd : BitVec 5
  ra : Bool
  rb : Bool
  rc : Bool
  fmt : Bool
  rnd : Bool
  imm : W32
  deriving DecidableEq, Repr

/-- The form of each opcode (R34, R35). -/
def FieldOp.form : FieldOp → FieldForm
  | .halt | .nop | .fence => ⟨0, false, false, false, false, false, 0⟩
  | .jmp => ⟨0, false, false, false, false, false, 0x000003FF⟩
  | .loop => ⟨7, true, false, false, false, false, 0xFFFF03FF⟩
  | .brc => ⟨7, false, false, false, false, false, 0x000003FF⟩
  | .twait => ⟨0, true, false, false, false, false, 0x003FFFFF⟩
  | .movs => ⟨31, false, false, false, false, false, 0x0000000F⟩
  | .add | .sub | .mul | .and | .or | .xor => ⟨31, true, true, false, false, false, 0⟩
  | .addi => ⟨31, true, false, false, false, false, 0xFFFFFFFF⟩
  | .shli | .shri => ⟨31, true, false, false, false, false, 0x0000003F⟩
  | .ldi | .ldhi => ⟨31, false, false, false, false, false, 0xFFFFFFFF⟩
  | .ld => ⟨31, true, false, false, true, false, 0xFFFFFFFF⟩
  | .st => ⟨0, true, true, false, true, false, 0xFFFFFFFF⟩
  | .copy => ⟨31, true, false, true, false, false, 0x0000FFFF⟩
  | .vclr => ⟨0, true, false, true, false, false, 0x0000FFFF⟩
  | .svrd | .svwr => ⟨31, true, false, true, false, false, 0xFFFFFFFF⟩
  | .send => ⟨0, true, false, true, false, false, 0xFFFF003F⟩
  | .recv => ⟨31, false, false, true, false, false, 0xFFFF003F⟩
  | .swait => ⟨0, false, false, false, false, false, 0x0000FFF0⟩
  | .ssig => ⟨0, false, false, false, false, false, 0xFFFFFFF8⟩
  | .wtok => ⟨0, true, false, false, false, false, 0xFFFFE000⟩
  | .amxs => ⟨0, false, false, false, false, false, 0x0600FFFF⟩
  | .mma => ⟨31, true, true, true, true, false, 0xFFF8FFFF⟩
  | .azero => ⟨0, false, false, true, false, false, 0xFC00FFFF⟩
  | .aacc => ⟨0, true, false, true, true, false, 0xFC00FFFF⟩
  | .ascale => ⟨0, false, true, true, false, false, 0xFC00FFFF⟩
  | .acvt => ⟨31, false, true, true, false, true, 0xFFFFFFFF⟩
  | .vadd | .vsub | .vmul | .vfma | .vmax | .vmin | .vscl =>
    ⟨31, true, true, true, true, false, 0x0000FFFF⟩
  | .vrsum | .vrmax => ⟨31, true, false, true, true, false, 0x0000FFFF⟩
  | .cvt => ⟨31, true, true, true, true, true, 0xFE00FFFF⟩
  | .fload => ⟨0, true, false, false, false, false, 0x01000000⟩
  | .feval => ⟨31, true, false, true, true, true, 0xFF00FFFF⟩
  | .fbwd => ⟨31, true, true, true, true, true, 0xFF00FFFF⟩

/-- Fields the opcode does not use, and unlisted immediate bits, are zero (R32, R35). -/
def FieldIns.reservedZero (i : FieldIns) : Bool :=
  let f := i.op.form
  (i.rd &&& ~~~f.rd == 0) && (f.ra || i.ra == 0) && (f.rb || i.rb == 0) && (f.rc || i.rc == 0) &&
  (f.fmt || i.fmt == 0) && (f.rnd || i.rnd == 0) && (i.imm &&& ~~~f.imm == 0)

/-- FMT values an opcode accepts (R33, R36, R37, R73). -/
def FieldIns.fmtOk (i : FieldIns) : Bool :=
  match i.op with
  | .ld | .st => i.fmt.toNat ≤ 3
  | .mma => i.fmt.toNat ≤ 6
  | .cvt => i.fmt.toNat ≤ 7
  | _ => i.fmt.toNat ≤ 4

/-- DFMT of the converting instructions (R35). -/
def FieldIns.dfmt (i : FieldIns) : Nat :=
  match i.op with
  | .acvt => bitsN i.imm 22 4
  | _ => bitsN i.imm 28 4

/-- DFMT values an opcode accepts; an MX DFMT is illegal in ACVT (R36). -/
def FieldIns.dfmtOk (i : FieldIns) : Bool :=
  match i.op with
  | .acvt => i.dfmt ≤ 4
  | .cvt | .feval | .fbwd => i.dfmt ≤ 7
  | _ => true

/-- Row, column, and the third name of an immediate that names a cell (R35). -/
def FieldIns.immRow (i : FieldIns) : Nat := bitsN i.imm 24 8
def FieldIns.immCol (i : FieldIns) : Nat := bitsN i.imm 16 8
/-- Semaphore of SWAIT, SSIG, SVRD and SVWR (R35). -/
def FieldIns.immSem (i : FieldIns) : Nat := bitsN i.imm 12 4
/-- n of SWAIT and SSIG (R35). -/
def FieldIns.immN (i : FieldIns) : Nat := bitsN i.imm 4 8

/-- What an instruction names lies where it may (R36). -/
def FieldIns.namesOk (i : FieldIns) : Bool :=
  match i.op with
  | .ssig =>
    i.immN ≠ 0 && (if i.imm.getLsbD 3 then i.immRow ≤ 63 else i.immCol ≤ 159)
  | .wtok => i.immCol ≤ 159 && bitsN i.imm 13 3 ≤ 5
  | .svrd | .svwr => i.immCol ≤ 159
  | _ => true

/-- The checks of R36 that the word alone decides. -/
def FieldIns.legal (i : FieldIns) : Bool :=
  i.reservedZero && i.fmtOk && i.dfmtOk && i.rnd != 3 && i.namesOk

/-- The immediate's count; zero takes RC[15:0] (R34). -/
def Issued.count (i : Issued) : Nat :=
  let n := match i.ins.op with
    | .send | .recv => bitsN i.ins.imm 16 12
    | .svrd | .svwr => bitsN i.ins.imm 0 12
    | _ => bitsN i.ins.imm 0 16
  if n = 0 then bitsN i.rc 0 16 else n

/-- The checks of R36 and R77 that need register values: K-blocks of an MX mode and the count of an
MX conversion are multiples of 4, and RECV with ADD does not name the scratchpad. -/
def Issued.legal (i : Issued) : Bool :=
  match i.ins.op with
  | .mma => !(i.ins.fmt.toNat == 0 || i.ins.fmt.toNat == 2) || i.count % 4 == 0
  | .cvt => !(5 ≤ i.ins.fmt.toNat || 5 ≤ i.ins.dfmt) || i.count % 4 == 0
  | .feval | .fbwd => !(5 ≤ i.ins.dfmt) || i.count % 4 == 0
  | .recv => !(i.ins.imm.getLsbD 28) || 0x10000 ≤ i.rd.toNat
  | _ => true

/-- The immediate sign-extended to 64 bits. -/
def FieldIns.simm (i : FieldIns) : W64 := i.imm.signExtend 64

/-- Access width of LD and ST in bytes (R33). -/
def FieldIns.width (i : FieldIns) : Nat := 2 ^ i.fmt.toNat

/-- Address of LD and ST (R34). -/
def Issued.memAddr (i : Issued) : Nat := (i.ra + i.ins.simm).toNat

/-- First tile of an array or accumulator instruction (R35). -/
def FieldIns.tile (i : FieldIns) : Nat := bitsN i.imm 26 6

/-- The execution unit of an opcode (R27). -/
inductive UnitKind where
  | seq | scalar | mem | array | vec | port | sync | svc
  deriving DecidableEq, Repr

/-- The unit that runs an opcode (R27). -/
def FieldOp.unit : FieldOp → UnitKind
  | .halt | .nop | .jmp | .loop | .brc | .fence => .seq
  | .movs | .add | .addi | .sub | .mul | .and | .or | .xor | .shli | .shri | .ldi | .ldhi => .scalar
  | .ld | .st | .copy | .vclr => .mem
  | .svrd | .svwr => .svc
  | .send | .recv => .port
  | .twait | .swait | .ssig | .wtok | .amxs => .sync
  | .mma => .array
  | .azero | .aacc | .ascale | .acvt | .vadd | .vsub | .vmul | .vfma | .vmax | .vmin | .vscl
  | .vrsum | .vrmax | .cvt | .fload | .feval | .fbwd => .vec

/-- Tiles an instruction reads or writes (R28, R45). -/
def Issued.tiles (i : Issued) : List Nat :=
  match i.ins.op with
  | .mma => [i.ins.tile]
  | .azero | .aacc | .ascale | .acvt => (List.range i.count).map fun k => i.ins.tile + k
  | _ => []

/-- The general register an instruction writes, if any (R28). -/
def Issued.writesReg (i : Issued) : Option Nat :=
  match i.ins.op with
  | .movs | .add | .addi | .sub | .mul | .and | .or | .xor | .shli | .shri | .ldi | .ldhi | .ld
  | .vrsum | .vrmax => if i.ins.rd = 0 then none else some i.ins.rd.toNat
  | _ => none

/-- General registers an instruction reads or writes (R28). -/
def FieldIns.regs (i : FieldIns) : List Nat :=
  let f := i.op.form
  ((if f.rd = 31 then [i.rd.toNat] else []) ++ (if f.ra then [i.ra.toNat] else []) ++
   (if f.rb then [i.rb.toNat] else []) ++ (if f.rc then [i.rc.toNat] else [])).filter (· ≠ 0)

end Sys2Proof.Machine
end

