-- ==== Sys2Proof/Machine/RegTable.lean ====
section
/-! DEFINITION. The register tables of the manual as one table: offset in the page, access, reset value,
writable bits, and the selector that chooses the entry a register addresses (chapters 02 to 22). -/

namespace Sys2Proof.Machine

/-- The block behind a page (R520), with the pages of one type that differ told apart. -/
inductive Blk where
  | wdn | gau | grd | cel | sem | int | out | pmp | hbc | lpc | spw | spwKv | htb | flp | flx0 | flx1 | flx2 | twn | inl | ucl | lne | cfgP | cfgM | kq | sec | fus | pwr | clk | thm
  deriving DecidableEq, Repr

/-- Access codes of R8. -/
inductive Acc where
  | ro | rw | rc | rws | wo | rwf
  deriving DecidableEq, Repr

/-- One register: offset, access, reset value, writable bits, selector offset (0 for none) and the
selector bits that choose the entry. -/
structure RegInfo where
  off : Nat
  acc : Acc
  reset : Nat
  mask : Nat
  sel : Nat
  smask : Nat
  deriving DecidableEq, Repr

/-- The registers of the page from 0x040 up. -/
def regsWdn : List RegInfo :=
  [⟨0x40, .rw, 0x105, 0x107, 0x0, 0x0⟩,
   ⟨0x44, .rw, 0x0, 0xff07, 0x0, 0x0⟩,
   ⟨0x48, .rw, 0x0, 0xffffffff, 0x0, 0x0⟩,
   ⟨0x4c, .ro, 0x0, 0x0, 0x0, 0x0⟩,
   ⟨0x50, .ro, 0x0, 0x0, 0x0, 0x0⟩,
   ⟨0x54, .rw, 0x1000, 0xffffffff, 0x0, 0x0⟩,
   ⟨0x58, .rw, 0x186a0, 0xffffffff, 0x0, 0x0⟩,
   ⟨0x5c, .rw, 0x7d0, 0xffffffff, 0x0, 0x0⟩,
   ⟨0x60, .ro, 0x0, 0x0, 0x0, 0x0⟩,
   ⟨0x64, .rc, 0x0, 0x0, 0x0, 0x0⟩,
   ⟨0x68, .rc, 0x0, 0x0, 0x0, 0x0⟩,
   ⟨0x6c, .rc, 0x0, 0x0, 0x0, 0x0⟩] ++
  [⟨0x70, .ro, 0x0, 0x0, 0x0, 0x0⟩,
   ⟨0x74, .ro, 0x0, 0x0, 0x0, 0x0⟩,
   ⟨0x78, .rw, 0x0, 0xffff0000, 0x0, 0x0⟩,
   ⟨0x7c, .rw, 0x0, 0xffffffff, 0x0, 0x0⟩,
   ⟨0x80, .rw, 0x2710, 0xffffffff, 0x0, 0x0⟩,
   ⟨0x84, .ro, 0x0, 0x0, 0x0, 0x0⟩,
   ⟨0x88, .rw, 0x0, 0x7, 0x0, 0x0⟩,
   ⟨0x8c, .ro, 0x0, 0x0, 0x88, 0x7⟩,
   ⟨0x90, .rw, 0x0, 0xf, 0x0, 0x0⟩,
   ⟨0x94, .rw, 0x0, 0x0, 0x90, 0xf⟩]

/-- The registers of the page from 0x040 up. -/
def regsGau : List RegInfo :=
  [⟨0x40, .rws, 0x3f, 0x3f, 0x0, 0x0⟩,
   ⟨0x44, .rws, 0x7d01800, 0xffff1f1f, 0x0, 0x0⟩,
   ⟨0x48, .rw, 0x0, 0xffff001f, 0x0, 0x0⟩,
   ⟨0x4c, .rw, 0x0, 0xfff, 0x0, 0x0⟩,
   ⟨0x50, .rws, 0xffff, 0x7fffff, 0x4c, 0xfff⟩,
   ⟨0x54, .rws, 0xffffffff, 0xffffffff, 0x4c, 0xfff⟩,
   ⟨0x58, .rw, 0x0, 0xff, 0x4c, 0xfff⟩,
   ⟨0x5c, .rw, 0x0, 0x3ff, 0x0, 0x0⟩,
   ⟨0x60, .rws, 0xffff, 0xfffcffff, 0x5c, 0x3ff⟩,
   ⟨0x64, .rws, 0x0, 0xffffffff, 0x5c, 0x3ff⟩,
   ⟨0x68, .rws, 0x1040, 0x3ffff, 0x0, 0x0⟩,
   ⟨0x6c, .rw, 0x0, 0x3f03ff, 0x0, 0x0⟩] ++
  [⟨0x70, .rws, 0xffff, 0xffff, 0x6c, 0x3ff⟩,
   ⟨0x74, .ro, 0x0, 0x0, 0x6c, 0x3f03ff⟩,
   ⟨0x78, .ro, 0x0, 0x0, 0x6c, 0x3ff⟩,
   ⟨0x7c, .rws, 0x27100032, 0xffffffff, 0x0, 0x0⟩,
   ⟨0x80, .rws, 0x14040a, 0xffffff, 0x0, 0x0⟩,
   ⟨0x84, .rws, 0x7005a64, 0x700ffff, 0x0, 0x0⟩,
   ⟨0x88, .ro, 0x0, 0x0, 0x0, 0x0⟩,
   ⟨0x8c, .rw, 0x0, 0xffffffc0, 0x0, 0x0⟩,
   ⟨0x90, .rw, 0x0, 0xffffffff, 0x0, 0x0⟩,
   ⟨0x94, .rc, 0x0, 0x0, 0x0, 0x0⟩,
   ⟨0x98, .ro, 0x0, 0x0, 0x0, 0x0⟩,
   ⟨0x9c, .rc, 0x0, 0x0, 0x0, 0x0⟩] ++
  [⟨0xa0, .rc, 0x0, 0x0, 0x0, 0x0⟩]

/-- The registers of the page from 0x040 up. -/
def regsGrd : List RegInfo :=
  [⟨0x40, .ro, 0x0, 0x0, 0x0, 0x0⟩,
   ⟨0x44, .ro, 0x0, 0x0, 0x0, 0x0⟩,
   ⟨0x48, .rw, 0x0, 0xffffffff, 0x0, 0x0⟩,
   ⟨0x4c, .rw, 0x0, 0x0, 0x0, 0x0⟩,
   ⟨0x50, .ro, 0x0, 0x0, 0x0, 0x0⟩,
   ⟨0x54, .rw, 0x0, 0x3ffffff, 0x0, 0x0⟩,
   ⟨0x58, .rw, 0x0, 0xffff, 0x0, 0x0⟩,
   ⟨0x5c, .rw, 0x0, 0x3fffff, 0x0, 0x0⟩,
   ⟨0x60, .ro, 0x7, 0x0, 0x0, 0x0⟩,
   ⟨0x64, .rc, 0x0, 0x0, 0x0, 0x0⟩,
   ⟨0x68, .rc, 0x0, 0x0, 0x0, 0x0⟩,
   ⟨0x6c, .rc, 0x0, 0x0, 0x0, 0x0⟩] ++
  [⟨0x70, .ro, 0x0, 0x0, 0x0, 0x0⟩,
   ⟨0x74, .rc, 0x0, 0x0, 0x0, 0x0⟩,
   ⟨0x78, .ro, 0x0, 0x0, 0x0, 0x0⟩,
   ⟨0x7c, .rc, 0x0, 0x0, 0x0, 0x0⟩,
   ⟨0x80, .rc, 0x0, 0x0, 0x0, 0x0⟩,
   ⟨0x84, .rw, 0x0, 0x0, 0x0, 0x0⟩,
   ⟨0x88, .ro, 0x0, 0x0, 0x0, 0x0⟩,
   ⟨0x8c, .ro, 0x0, 0x0, 0x0, 0x0⟩,
   ⟨0x90, .ro, 0x0, 0x0, 0x0, 0x0⟩,
   ⟨0xc0, .rw, 0x0, 0xffffffff, 0x0, 0x0⟩,
   ⟨0xc4, .rw, 0x0, 0xffffffff, 0x0, 0x0⟩,
   ⟨0xc8, .rw, 0x0, 0xffffffff, 0x0, 0x0⟩] ++
  [⟨0xcc, .rw, 0x0, 0xffffffff, 0x0, 0x0⟩,
   ⟨0xd0, .rw, 0x0, 0xffffffff, 0x0, 0x0⟩,
   ⟨0xd4, .rw, 0x0, 0xffffffff, 0x0, 0x0⟩,
   ⟨0xd8, .rw, 0x0, 0xffffffff, 0x0, 0x0⟩,
   ⟨0xdc, .rw, 0x0, 0xffffffff, 0x0, 0x0⟩,
   ⟨0xe0, .rw, 0x0, 0xffffffff, 0x0, 0x0⟩,
   ⟨0xe4, .rw, 0x0, 0xffffffff, 0x0, 0x0⟩,
   ⟨0xe8, .rw, 0x0, 0xffffffff, 0x0, 0x0⟩,
   ⟨0xec, .rw, 0x0, 0xffffffff, 0x0, 0x0⟩,
   ⟨0xf0, .rw, 0x0, 0xffffffff, 0x0, 0x0⟩,
   ⟨0xf4, .rw, 0x0, 0xffffffff, 0x0, 0x0⟩,
   ⟨0xf8, .rw, 0x0, 0xffffffff, 0x0, 0x0⟩] ++
  [⟨0xfc, .rw, 0x0, 0xffffffff, 0x0, 0x0⟩,
   ⟨0x100, .wo, 0x0, 0xffffffff, 0x0, 0x0⟩,
   ⟨0x104, .wo, 0x0, 0xffffffff, 0x0, 0x0⟩,
   ⟨0x108, .wo, 0x0, 0xffffffff, 0x0, 0x0⟩,
   ⟨0x10c, .wo, 0x0, 0xffffffff, 0x0, 0x0⟩,
   ⟨0x110, .rw, 0x0, 0xffffffff, 0x0, 0x0⟩,
   ⟨0x114, .rw, 0x0, 0x1, 0x0, 0x0⟩,
   ⟨0x118, .ro, 0x0, 0x0, 0x0, 0x0⟩,
   ⟨0x120, .rw, 0x0, 0xffffffc0, 0x0, 0x0⟩,
   ⟨0x124, .rw, 0x0, 0xffffffff, 0x0, 0x0⟩,
   ⟨0x128, .rw, 0x0, 0x0, 0x0, 0x0⟩,
   ⟨0x12c, .ro, 0x0, 0x0, 0x0, 0x0⟩] ++
  [⟨0x130, .ro, 0x0, 0x0, 0x0, 0x0⟩,
   ⟨0x134, .ro, 0x0, 0x0, 0x0, 0x0⟩,
   ⟨0x138, .rc, 0x0, 0x0, 0x0, 0x0⟩,
   ⟨0x13c, .rc, 0x0, 0x0, 0x0, 0x0⟩,
   ⟨0x140, .rc, 0xffffffff, 0x0, 0x0, 0x0⟩,
   ⟨0x144, .ro, 0x0, 0x0, 0x0, 0x0⟩,
   ⟨0x148, .rw, 0x0, 0xffffffff, 0x0, 0x0⟩,
   ⟨0x14c, .rw, 0x0, 0xffffffff, 0x0, 0x0⟩,
   ⟨0x150, .rw, 0x0, 0xffffffff, 0x0, 0x0⟩,
   ⟨0x154, .rw, 0x0, 0xffffffff, 0x0, 0x0⟩,
   ⟨0x158, .rw, 0x0, 0xffffffff, 0x0, 0x0⟩,
   ⟨0x15c, .rw, 0x0, 0xffffffff, 0x0, 0x0⟩] ++
  [⟨0x160, .rw, 0x0, 0xffffffff, 0x0, 0x0⟩,
   ⟨0x164, .rw, 0x0, 0xffffffff, 0x0, 0x0⟩]

/-- The registers of the page from 0x040 up. -/
def regsCel : List RegInfo :=
  [⟨0x40, .rw, 0x0, 0x3ff, 0x0, 0x0⟩,
   ⟨0x44, .ro, 0x0, 0x0, 0x0, 0x0⟩,
   ⟨0x48, .ro, 0x0, 0x0, 0x0, 0x0⟩,
   ⟨0x4c, .ro, 0x0, 0x0, 0x0, 0x0⟩,
   ⟨0x50, .rw, 0x0, 0xffffffff, 0x0, 0x0⟩,
   ⟨0x54, .rw, 0x0, 0xffffffff, 0x0, 0x0⟩,
   ⟨0x58, .rw, 0x0, 0xffffffff, 0x0, 0x0⟩,
   ⟨0x5c, .rw, 0x0, 0xffffffff, 0x0, 0x0⟩,
   ⟨0x60, .ro, 0x0, 0x0, 0x0, 0x0⟩,
   ⟨0x64, .ro, 0x0, 0x0, 0x0, 0x0⟩,
   ⟨0x68, .ro, 0x0, 0x0, 0x0, 0x0⟩,
   ⟨0x6c, .ro, 0x0, 0x0, 0x0, 0x0⟩] ++
  [⟨0x70, .ro, 0x0, 0x0, 0x0, 0x0⟩,
   ⟨0x74, .ro, 0x0, 0x0, 0x0, 0x0⟩,
   ⟨0x78, .ro, 0x0, 0x0, 0x0, 0x0⟩,
   ⟨0x7c, .ro, 0x0, 0x0, 0x0, 0x0⟩,
   ⟨0x80, .rc, 0x0, 0x0, 0x0, 0x0⟩,
   ⟨0x84, .rc, 0x0, 0x0, 0x0, 0x0⟩,
   ⟨0x88, .rc, 0x0, 0x0, 0x0, 0x0⟩,
   ⟨0x8c, .ro, 0x0, 0x0, 0x0, 0x0⟩,
   ⟨0x90, .ro, 0x0, 0x0, 0x0, 0x0⟩]

/-- The registers of the page from 0x040 up. -/
def regsSem : List RegInfo :=
  [⟨0x40, .ro, 0x0, 0x0, 0x0, 0x0⟩,
   ⟨0x44, .ro, 0x0, 0x0, 0x0, 0x0⟩,
   ⟨0x48, .rc, 0x0, 0x0, 0x0, 0x0⟩,
   ⟨0x4c, .rc, 0x0, 0x0, 0x0, 0x0⟩]

/-- The registers of the page from 0x040 up. -/
def regsInt : List RegInfo :=
  [⟨0x40, .rw, 0x0, 0xfffffe00, 0x0, 0x0⟩,
   ⟨0x44, .rw, 0x0, 0xffffffff, 0x0, 0x0⟩,
   ⟨0x48, .rw, 0x3, 0x1f, 0x0, 0x0⟩,
   ⟨0x4c, .ro, 0x0, 0x0, 0x0, 0x0⟩,
   ⟨0x50, .rw, 0x0, 0xffffffff, 0x0, 0x0⟩,
   ⟨0x54, .rw, 0x0, 0xffffffff, 0x0, 0x0⟩,
   ⟨0x58, .ro, 0x0, 0x0, 0x0, 0x0⟩,
   ⟨0x5c, .ro, 0x0, 0x0, 0x0, 0x0⟩,
   ⟨0x60, .ro, 0x40000, 0x0, 0x0, 0x0⟩,
   ⟨0x64, .ro, 0x0, 0x0, 0x0, 0x0⟩,
   ⟨0x68, .ro, 0x0, 0x0, 0x0, 0x0⟩,
   ⟨0x6c, .ro, 0x0, 0x0, 0x0, 0x0⟩] ++
  [⟨0x70, .ro, 0x0, 0x0, 0x0, 0x0⟩,
   ⟨0x74, .rc, 0x0, 0x0, 0x0, 0x0⟩,
   ⟨0x78, .rc, 0x0, 0x0, 0x0, 0x0⟩,
   ⟨0x7c, .rc, 0x0, 0x0, 0x0, 0x0⟩,
   ⟨0x80, .rc, 0x0, 0x0, 0x0, 0x0⟩,
   ⟨0x84, .rc, 0x0, 0x0, 0x0, 0x0⟩,
   ⟨0x88, .ro, 0x0, 0x0, 0x0, 0x0⟩,
   ⟨0x8c, .ro, 0x0, 0x0, 0x0, 0x0⟩,
   ⟨0x100, .rw, 0x0, 0xffffffff, 0x0, 0x0⟩,
   ⟨0x104, .rw, 0x0, 0xffffffff, 0x0, 0x0⟩,
   ⟨0x108, .rw, 0x0, 0xffffffff, 0x0, 0x0⟩,
   ⟨0x10c, .rw, 0x0, 0xffffffff, 0x0, 0x0⟩] ++
  [⟨0x110, .rw, 0x0, 0xffffffff, 0x0, 0x0⟩,
   ⟨0x114, .rw, 0x0, 0xffffffff, 0x0, 0x0⟩,
   ⟨0x118, .rw, 0x0, 0xffffffff, 0x0, 0x0⟩,
   ⟨0x11c, .rw, 0x0, 0xffffffff, 0x0, 0x0⟩,
   ⟨0x120, .rw, 0x0, 0xffffffff, 0x0, 0x0⟩,
   ⟨0x124, .rw, 0x0, 0xffffffff, 0x0, 0x0⟩,
   ⟨0x128, .rw, 0x0, 0xffffffff, 0x0, 0x0⟩,
   ⟨0x12c, .rw, 0x0, 0xffffffff, 0x0, 0x0⟩,
   ⟨0x130, .rw, 0x0, 0xffffffff, 0x0, 0x0⟩,
   ⟨0x134, .rw, 0x0, 0xffffffff, 0x0, 0x0⟩,
   ⟨0x138, .rw, 0x0, 0xffffffff, 0x0, 0x0⟩,
   ⟨0x13c, .rw, 0x0, 0xffffffff, 0x0, 0x0⟩] ++
  [⟨0x140, .rw, 0x0, 0xffffffff, 0x0, 0x0⟩,
   ⟨0x144, .rw, 0x0, 0xffffffff, 0x0, 0x0⟩,
   ⟨0x148, .rw, 0x0, 0xffffffff, 0x0, 0x0⟩,
   ⟨0x14c, .rw, 0x0, 0xffffffff, 0x0, 0x0⟩,
   ⟨0x150, .rw, 0x0, 0xffffffff, 0x0, 0x0⟩,
   ⟨0x154, .rw, 0x0, 0xffffffff, 0x0, 0x0⟩,
   ⟨0x158, .rw, 0x0, 0xffffffff, 0x0, 0x0⟩,
   ⟨0x15c, .rw, 0x0, 0xffffffff, 0x0, 0x0⟩,
   ⟨0x160, .rw, 0x0, 0xffffffff, 0x0, 0x0⟩,
   ⟨0x164, .rw, 0x0, 0xffffffff, 0x0, 0x0⟩,
   ⟨0x168, .rw, 0x0, 0xffffffff, 0x0, 0x0⟩,
   ⟨0x16c, .rw, 0x0, 0xffffffff, 0x0, 0x0⟩] ++
  [⟨0x170, .rw, 0x0, 0xffffffff, 0x0, 0x0⟩,
   ⟨0x174, .rw, 0x0, 0xffffffff, 0x0, 0x0⟩,
   ⟨0x178, .rw, 0x0, 0xffffffff, 0x0, 0x0⟩,
   ⟨0x17c, .rw, 0x0, 0xffffffff, 0x0, 0x0⟩]

/-- The registers of the page from 0x040 up. -/
def regsOut : List RegInfo :=
  [⟨0x40, .rw, 0x0, 0xfffffe00, 0x0, 0x0⟩,
   ⟨0x44, .rw, 0x0, 0xffffffff, 0x0, 0x0⟩,
   ⟨0x48, .rw, 0x3, 0x1f, 0x0, 0x0⟩,
   ⟨0x4c, .ro, 0x0, 0x0, 0x0, 0x0⟩,
   ⟨0x50, .rw, 0x0, 0xffffffff, 0x0, 0x0⟩,
   ⟨0x54, .rw, 0x0, 0xffffffff, 0x0, 0x0⟩,
   ⟨0x58, .ro, 0x0, 0x0, 0x0, 0x0⟩,
   ⟨0x5c, .ro, 0x0, 0x0, 0x0, 0x0⟩,
   ⟨0x60, .ro, 0x40000, 0x0, 0x0, 0x0⟩,
   ⟨0x64, .ro, 0x0, 0x0, 0x0, 0x0⟩,
   ⟨0x68, .ro, 0x0, 0x0, 0x0, 0x0⟩,
   ⟨0x6c, .ro, 0x0, 0x0, 0x0, 0x0⟩] ++
  [⟨0x70, .ro, 0x0, 0x0, 0x0, 0x0⟩,
   ⟨0x74, .ro, 0x0, 0x0, 0x0, 0x0⟩,
   ⟨0x78, .rc, 0x0, 0x0, 0x0, 0x0⟩,
   ⟨0x7c, .rc, 0x0, 0x0, 0x0, 0x0⟩,
   ⟨0x80, .rc, 0x0, 0x0, 0x0, 0x0⟩,
   ⟨0x84, .rc, 0x0, 0x0, 0x0, 0x0⟩,
   ⟨0x90, .rc, 0x0, 0x0, 0x0, 0x0⟩,
   ⟨0x88, .ro, 0x0, 0x0, 0x0, 0x0⟩,
   ⟨0x8c, .ro, 0x0, 0x0, 0x0, 0x0⟩]

/-- The registers of the page from 0x040 up. -/
def regsPmp : List RegInfo :=
  [⟨0x40, .rw, 0x0, 0xffffffc0, 0x0, 0x0⟩,
   ⟨0x44, .rw, 0x0, 0xffffffff, 0x0, 0x0⟩,
   ⟨0x48, .rw, 0x0, 0x0, 0x0, 0x0⟩,
   ⟨0x4c, .ro, 0x0, 0x0, 0x0, 0x0⟩,
   ⟨0x50, .ro, 0x0, 0x0, 0x0, 0x0⟩,
   ⟨0x54, .ro, 0x0, 0x0, 0x0, 0x0⟩,
   ⟨0x58, .ro, 0x0, 0x0, 0x0, 0x0⟩,
   ⟨0x5c, .ro, 0x0, 0x0, 0x0, 0x0⟩,
   ⟨0x60, .ro, 0x3f800000, 0x0, 0x0, 0x0⟩,
   ⟨0x64, .ro, 0x0, 0x0, 0x0, 0x0⟩,
   ⟨0x68, .ro, 0x0, 0x0, 0x0, 0x0⟩,
   ⟨0x6c, .ro, 0x0, 0x0, 0x0, 0x0⟩] ++
  [⟨0x70, .ro, 0x0, 0x0, 0x0, 0x0⟩,
   ⟨0x80, .rw, 0x0, 0xffffffc0, 0x0, 0x0⟩,
   ⟨0x84, .rw, 0x0, 0xffffffff, 0x0, 0x0⟩,
   ⟨0x88, .rw, 0x0, 0x0, 0x0, 0x0⟩,
   ⟨0x8c, .ro, 0x0, 0x0, 0x0, 0x0⟩,
   ⟨0x90, .ro, 0x0, 0x0, 0x0, 0x0⟩,
   ⟨0x94, .ro, 0x0, 0x0, 0x0, 0x0⟩,
   ⟨0x98, .ro, 0x0, 0x0, 0x0, 0x0⟩,
   ⟨0x9c, .ro, 0x0, 0x0, 0x0, 0x0⟩,
   ⟨0xa0, .ro, 0x3f800000, 0x0, 0x0, 0x0⟩,
   ⟨0xa4, .ro, 0x0, 0x0, 0x0, 0x0⟩,
   ⟨0xa8, .ro, 0x0, 0x0, 0x0, 0x0⟩] ++
  [⟨0xac, .ro, 0x0, 0x0, 0x0, 0x0⟩,
   ⟨0xb0, .ro, 0x0, 0x0, 0x0, 0x0⟩,
   ⟨0xc0, .rw, 0x0, 0xffffffc0, 0x0, 0x0⟩,
   ⟨0xc4, .rw, 0x0, 0xffffffff, 0x0, 0x0⟩,
   ⟨0xc8, .rw, 0x0, 0x0, 0x0, 0x0⟩,
   ⟨0xcc, .ro, 0x0, 0x0, 0x0, 0x0⟩,
   ⟨0xd0, .ro, 0x0, 0x0, 0x0, 0x0⟩,
   ⟨0xd4, .ro, 0x0, 0x0, 0x0, 0x0⟩,
   ⟨0xd8, .ro, 0x0, 0x0, 0x0, 0x0⟩,
   ⟨0xdc, .ro, 0x0, 0x0, 0x0, 0x0⟩,
   ⟨0xe0, .ro, 0x3f800000, 0x0, 0x0, 0x0⟩,
   ⟨0xe4, .ro, 0x0, 0x0, 0x0, 0x0⟩] ++
  [⟨0xe8, .ro, 0x0, 0x0, 0x0, 0x0⟩,
   ⟨0xec, .ro, 0x0, 0x0, 0x0, 0x0⟩,
   ⟨0xf0, .ro, 0x0, 0x0, 0x0, 0x0⟩,
   ⟨0x100, .rw, 0x0, 0xffffffc0, 0x0, 0x0⟩,
   ⟨0x104, .rw, 0x0, 0xffffffff, 0x0, 0x0⟩,
   ⟨0x108, .rw, 0x0, 0x0, 0x0, 0x0⟩,
   ⟨0x10c, .ro, 0x0, 0x0, 0x0, 0x0⟩,
   ⟨0x110, .ro, 0x0, 0x0, 0x0, 0x0⟩,
   ⟨0x114, .ro, 0x0, 0x0, 0x0, 0x0⟩,
   ⟨0x118, .ro, 0x0, 0x0, 0x0, 0x0⟩,
   ⟨0x11c, .ro, 0x0, 0x0, 0x0, 0x0⟩,
   ⟨0x120, .ro, 0x3f800000, 0x0, 0x0, 0x0⟩] ++
  [⟨0x124, .ro, 0x0, 0x0, 0x0, 0x0⟩,
   ⟨0x128, .ro, 0x0, 0x0, 0x0, 0x0⟩,
   ⟨0x12c, .ro, 0x0, 0x0, 0x0, 0x0⟩,
   ⟨0x130, .ro, 0x0, 0x0, 0x0, 0x0⟩,
   ⟨0x140, .rw, 0x3e8, 0xffffffff, 0x0, 0x0⟩,
   ⟨0x144, .rw, 0x10, 0xffffffff, 0x0, 0x0⟩,
   ⟨0x148, .rc, 0x0, 0x0, 0x0, 0x0⟩,
   ⟨0x14c, .rc, 0x0, 0x0, 0x0, 0x0⟩,
   ⟨0x150, .rc, 0x0, 0x0, 0x0, 0x0⟩,
   ⟨0x154, .rc, 0x0, 0x0, 0x0, 0x0⟩,
   ⟨0x160, .rc, 0x0, 0x0, 0x0, 0x0⟩,
   ⟨0x164, .rc, 0x0, 0x0, 0x0, 0x0⟩] ++
  [⟨0x158, .rw, 0x0, 0xf, 0x0, 0x0⟩,
   ⟨0x15c, .ro, 0x0, 0x0, 0x158, 0xf⟩]

/-- The registers of the page from 0x040 up. -/
def regsHbc : List RegInfo :=
  [⟨0x40, .rw, 0x0, 0x3f, 0x0, 0x0⟩,
   ⟨0x44, .rw, 0x0, 0xffff, 0x40, 0x3f⟩,
   ⟨0x48, .ro, 0x4, 0x0, 0x0, 0x0⟩,
   ⟨0x4c, .ro, 0x0, 0x0, 0x0, 0x0⟩,
   ⟨0x50, .rc, 0x0, 0x0, 0x0, 0x0⟩,
   ⟨0x54, .rc, 0x0, 0x0, 0x0, 0x0⟩,
   ⟨0x58, .rc, 0x0, 0x0, 0x0, 0x0⟩,
   ⟨0x5c, .ro, 0x0, 0x0, 0x0, 0x0⟩,
   ⟨0x60, .ro, 0x0, 0x0, 0x0, 0x0⟩]

/-- The registers of the page from 0x040 up. -/
def regsLpc : List RegInfo :=
  [⟨0x50, .rc, 0x0, 0x0, 0x0, 0x0⟩,
   ⟨0x54, .rc, 0x0, 0x0, 0x0, 0x0⟩,
   ⟨0x58, .rc, 0x0, 0x0, 0x0, 0x0⟩]

/-- The registers of the page from 0x040 up. -/
def regsSpw : List RegInfo :=
  [⟨0x40, .rw, 0x0, 0xff, 0x0, 0x0⟩,
   ⟨0x44, .rws, 0x0, 0xffffffff, 0x40, 0xff⟩,
   ⟨0x48, .rws, 0x0, 0xffffffff, 0x40, 0xff⟩,
   ⟨0x4c, .rws, 0x0, 0xffffffff, 0x40, 0xff⟩,
   ⟨0x50, .rws, 0x0, 0xffffffff, 0x40, 0xff⟩,
   ⟨0x54, .rws, 0x0, 0xffffffff, 0x40, 0xff⟩,
   ⟨0x58, .rws, 0x0, 0xffffffff, 0x40, 0xff⟩,
   ⟨0x5c, .rws, 0x0, 0xffffffff, 0x40, 0xff⟩,
   ⟨0x60, .rws, 0x0, 0xffffffff, 0x40, 0xff⟩,
   ⟨0x64, .rw, 0x100, 0x30f, 0x0, 0x0⟩,
   ⟨0x68, .rws, 0xffff, 0xffff, 0x64, 0xf⟩,
   ⟨0x6c, .rws, 0x0, 0xffffffff, 0x64, 0x30f⟩] ++
  [⟨0x70, .rws, 0x0, 0xffffffff, 0x64, 0x30f⟩,
   ⟨0x74, .rws, 0x0, 0x1ff01ff, 0x64, 0x30f⟩,
   ⟨0x78, .ro, 0x0, 0x0, 0x64, 0x30f⟩,
   ⟨0x7c, .rc, 0x0, 0x0, 0x64, 0x30f⟩,
   ⟨0x80, .rc, 0x0, 0x0, 0x64, 0x30f⟩,
   ⟨0x84, .rc, 0x0, 0x0, 0x64, 0x30f⟩,
   ⟨0x88, .ro, 0x1f00ff, 0x0, 0x0, 0x0⟩,
   ⟨0x8c, .rw, 0x0, 0xfffff800, 0x0, 0x0⟩,
   ⟨0x90, .rw, 0x0, 0xffffffff, 0x0, 0x0⟩,
   ⟨0x94, .rw, 0x0, 0xffffffff, 0x0, 0x0⟩,
   ⟨0x98, .rw, 0x0, 0xc, 0x0, 0x0⟩,
   ⟨0x9c, .ro, 0x0, 0x0, 0x0, 0x0⟩] ++
  [⟨0xa0, .ro, 0x0, 0x0, 0x0, 0x0⟩,
   ⟨0xa4, .rc, 0x0, 0x0, 0x0, 0x0⟩]

/-- The registers of the page from 0x040 up. -/
def regsSpwKv : List RegInfo :=
  [⟨0x40, .rw, 0x0, 0xffffffff, 0x0, 0x0⟩,
   ⟨0x44, .rw, 0x0, 0xffffffff, 0x0, 0x0⟩,
   ⟨0x48, .rw, 0x0, 0xffffffff, 0x0, 0x0⟩,
   ⟨0x4c, .rw, 0x0, 0xffffffff, 0x0, 0x0⟩,
   ⟨0x50, .rw, 0x0, 0xffffffff, 0x0, 0x0⟩,
   ⟨0x54, .rw, 0x0, 0xffffffff, 0x0, 0x0⟩,
   ⟨0x58, .rw, 0x0, 0xffffffff, 0x0, 0x0⟩,
   ⟨0x5c, .rw, 0x0, 0xffffffff, 0x0, 0x0⟩,
   ⟨0x60, .rw, 0x0, 0x0, 0x0, 0x0⟩,
   ⟨0x64, .ro, 0x0, 0x0, 0x0, 0x0⟩,
   ⟨0x68, .ro, 0x0, 0x0, 0x0, 0x0⟩,
   ⟨0x6c, .rw, 0x0, 0xffffffc0, 0x0, 0x0⟩] ++
  [⟨0x70, .rw, 0x0, 0xffffffff, 0x0, 0x0⟩,
   ⟨0x74, .rw, 0x0, 0xffffff, 0x0, 0x0⟩,
   ⟨0x78, .ro, 0x0, 0x0, 0x0, 0x0⟩,
   ⟨0x7c, .ro, 0x0, 0x0, 0x0, 0x0⟩,
   ⟨0x80, .rc, 0x0, 0x0, 0x0, 0x0⟩,
   ⟨0x84, .rc, 0x0, 0x0, 0x0, 0x0⟩,
   ⟨0x88, .rc, 0x0, 0x0, 0x0, 0x0⟩,
   ⟨0x8c, .rc, 0x0, 0x0, 0x0, 0x0⟩,
   ⟨0x90, .rw, 0x100, 0xffffffff, 0x0, 0x0⟩,
   ⟨0x94, .rw, 0x2, 0x3, 0x0, 0x0⟩]

/-- The registers of the page from 0x040 up. -/
def regsHtb : List RegInfo :=
  [⟨0x40, .rw, 0x0, 0x3f, 0x0, 0x0⟩,
   ⟨0x44, .rw, 0x0, 0xfffff001, 0x40, 0x3f⟩,
   ⟨0x48, .rw, 0x0, 0xffffffff, 0x40, 0x3f⟩,
   ⟨0x4c, .rc, 0x0, 0x0, 0x0, 0x0⟩,
   ⟨0x50, .rw, 0x0, 0x3f, 0x0, 0x0⟩,
   ⟨0x54, .rw, 0x0, 0x3ff003, 0x50, 0x3f⟩,
   ⟨0x58, .rc, 0x0, 0x0, 0x0, 0x0⟩]

/-- The registers of the page from 0x040 up. -/
def regsFlp : List RegInfo :=
  [⟨0x40, .ro, 0x0, 0x0, 0x0, 0x0⟩,
   ⟨0x44, .ro, 0x0, 0x0, 0x0, 0x0⟩,
   ⟨0x48, .ro, 0x0, 0x0, 0x0, 0x0⟩,
   ⟨0x4c, .ro, 0x0, 0x0, 0x0, 0x0⟩,
   ⟨0x50, .ro, 0x0, 0x0, 0x0, 0x0⟩,
   ⟨0x54, .rc, 0x0, 0x0, 0x0, 0x0⟩,
   ⟨0x58, .rc, 0x0, 0x0, 0x0, 0x0⟩,
   ⟨0x5c, .rc, 0x0, 0x0, 0x0, 0x0⟩,
   ⟨0x60, .rc, 0x0, 0x0, 0x0, 0x0⟩,
   ⟨0x64, .rc, 0x0, 0x0, 0x0, 0x0⟩,
   ⟨0x6c, .rc, 0x0, 0x0, 0x0, 0x0⟩,
   ⟨0x70, .rc, 0x0, 0x0, 0x0, 0x0⟩] ++
  [⟨0x68, .ro, 0x0, 0x0, 0x0, 0x0⟩,
   ⟨0x74, .rw, 0x8, 0xf, 0x0, 0x0⟩]

/-- The registers of the page from 0x040 up. -/
def regsFlx0 : List RegInfo :=
  [⟨0x40, .rws, 0xffff, 0xffff, 0x0, 0x0⟩,
   ⟨0x44, .rw, 0x64, 0xffffffff, 0x0, 0x0⟩,
   ⟨0x48, .rw, 0x2710, 0xffffffff, 0x0, 0x0⟩,
   ⟨0x4c, .rw, 0x32, 0xffffffff, 0x0, 0x0⟩,
   ⟨0x50, .ro, 0x0, 0x0, 0x0, 0x0⟩,
   ⟨0x54, .rw, 0x0, 0xf, 0x0, 0x0⟩,
   ⟨0x58, .rws, 0xffff, 0xffff, 0x54, 0xf⟩,
   ⟨0x5c, .rws, 0x0, 0x1ff01ff, 0x54, 0xf⟩,
   ⟨0x60, .rc, 0x0, 0x0, 0x54, 0xf⟩,
   ⟨0x64, .rc, 0x0, 0x0, 0x54, 0xf⟩,
   ⟨0x68, .rc, 0x0, 0x0, 0x54, 0xf⟩,
   ⟨0x6c, .rc, 0x0, 0x0, 0x0, 0x0⟩] ++
  [⟨0x70, .rc, 0x0, 0x0, 0x0, 0x0⟩,
   ⟨0x74, .rc, 0x0, 0x0, 0x0, 0x0⟩,
   ⟨0x78, .rc, 0x0, 0x0, 0x0, 0x0⟩,
   ⟨0x7c, .rc, 0x0, 0x0, 0x0, 0x0⟩,
   ⟨0x80, .rc, 0x0, 0x0, 0x0, 0x0⟩,
   ⟨0x84, .rc, 0x0, 0x0, 0x0, 0x0⟩,
   ⟨0x88, .rc, 0x0, 0x0, 0x0, 0x0⟩,
   ⟨0x90, .ro, 0x0, 0x0, 0x0, 0x0⟩,
   ⟨0x94, .ro, 0x0, 0x0, 0x0, 0x0⟩,
   ⟨0x98, .ro, 0x0, 0x0, 0x0, 0x0⟩,
   ⟨0x9c, .ro, 0x0, 0x0, 0x0, 0x0⟩,
   ⟨0xa0, .ro, 0x0, 0x0, 0x0, 0x0⟩] ++
  [⟨0xb0, .rw, 0x0, 0xfffff, 0x0, 0x0⟩,
   ⟨0xb4, .rw, 0x0, 0xffff, 0x0, 0x0⟩,
   ⟨0xb8, .rw, 0x0, 0xffffffff, 0x0, 0x0⟩,
   ⟨0xbc, .rw, 0x0, 0xffffffff, 0x0, 0x0⟩]

/-- The registers of the page from 0x040 up. -/
def regsFlx1 : List RegInfo :=
  [⟨0x40, .rw, 0x0, 0xfff, 0x0, 0x0⟩,
   ⟨0x44, .rws, 0x0, 0xff, 0x40, 0xfff⟩,
   ⟨0x48, .rw, 0x0, 0x1f, 0x0, 0x0⟩,
   ⟨0x4c, .rws, 0x0, 0x8fff, 0x48, 0x1f⟩,
   ⟨0x50, .ro, 0x0, 0x0, 0x48, 0x1f⟩,
   ⟨0x54, .rw, 0x0, 0x1f, 0x0, 0x0⟩,
   ⟨0x58, .rws, 0x0, 0x8fff, 0x54, 0x1f⟩,
   ⟨0x5c, .rw, 0x0, 0x3f, 0x0, 0x0⟩,
   ⟨0x60, .rw, 0x0, 0xffffffff, 0x5c, 0x3f⟩,
   ⟨0x64, .rw, 0x0, 0xffffffff, 0x5c, 0x3f⟩,
   ⟨0x68, .rw, 0x0, 0x7fffffff, 0x5c, 0x3f⟩,
   ⟨0x6c, .rw, 0x0, 0x0, 0x0, 0x0⟩] ++
  [⟨0x70, .ro, 0x0, 0x0, 0x5c, 0x3f⟩]

/-- The registers of the page from 0x040 up. -/
def regsFlx2 : List RegInfo :=
  [⟨0x40, .rw, 0x0, 0x7, 0x0, 0x0⟩,
   ⟨0x44, .rw, 0x0, 0xffffffc0, 0x40, 0x7⟩,
   ⟨0x48, .rw, 0x0, 0xffffffff, 0x40, 0x7⟩,
   ⟨0x4c, .rw, 0x0, 0x0, 0x40, 0x7⟩,
   ⟨0x50, .ro, 0x0, 0x0, 0x40, 0x7⟩,
   ⟨0x54, .ro, 0x0, 0x0, 0x40, 0x7⟩,
   ⟨0x58, .ro, 0x20000000, 0x0, 0x40, 0x7⟩,
   ⟨0x5c, .rws, 0x2000, 0x3fff, 0x0, 0x0⟩,
   ⟨0x60, .rc, 0x0, 0x0, 0x0, 0x0⟩,
   ⟨0x64, .rc, 0x0, 0x0, 0x0, 0x0⟩,
   ⟨0x68, .rw, 0x0, 0x3f, 0x0, 0x0⟩,
   ⟨0x6c, .rws, 0x0, 0xf, 0x68, 0x3f⟩]

/-- The registers of the page from 0x040 up. -/
def regsTwn : List RegInfo :=
  [⟨0x40, .ro, 0x0, 0x0, 0x0, 0x0⟩,
   ⟨0x44, .rw, 0x0, 0xffffffc0, 0x0, 0x0⟩,
   ⟨0x48, .rw, 0x0, 0xffffffff, 0x0, 0x0⟩,
   ⟨0x4c, .rw, 0x6, 0x1f, 0x0, 0x0⟩,
   ⟨0x50, .ro, 0x0, 0x0, 0x0, 0x0⟩,
   ⟨0x54, .ro, 0x0, 0x0, 0x0, 0x0⟩,
   ⟨0x58, .ro, 0x0, 0x0, 0x0, 0x0⟩,
   ⟨0x5c, .rw, 0x0, 0xffffffff, 0x0, 0x0⟩,
   ⟨0x60, .rw, 0x0, 0xffffffff, 0x0, 0x0⟩,
   ⟨0x64, .rw, 0x0, 0xffffffff, 0x0, 0x0⟩,
   ⟨0x68, .rw, 0x0, 0xffffffff, 0x0, 0x0⟩,
   ⟨0x6c, .rw, 0x0, 0xffffffff, 0x0, 0x0⟩] ++
  [⟨0x70, .rw, 0x0, 0xffffffff, 0x0, 0x0⟩,
   ⟨0x74, .ro, 0x0, 0x0, 0x0, 0x0⟩,
   ⟨0x80, .rw, 0x0, 0xffffffc0, 0x0, 0x0⟩,
   ⟨0x84, .rw, 0x0, 0xffffffff, 0x0, 0x0⟩,
   ⟨0x88, .rw, 0x0, 0xffffffc0, 0x0, 0x0⟩,
   ⟨0x8c, .rw, 0x0, 0xffffffff, 0x0, 0x0⟩,
   ⟨0x90, .rw, 0x0, 0xffffffff, 0x0, 0x0⟩,
   ⟨0x94, .rw, 0x100, 0xff0c, 0x0, 0x0⟩,
   ⟨0x98, .ro, 0x0, 0x0, 0x0, 0x0⟩,
   ⟨0xa0, .rw, 0x0, 0xff, 0x0, 0x0⟩,
   ⟨0xa4, .rws, 0x0, 0x1fff, 0xa0, 0xf⟩,
   ⟨0xa8, .rws, 0x0, 0x8fff, 0xa0, 0xff⟩] ++
  [⟨0xac, .rws, 0x0, 0xffffffc0, 0xa0, 0xf⟩,
   ⟨0xb0, .rws, 0x0, 0xffffffff, 0xa0, 0xf⟩,
   ⟨0xb4, .rc, 0x0, 0x0, 0xa0, 0xf⟩,
   ⟨0xb8, .rc, 0x0, 0x0, 0x0, 0x0⟩,
   ⟨0xbc, .ro, 0x0, 0x0, 0x0, 0x0⟩,
   ⟨0x100, .wo, 0x0, 0x0, 0x0, 0x0⟩,
   ⟨0x104, .wo, 0x0, 0x0, 0x0, 0x0⟩,
   ⟨0x108, .wo, 0x0, 0x0, 0x0, 0x0⟩,
   ⟨0x10c, .wo, 0x0, 0x0, 0x0, 0x0⟩,
   ⟨0x110, .wo, 0x0, 0x0, 0x0, 0x0⟩,
   ⟨0x114, .wo, 0x0, 0x0, 0x0, 0x0⟩,
   ⟨0x118, .wo, 0x0, 0x0, 0x0, 0x0⟩] ++
  [⟨0x11c, .wo, 0x0, 0x0, 0x0, 0x0⟩,
   ⟨0x120, .wo, 0x0, 0x0, 0x0, 0x0⟩,
   ⟨0x124, .wo, 0x0, 0x0, 0x0, 0x0⟩,
   ⟨0x128, .wo, 0x0, 0x0, 0x0, 0x0⟩,
   ⟨0x12c, .wo, 0x0, 0x0, 0x0, 0x0⟩,
   ⟨0x130, .wo, 0x0, 0x0, 0x0, 0x0⟩,
   ⟨0x134, .wo, 0x0, 0x0, 0x0, 0x0⟩,
   ⟨0x138, .wo, 0x0, 0x0, 0x0, 0x0⟩,
   ⟨0x13c, .wo, 0x0, 0x0, 0x0, 0x0⟩]

/-- The registers of the page from 0x040 up. -/
def regsInl : List RegInfo :=
  [⟨0x40, .ro, 0x0, 0x0, 0x0, 0x0⟩,
   ⟨0x44, .ro, 0x0, 0x0, 0x0, 0x0⟩,
   ⟨0x48, .rws, 0x0, 0xffffffff, 0x0, 0x0⟩,
   ⟨0x4c, .rws, 0x0, 0xffffffff, 0x0, 0x0⟩,
   ⟨0x50, .rws, 0x0, 0xffffffff, 0x0, 0x0⟩,
   ⟨0x54, .rws, 0x0, 0xffffffff, 0x0, 0x0⟩,
   ⟨0x58, .rws, 0x0, 0x1fff, 0x0, 0x0⟩,
   ⟨0x5c, .rws, 0x40000, 0xff00ff, 0x0, 0x0⟩,
   ⟨0x60, .rw, 0x3e8, 0xffffffff, 0x0, 0x0⟩,
   ⟨0x64, .rc, 0x0, 0x0, 0x0, 0x0⟩,
   ⟨0x68, .rc, 0x0, 0x0, 0x0, 0x0⟩,
   ⟨0x6c, .rc, 0x0, 0x0, 0x0, 0x0⟩] ++
  [⟨0x70, .rc, 0x0, 0x0, 0x0, 0x0⟩,
   ⟨0x74, .rc, 0x0, 0x0, 0x0, 0x0⟩,
   ⟨0x78, .rc, 0x0, 0x0, 0x0, 0x0⟩,
   ⟨0x7c, .rw, 0x0, 0xf, 0x0, 0x0⟩,
   ⟨0x80, .rws, 0x0, 0xffffff0f, 0x7c, 0xf⟩,
   ⟨0x84, .rw, 0x0, 0xffffffff, 0x7c, 0xf⟩,
   ⟨0x88, .rws, 0x0, 0xffffffff, 0x7c, 0xf⟩,
   ⟨0x8c, .rws, 0x0, 0xffffffff, 0x7c, 0xf⟩,
   ⟨0x90, .rws, 0x0, 0xffffffff, 0x7c, 0xf⟩,
   ⟨0x94, .rws, 0x0, 0xffffffff, 0x7c, 0xf⟩,
   ⟨0x98, .rws, 0x0, 0xffffffff, 0x7c, 0xf⟩,
   ⟨0x9c, .rws, 0x0, 0xffff, 0x7c, 0xf⟩] ++
  [⟨0xa0, .rws, 0x0, 0xfffff000, 0x7c, 0xf⟩,
   ⟨0xa4, .rws, 0x0, 0xffffffff, 0x7c, 0xf⟩,
   ⟨0xa8, .rws, 0x10, 0x3f, 0x7c, 0xf⟩,
   ⟨0xac, .rws, 0x0, 0x1ff01ff, 0x7c, 0xf⟩,
   ⟨0xb0, .rw, 0x0, 0xffffffff, 0x7c, 0xf⟩,
   ⟨0xb4, .rw, 0x0, 0xffffffff, 0x7c, 0xf⟩,
   ⟨0xb8, .ro, 0x0, 0x0, 0x7c, 0xf⟩,
   ⟨0xbc, .ro, 0x0, 0x0, 0x7c, 0xf⟩,
   ⟨0xc0, .rw, 0x0, 0x3fffffff, 0x7c, 0xf⟩,
   ⟨0xc4, .rc, 0x0, 0x0, 0x7c, 0xf⟩,
   ⟨0xc8, .rc, 0x0, 0x0, 0x7c, 0xf⟩,
   ⟨0xcc, .rc, 0x0, 0x0, 0x7c, 0xf⟩] ++
  [⟨0xd0, .rc, 0x0, 0x0, 0x7c, 0xf⟩]

/-- The registers of the page from 0x040 up. -/
def regsUcl : List RegInfo :=
  [⟨0x40, .ro, 0x0, 0x0, 0x0, 0x0⟩,
   ⟨0x44, .ro, 0x0, 0x0, 0x0, 0x0⟩,
   ⟨0x48, .rc, 0x0, 0x0, 0x0, 0x0⟩,
   ⟨0x4c, .rc, 0x0, 0x0, 0x0, 0x0⟩,
   ⟨0x50, .rc, 0x0, 0x0, 0x0, 0x0⟩]

/-- The registers of the page from 0x040 up. -/
def regsLne : List RegInfo :=
  [⟨0x40, .rw, 0x0, 0x7, 0x0, 0x0⟩,
   ⟨0x44, .ro, 0x0, 0x0, 0x40, 0x7⟩,
   ⟨0x48, .rc, 0x0, 0x0, 0x40, 0x7⟩]

/-- The registers of the page from 0x040 up. -/
def regsCfgP : List RegInfo :=
  [⟨0x40, .ro, 0x0, 0x0, 0x0, 0x0⟩,
   ⟨0x44, .ro, 0x0, 0x0, 0x0, 0x0⟩,
   ⟨0x48, .ro, 0x0, 0x0, 0x0, 0x0⟩,
   ⟨0x4c, .ro, 0x0, 0x0, 0x0, 0x0⟩,
   ⟨0x50, .ro, 0x0, 0x0, 0x0, 0x0⟩,
   ⟨0x54, .ro, 0x0, 0x0, 0x0, 0x0⟩]

/-- The registers of the page from 0x040 up. -/
def regsCfgM : List RegInfo :=
  [⟨0x40, .ro, 0x0, 0x0, 0x0, 0x0⟩,
   ⟨0x44, .ro, 0x0, 0x0, 0x0, 0x0⟩,
   ⟨0x48, .ro, 0x0, 0x0, 0x0, 0x0⟩,
   ⟨0x4c, .ro, 0x1, 0x0, 0x0, 0x0⟩,
   ⟨0x50, .rw, 0x0, 0x100, 0x0, 0x0⟩,
   ⟨0x54, .ro, 0x0, 0x0, 0x0, 0x0⟩,
   ⟨0x58, .ro, 0x0, 0x0, 0x0, 0x0⟩,
   ⟨0x5c, .rw, 0x2710, 0xffffffff, 0x0, 0x0⟩,
   ⟨0x60, .ro, 0x0, 0x0, 0x0, 0x0⟩,
   ⟨0x64, .ro, 0x0, 0x0, 0x0, 0x0⟩]

/-- The registers of the page from 0x040 up. -/
def regsKq : List RegInfo :=
  [⟨0x40, .rw, 0x0, 0x3f, 0x0, 0x0⟩,
   ⟨0x44, .rws, 0xffff, 0xffff, 0x40, 0x3f⟩,
   ⟨0x48, .rws, 0x0, 0xfff0fff, 0x40, 0x3f⟩,
   ⟨0x4c, .rw, 0x0, 0xffffff80, 0x40, 0x3f⟩,
   ⟨0x50, .rw, 0x0, 0xffffffff, 0x40, 0x3f⟩,
   ⟨0x54, .rw, 0x0, 0xfffffff0, 0x40, 0x3f⟩,
   ⟨0x58, .rw, 0x0, 0xffffffff, 0x40, 0x3f⟩,
   ⟨0x5c, .rw, 0x404, 0xff010f0f, 0x40, 0x3f⟩,
   ⟨0x60, .ro, 0x0, 0x0, 0x40, 0x3f⟩,
   ⟨0x64, .ro, 0x0, 0x0, 0x40, 0x3f⟩,
   ⟨0x68, .rc, 0x0, 0x0, 0x40, 0x3f⟩,
   ⟨0x6c, .rc, 0x0, 0x0, 0x40, 0x3f⟩] ++
  [⟨0x70, .rc, 0x0, 0x0, 0x40, 0x3f⟩,
   ⟨0x74, .ro, 0x800, 0x0, 0x0, 0x0⟩,
   ⟨0x78, .ro, 0x0, 0x0, 0x0, 0x0⟩]

/-- The registers of the page from 0x040 up. -/
def regsSec : List RegInfo :=
  [⟨0x40, .rw, 0x0, 0x7, 0x0, 0x0⟩,
   ⟨0x44, .rc, 0x0, 0x0, 0x40, 0x7⟩,
   ⟨0x48, .ro, 0x0, 0x0, 0x0, 0x0⟩,
   ⟨0x4c, .ro, 0x0, 0x0, 0x0, 0x0⟩,
   ⟨0x50, .ro, 0x0, 0x0, 0x0, 0x0⟩,
   ⟨0x54, .ro, 0x0, 0x0, 0x0, 0x0⟩,
   ⟨0x58, .rw, 0x0, 0x1f, 0x0, 0x0⟩,
   ⟨0x5c, .ro, 0x0, 0x0, 0x58, 0x1f⟩]

/-- The registers of the page from 0x040 up. -/
def regsFus : List RegInfo :=
  [⟨0x40, .ro, 0x0, 0x0, 0x0, 0x0⟩,
   ⟨0x44, .ro, 0x0, 0x0, 0x0, 0x0⟩,
   ⟨0x48, .ro, 0x0, 0x0, 0x0, 0x0⟩,
   ⟨0x4c, .ro, 0x0, 0x0, 0x0, 0x0⟩,
   ⟨0x50, .ro, 0x0, 0x0, 0x0, 0x0⟩,
   ⟨0x54, .ro, 0x0, 0x0, 0x0, 0x0⟩,
   ⟨0x58, .ro, 0x0, 0x0, 0x0, 0x0⟩,
   ⟨0x5c, .ro, 0x0, 0x0, 0x0, 0x0⟩,
   ⟨0x60, .ro, 0x0, 0x0, 0x0, 0x0⟩,
   ⟨0x64, .ro, 0x0, 0x0, 0x0, 0x0⟩,
   ⟨0x68, .ro, 0x0, 0x0, 0x0, 0x0⟩,
   ⟨0x6c, .ro, 0x0, 0x0, 0x0, 0x0⟩] ++
  [⟨0x70, .ro, 0x0, 0x0, 0x0, 0x0⟩,
   ⟨0x74, .ro, 0x0, 0x0, 0x0, 0x0⟩,
   ⟨0x78, .ro, 0x0, 0x0, 0x0, 0x0⟩,
   ⟨0x7c, .ro, 0x0, 0x0, 0x0, 0x0⟩,
   ⟨0x80, .ro, 0x0, 0x0, 0x0, 0x0⟩,
   ⟨0x84, .ro, 0x0, 0x0, 0x0, 0x0⟩,
   ⟨0x88, .ro, 0x0, 0x0, 0x0, 0x0⟩,
   ⟨0x8c, .rwf, 0x0, 0x37f, 0x0, 0x0⟩]

/-- The registers of the page from 0x040 up. -/
def regsPwr : List RegInfo :=
  [⟨0x40, .ro, 0x0, 0x0, 0x0, 0x0⟩,
   ⟨0x44, .ro, 0x0, 0x0, 0x0, 0x0⟩,
   ⟨0x48, .ro, 0x0, 0x0, 0x0, 0x0⟩,
   ⟨0x4c, .ro, 0x0, 0x0, 0x0, 0x0⟩,
   ⟨0x50, .rw, 0x0, 0x0, 0x0, 0x0⟩,
   ⟨0x54, .ro, 0x0, 0x0, 0x0, 0x0⟩,
   ⟨0x58, .rc, 0x0, 0x0, 0x0, 0x0⟩]

/-- The registers of the page from 0x040 up. -/
def regsClk : List RegInfo :=
  [⟨0x40, .ro, 0x0, 0x0, 0x0, 0x0⟩,
   ⟨0x44, .rc, 0x0, 0x0, 0x0, 0x0⟩,
   ⟨0x48, .ro, 0x0, 0x0, 0x0, 0x0⟩]

/-- The registers of the page from 0x040 up. -/
def regsThm : List RegInfo :=
  [⟨0x40, .rw, 0x0, 0x1f, 0x0, 0x0⟩,
   ⟨0x44, .ro, 0x0, 0x0, 0x40, 0x1f⟩,
   ⟨0x48, .rc, 0x0, 0x0, 0x40, 0x1f⟩]

/-- The registers of a block (R520). -/
def Blk.regs : Blk → List RegInfo
  | .wdn => regsWdn
  | .gau => regsGau
  | .grd => regsGrd
  | .cel => regsCel
  | .sem => regsSem
  | .int => regsInt
  | .out => regsOut
  | .pmp => regsPmp
  | .hbc => regsHbc
  | .lpc => regsLpc
  | .spw => regsSpw
  | .spwKv => regsSpwKv
  | .htb => regsHtb
  | .flp => regsFlp
  | .flx0 => regsFlx0
  | .flx1 => regsFlx1
  | .flx2 => regsFlx2
  | .twn => regsTwn
  | .inl => regsInl
  | .ucl => regsUcl
  | .lne => regsLne
  | .cfgP => regsCfgP
  | .cfgM => regsCfgM
  | .kq => regsKq
  | .sec => regsSec
  | .fus => regsFus
  | .pwr => regsPwr
  | .clk => regsClk
  | .thm => regsThm

/-- Block type (R520). -/
def Blk.type : Blk → Nat
  | .wdn => 1
  | .gau => 2
  | .grd => 3
  | .cel => 4
  | .sem => 5
  | .int => 6
  | .out => 7
  | .pmp => 8
  | .hbc => 9
  | .lpc => 10
  | .spw => 11
  | .spwKv => 11
  | .htb => 12
  | .flp => 13
  | .flx0 => 14
  | .flx1 => 14
  | .flx2 => 14
  | .twn => 15
  | .inl => 16
  | .ucl => 17
  | .lne => 18
  | .cfgP => 19
  | .cfgM => 19
  | .kq => 20
  | .sec => 21
  | .fus => 22
  | .pwr => 23
  | .clk => 24
  | .thm => 25

/-- EVENT bits implemented, from bit 0 upward (R507). -/
def Blk.nevent : Blk → Nat
  | .wdn => 13
  | .gau => 10
  | .grd => 19
  | .cel => 8
  | .sem => 2
  | .int => 7
  | .out => 7
  | .pmp => 8
  | .hbc => 4
  | .lpc => 3
  | .spw => 5
  | .spwKv => 5
  | .htb => 4
  | .flp => 6
  | .flx0 => 9
  | .flx1 => 0
  | .flx2 => 5
  | .twn => 7
  | .inl => 7
  | .ucl => 3
  | .lne => 2
  | .cfgP => 1
  | .cfgM => 4
  | .kq => 5
  | .sec => 4
  | .fus => 2
  | .pwr => 4
  | .clk => 0
  | .thm => 3

/-- The bits of CTRL that are stored; the others act or read zero. -/
def Blk.ctrlMask : Blk → Nat
  | .wdn => 0
  | .gau => 0
  | .grd => 1
  | .cel => 0
  | .sem => 0
  | .int => 0
  | .out => 0
  | .pmp => 0
  | .hbc => 0
  | .lpc => 0
  | .spw => 0
  | .spwKv => 0
  | .htb => 0
  | .flp => 13
  | .flx0 => 4
  | .flx1 => 0
  | .flx2 => 0
  | .twn => 1
  | .inl => 1
  | .ucl => 0
  | .lne => 0
  | .cfgP => 0
  | .cfgM => 0
  | .kq => 0
  | .sec => 0
  | .fus => 0
  | .pwr => 0
  | .clk => 0
  | .thm => 0

/-- The reset value of CTRL. -/
def Blk.ctrlReset : Blk → Nat
  | .wdn => 0
  | .gau => 0
  | .grd => 0
  | .cel => 0
  | .sem => 0
  | .int => 0
  | .out => 0
  | .pmp => 0
  | .hbc => 0
  | .lpc => 0
  | .spw => 0
  | .spwKv => 0
  | .htb => 0
  | .flp => 1
  | .flx0 => 4
  | .flx1 => 0
  | .flx2 => 0
  | .twn => 0
  | .inl => 1
  | .ucl => 0
  | .lne => 0
  | .cfgP => 0
  | .cfgM => 0
  | .kq => 0
  | .sec => 0
  | .fus => 0
  | .pwr => 0
  | .clk => 0
  | .thm => 0

/-- The register of a block at an offset of its page. -/
def Blk.find (b : Blk) (off : Nat) : Option RegInfo := b.regs.find? fun r => r.off == off

/-- The page holds RWS registers (R507). -/
def Blk.staged (b : Blk) : Bool := b.regs.any fun r => r.acc == .rws

/-- The page holds RWF registers or registers whose reset value is "fuse" (R507). -/
def Blk.fused : Blk → Bool
  | .cel | .gau | .inl | .sec | .fus | .clk => true
  | _ => false

/-- A register of the page is a selector; GRD's two choose what a register computes (R517). -/
def Blk.isSel (b : Blk) (off : Nat) : Bool :=
  (b == .grd && (off == 0x54 || off == 0x5C)) || b.regs.any fun r => r.sel != 0 && r.sel == off

/-- The page holds selector registers (R507). -/
def Blk.selects (b : Blk) : Bool := b == .grd || b.regs.any fun r => r.sel != 0

end Sys2Proof.Machine
end

