-- ==== Sys2Proof/Machine/GridState.lean ====
section
/-! DEFINITION. The state of a polder's grid: networks, weirs, HOLD, reconfiguration, issues and
pipeline runs (chapters 04, 05 and 06). -/

namespace Sys2Proof.Machine

/-- Who submitted an operation that both a register write and a keeper command may start. -/
inductive Origin where
  /-- a GO through the register path, with the context the write carries -/
  | reg (ctx : BitVec 16)
  /-- a command of a keeper queue: slot, tag, context -/
  | cmd (slot : Fin 64) (tag : BitVec 16) (ctx : BitVec 16)
  deriving DecidableEq, Repr

/-- The context an operation carries (R430). -/
def Origin.ctx : Origin → BitVec 16
  | .reg c => c
  | .cmd _ _ c => c

def Origin.isReg : Origin → Bool
  | .reg _ => true
  | .cmd _ _ _ => false

/-- A data-net beat on its way into a router input (R99, R102). -/
structure Beat where
  cell : Nat
  inp : Nat
  circ : Nat
  cls : Nat
  data : BitVec 256
  /-- cycle in which it enters the router -/
  arrive : Nat
  deriving DecidableEq, Repr

/-- A beat that dwells: the input and class whose entry it holds, and the cycle it is freed (R102). -/
structure Dwell where
  cell : Nat
  inp : Nat
  cls : Nat
  until_ : Nat
  deriving DecidableEq, Repr

/-- A beat on its way from an EDGE output to an Outfall engine (R100). -/
structure EdgeBeat where
  eng : Nat
  circ : Nat
  data : BitVec 256
  deriving DecidableEq, Repr

/-- A control-net token in flight (R108): the router it enters, by which input, its target. -/
structure CtlToken where
  cell : Nat
  inp : Nat
  target : Nat
  out : Nat
  payload : BitVec 24
  arrive : Nat
  deriving DecidableEq, Repr

/-- An accepted token with the cycle it takes effect in (R106, R107). -/
structure QToken where
  payload : BitVec 24
  effect : Nat
  deriving DecidableEq, Repr

/-- What a SERVICE packet carries (R56, R109). -/
inductive SvcBody where
  | read (addr len : Nat)
  | write (addr : Nat) (data : List W64)
  | reply (status : Status) (data : List W64)
  deriving DecidableEq, Repr

/-- A SERVICE packet in flight: the cell it has reached, its destination, the cell that issued the
access, that access's place and the issuer's incarnation (R394). -/
structure SvcPkt where
  cell : Nat
  dest : Nat
  src : Nat
  slot : Nat
  inc : BitVec 4
  body : SvcBody
  deriving DecidableEq, Repr

/-- A sync-net increment in flight (R110). -/
structure Incr where
  eng : Bool
  target : Nat
  sem : Nat
  n : Nat
  visible : Nat
  deriving DecidableEq, Repr

/-- A weir setting: input port and input circuit (R104). -/
structure WeirSet where
  port : BitVec 3
  circ : BitVec 3
  deriving DecidableEq, Repr

def WeirSet.off : WeirSet := ⟨7, 0⟩

/-- Reconfiguration (R121, R122, R124, R147). -/
structure Recfg where
  busy : Bool
  /-- waits under R124 or R147 -/
  waiting : Bool
  opened : Bool
  rect : Rect
  /-- tide of acceptance and tide of the drain test's start -/
  accepted : Nat
  started : Nat
  deriving DecidableEq, Repr

/-- HOLD (R115 to R117): cycles here are of the clock that a HOLD does not stop. -/
structure Hold where
  frozen : Bool
  /-- the request is asserted now, its first requester, and when it rose -/
  asserted : Bool
  src : Nat
  since : Nat
  /-- cycle in which the freeze begins or ends, once known -/
  freezeAt : Option Nat
  resumeAt : Option Nat
  /-- first frozen cycle of the HOLD in progress -/
  began : Nat
  deriving DecidableEq, Repr

/-- Where an issue stands (R138 to R147): behind another that is being checked, reading its variant
table, accepted and not started, started. -/
inductive IssuePhase where
  | waiting | reading | pending | running
  deriving DecidableEq, Repr

/-- An issue (R138). -/
structure Issue where
  words : List W32
  origin : Origin
  phase : IssuePhase
  /-- b0 + 8 b1 + 64 b2 -/
  variant : Nat
  startPc : BitVec 10
  zero : Bool
  /-- cycle in which setup is complete, polder tide of the start -/
  ready : Nat
  startTide : Nat
  /-- code that a halt or a reset will complete it with (R146, R384) -/
  fail : Option Status
  deriving DecidableEq, Repr

/-- A stash record with the values of R162. -/
structure StashRec where
  tensor : BitVec 16
  policy : Nat
  fallback : Bool
  base : Nat
  word : Nat
  size : Nat
  gran : Nat
  deriving DecidableEq, Repr

/-- A stage of a pipeline image (R149, R169). -/
structure Stage where
  words : List W32
  rect : Rect
  startPc : BitVec 10
  zero : Bool
  x0 : Nat
  reserve : Nat
  resGran : Nat
  /-- index of the stage's first stash record in the table -/
  first : Nat
  recs : List StashRec
  deriving DecidableEq, Repr

/-- An OFFLOAD entry in the reserve (R164 to R166). -/
structure StashEntry where
  stage : Nat
  recIdx : Nat
  micro : Nat
  /-- reserve byte offset and granules it holds -/
  at_ : Nat
  gran : Nat
  returned : Bool
  deriving DecidableEq, Repr

/-- Where a pipeline start stands (R170). -/
inductive PipePhase where
  | gate | reading | pending | running
  deriving DecidableEq, Repr

/-- A pipeline start or run (R149 to R174). -/
structure PipeRun where
  origin : Origin
  phase : PipePhase
  table : W64
  fused : Bool
  m : Nat
  period : Nat
  gateMask : BitVec 4
  handSeq : W32
  leads : List W32
  stages : List Stage
  t0 : Nat
  pass : Nat
  entries : List StashEntry
  /-- (stage, microbatch) switched to RECOMPUTE (R166) -/
  switched : List (Nat × Nat)
  fail : Option Status
  deriving DecidableEq, Repr

/-- The grid of a polder. Slot tables are keyed by `((net * 40960 + cell) * 8 + table) * 64 + slot`,
weirs by `(cell * 6 + output) * 8 + circuit`, weir queues and stale counts by `cell * 6 + output`. -/
structure Grid where
  cells : SMap Cell
  slots : SMap (BitVec 16)
  weirs : SMap WeirSet
  epochs : SMap (BitVec 2)
  stale : SMap (BitVec 16)
  queues : SMap (List QToken)
  beats : List Beat
  dwells : List Dwell
  edge : List EdgeBeat
  tokens : List CtlToken
  svc : List SvcPkt
  incrs : List Incr
  recfg : Recfg
  /-- rectangles reconfigured and the tide of it (R124) -/
  recent : List (Rect × Nat)
  hold : Hold
  issues : List Issue
  pipe : Option PipeRun
  /-- key in effect; key and step writes held to the step boundary (R91) -/
  rngKey : BitVec 128
  rngStep : W32
  rngHeld : SMap W32
  /-- grid faults the Warden has still to act on: the router's cell and the code (R385) -/
  faults : List (Nat × Status)
  deriving DecidableEq, Repr

def Recfg.reset : Recfg := ⟨false, false, false, 0, 0, 0⟩
def Hold.reset : Hold := ⟨false, false, 0, 0, none, none, 0⟩

/-- The grid after polder reset. -/
def Grid.reset : Grid where
  cells := []
  slots := []
  weirs := []
  epochs := []
  stale := []
  queues := []
  beats := []
  dwells := []
  edge := []
  tokens := []
  svc := []
  incrs := []
  recfg := Recfg.reset
  recent := []
  hold := Hold.reset
  issues := []
  pipe := none
  rngKey := 0
  rngStep := 0
  rngHeld := []
  faults := []

end Sys2Proof.Machine
end

