-- ==== Sys2Proof/Machine/EngState.lean ====
section
/-! DEFINITION. The state of an Intake or Outfall engine (chapter 07). -/

namespace Sys2Proof.Machine

/-- STATE of an engine (R203). -/
inductive EngSt where
  | idle | armed | running | faulted | stopped
  deriving DecidableEq, Repr

def EngSt.num : EngSt → Nat
  | .idle => 0 | .armed => 1 | .running => 2 | .faulted => 3 | .stopped => 4

/-- The position of a descriptor (R177). -/
inductive DescPos where
  | queued | fetching | executing
  deriving DecidableEq, Repr

/-- A descriptor in the queue: its ring index, a number of its own within the engine (a REPEAT runs
one ring entry many times), its 64 bytes with TIDE and ADDR as this run has them, and how far it is. -/
structure Desc where
  num : Nat
  index : W32
  bits : BitVec 512
  pos : DescPos
  ctx : BitVec 16
  /-- source bytes requested (Outfall: the pipeline's pass when the first beat arrived); delivered bytes landed -/
  asked : Nat
  landed : Nat
  /-- beats emitted by each emission, or beats taken -/
  sent0 : Nat
  sent1 : Nat
  /-- Outfall: delivered bytes written or handed over; transactions outstanding -/
  done : Nat
  pend : Nat
  /-- the WAIT test has passed; SIG has been sent -/
  waited : Bool
  signalled : Bool
  /-- layout epoch of a REDUCE_WRITE (R199); image pinned by a walk (R220) -/
  epoch : BitVec 8
  pin : Option Nat
  /-- every byte of a walk has landed -/
  walked : Bool
  /-- cycle in which it reached the fetching position while the engine ran, or the start (R188) -/
  since : Nat
  deriving DecidableEq, Repr

/-- A memory request of the fetch side (R185). -/
structure EngReq where
  desc : Nat
  /-- place of its bytes in the descriptor's delivered stream, delivered length -/
  at_ : Nat
  out : Nat
  tier : Nat
  addr : W64
  len : Nat
  /-- awaits its reissue (R194); admitted above its guarantee (R251) -/
  retry : Bool
  deferred : Bool
  /-- tag of a fabric READ (tier 4) -/
  tag : Option (BitVec 16)
  /-- the completion that the bridge or the fabric engine has handed over (tiers 3 and 4) -/
  answer : Option ReadReply
  deriving DecidableEq, Repr

/-- Delivered bytes in a buffer: Intake data awaiting emission, or Outfall beats awaiting a write. -/
structure Chunk where
  desc : Nat
  at_ : Nat
  data : List Byte
  deriving DecidableEq, Repr

/-- A fabric transaction of an Outfall engine not yet completed (R199). -/
structure EngTxn where
  tag : BitVec 16
  desc : Nat
  txn : Txn
  /-- map slot under whose epoch a REDUCE_WRITE counts (R353) -/
  slot : Option Nat
  /-- awaits its reissue; the completion that the fabric engine has handed over -/
  retry : Bool
  answer : Option (Status × Bool)
  deriving DecidableEq, Repr

/-- An expansion of a REPEAT under way (R202). -/
structure Rep where
  descs : List (W32 × BitVec 512)
  tideStep : W32
  addrStep : W64
  count : Nat
  iter : Nat
  place : Nat
  index : W32
  ctx : BitVec 16
  deriving DecidableEq, Repr

/-- One engine (R175 to R203). -/
structure Eng where
  st : EngSt
  ctx : BitVec 16
  head : W32
  /-- first ring index and count of a burst in flight, with its context -/
  burst : Option (W32 × Nat)
  /-- descriptors fetched, oldest first, and the next number -/
  descs : List Desc
  next : Nat
  /-- descriptors already run, kept for a REPEAT (at most 255) -/
  past : List (W32 × BitVec 512)
  rep : Option Rep
  reqs : List EngReq
  buf : List Chunk
  free : Nat
  sems : SMap Byte
  /-- polder tide at which the engine's tide count is 0 -/
  base : Option Nat
  /-- the bound plot has completed and the engine ends (R182) -/
  ending : Bool
  stopping : Bool
  holdReq : Bool
  outHold : Bool
  txns : List EngTxn
  /-- cycle of the last emission on each circuit, plus one (R188) -/
  last : SMap Nat
  retired : BitVec 24
  discarded : Nat
  /-- contexts that bound, armed or wrote TAIL since last IDLE, in the order each first did; the number
  rises with the latest to do so (R400) -/
  users : List (BitVec 16 × Nat)
  /-- TAIL writes not yet fetched past, oldest first: the new TAIL and its context (R400) -/
  published : List (W32 × BitVec 16)
  probing : Bool
  deriving DecidableEq, Repr

/-- An engine after its reset. -/
def Eng.reset : Eng where
  st := .idle
  ctx := 0
  head := 0
  burst := none
  descs := []
  next := 0
  past := []
  rep := none
  reqs := []
  buf := []
  free := 0x40000
  sems := []
  base := none
  ending := false
  stopping := false
  holdReq := false
  outHold := false
  txns := []
  last := []
  retired := 0
  discarded := 0
  users := []
  published := []
  probing := false

end Sys2Proof.Machine
end

