-- ==== Sys2Proof/Machine/MemState.lean ====
section
/-! DEFINITION. The state of the memory tiers, the Spillway, its cache manager, the host-tier bridge and the
Pumps (chapters 08, 09 and 10). Readings and choices: log 5, 7. -/

namespace Sys2Proof.Machine

/-- A page-table entry (R215). -/
structure Pte where
  base : W64
  logSz : Nat
  shared : Bool
  spilled : Bool
  resident : Bool
  refIdx : Nat
  deriving DecidableEq, Repr

/-- A published table image (R214), by tier-1 offset, with the offset of its head. -/
structure KvImage where
  addr : Nat
  head : Nat
  ver : W32
  ringLen : Nat
  ptes : List Pte
  pins : Nat
  current : Bool
  deriving DecidableEq, Repr

/-- STATE of a table head (R213). -/
inductive HeadSt where
  | live | destroying
  deriving DecidableEq, Repr

/-- A table head (R213); an unlisted head is INVALID. -/
structure KvHead where
  cur : Nat
  ver : W32
  st : HeadSt
  ctx : BitVec 16
  deriving DecidableEq, Repr

/-- An entry of the reference-count array (R217). -/
structure KvRef where
  count : Nat
  lastTide : W32
  tier : Nat
  page : Nat
  size : Nat
  ctx : BitVec 16
  deriving DecidableEq, Repr

/-- A pending edit (R218). -/
structure KvEdit where
  words : List W32
  origin : Origin
  deriving DecidableEq, Repr

/-- A walk's prefetch (R225). -/
structure KvPrefetch where
  head : Nat
  pages : List Nat
  deriving DecidableEq, Repr

/-- A cache page on its way back from tier 3: its bytes so far, and the code its reads have met (R224,
R225). -/
structure KvStaged where
  ref : Nat
  code : Status
  data : List Byte
  deriving DecidableEq, Repr

/-- A dynamic allocation from a POOL region (R239, R250). -/
structure Alloc where
  tier : Nat
  base : Nat
  size : Nat
  ctx : BitVec 16
  deriving DecidableEq, Repr

/-- State of a SPILL page in a frame (R247); a page without a frame is LOW. -/
inductive FrameSt where
  | filling | high | evicting
  deriving DecidableEq, Repr

/-- A frame (R247): home tier and page offset, tier-1 frame base, dirty granules, last access. -/
structure SpillFrame where
  tier : Nat
  page : Nat
  base : Nat
  st : FrameSt
  dirty : List Nat
  lastTide : Nat
  ctx : BitVec 16
  /-- bytes of a tier-3 home copied in so far, and bytes written while it fills, by page offset -/
  filled : Nat
  ahead : SMap Byte
  deriving DecidableEq, Repr

/-- What a 64-byte burst's next read meets (R236): a corrected error, one its replay reads clean, one
its replay meets too. -/
inductive MemErr where
  | corrected | once | twice
  deriving DecidableEq, Repr

/-- A range operation in progress (R255). -/
structure RangeOp where
  op : Nat
  tier : Nat
  off : Nat
  len : Nat
  /-- code a copy has failed with -/
  code : Status
  deriving DecidableEq, Repr

/-- Who waits for a tier-3 read. -/
inductive T3For where
  /-- an Intake request: engine, number of its descriptor, place in its stream -/
  | engine (e num at_ : Nat)
  /-- an inbound fabric READ -/
  | fabric (port : Nat) (t : Txn)
  /-- the fill of a SPILL page, by tier offset / 2 MiB -/
  | fill (page : Nat)
  /-- the copy of a cache page back to tier 1, by REFIDX -/
  | page (ref : Nat)
  deriving DecidableEq, Repr

/-- A tier-3 read outstanding at the host-tier bridge (R252, R253). -/
structure Tier3Req where
  off : Nat
  len : Nat
  who : T3For
  deferred : Bool
  /-- what reads of the same request have brought that end before it and behind it, and the code one met -/
  pre : List Byte
  post : List Byte
  bad : Status
  deriving DecidableEq, Repr

/-- What a BAR4 or BAR2 access answered (R254). -/
inductive HostReply where
  | data (bytes : List Byte)
  | abort
  | poisoned
  deriving DecidableEq, Repr

/-- Memory, Spillway and bridge of a polder. Tier 1 and tier 2 are bytes by tier offset; a BITMAP
region's valid granules are keyed by offset / 2048. -/
structure Mem where
  mem1 : SMap Byte
  mem2 : SMap Byte
  valid1 : SMap Bool
  valid2 : SMap Bool
  /-- 64-byte bursts whose next read meets an error, by offset / 64 (R236) -/
  bad1 : SMap MemErr
  bad2 : SMap MemErr
  /-- correctable errors by row since the last polder reset, the repair log by stack: (stack, row,
  hard) (R237), and the keeper's copy of soft repairs made again at every reset -/
  ces : SMap Nat
  ppr : List (Nat × Nat × Bool)
  repaired : List (Nat × Nat × Bool)
  heads : SMap KvHead
  images : List KvImage
  refs : SMap KvRef
  edits : List KvEdit
  prefetch : List KvPrefetch
  staged : List KvStaged
  /-- copies of moved pages that a pinned image may still name: tier and offset (R224) -/
  oldCopies : List (Nat × Nat)
  allocs : List Alloc
  frames : List SpillFrame
  range : Option RangeOp
  /-- bytes admitted in the current window by slot * 4 + tier (R251) -/
  used : SMap Nat
  tier3 : List Tier3Req
  replies : List HostReply
  deriving DecidableEq, Repr

def Mem.reset : Mem where
  mem1 := []
  mem2 := []
  valid1 := []
  valid2 := []
  bad1 := []
  bad2 := []
  ces := []
  ppr := []
  repaired := []
  heads := []
  images := []
  refs := []
  edits := []
  prefetch := []
  staged := []
  oldCopies := []
  allocs := []
  frames := []
  range := none
  used := []
  tier3 := []
  replies := []

/-- STATE of a Pump channel (R284). -/
inductive ChanSt where
  | idle | open_ | closing | summing | updating | late
  deriving DecidableEq, Repr

def ChanSt.num : ChanSt → Nat
  | .idle => 0 | .open_ => 1 | .closing => 2 | .summing => 3 | .updating => 4 | .late => 5

/-- A shard entry (R261). -/
structure Shard where
  high : W64
  rem : W64
  m : W64
  v : W64
  win : W64
  par : W64
  prog : W64
  stride : W64
  count : Nat
  chunk : Nat
  rule : Nat
  pump : Nat
  hyp : Nat
  nslice : Nat
  tensor : BitVec 16
  cols : Nat
  deriving DecidableEq, Repr

/-- An update table (R260, R262) with the micro-programs its arm loads (R275). -/
structure UpdTable where
  snap : Bool
  addNext : Bool
  root : Bool
  zeroCnt : Bool
  ncontrib : Nat
  stream : Nat
  seq : W32
  nchunk : Nat
  t : Nat
  clipMax : W32
  winBase : W64
  winBlocks : Nat
  tieFrom : Nat
  cntBase : W64
  norm : W64
  rootCell : W64
  altCell : W64
  clist : List (BitVec 12)
  mlist : List W64
  nmember : Nat
  hlist : List W64
  pool : W64
  poolCap : Nat
  ctx : BitVec 16
  hyps : List (List W32)
  shards : List Shard
  progs : List (W64 × List W32)
  deriving DecidableEq, Repr

/-- How a snapshot of an update stands (R457, R458). -/
inductive SnapSt where
  | none | sending | aborted
  deriving DecidableEq, Repr

/-- A Pump channel (R259 to R282). -/
structure Chan where
  st : ChanSt
  skipped : Bool
  code : Status
  tab : Option UpdTable
  sumsq : BitVec 64
  blocks : Nat
  k : BitVec 5
  norm : W32
  clip : W32
  chunks : Nat
  spread : W32
  err : W32
  /-- the field cycle of the first admitted write -/
  first : Option Nat
  /-- a NOTICE has reported a contributor lost, a member lost -/
  lost : Bool
  lostMember : Bool
  /-- a root has written its total (R270) -/
  rooted : Bool
  close : Status
  /-- layers the update reads and does not write (R272, R417) -/
  skips : List (BitVec 16)
  /-- shards complete; the code a failed read or write gives the update (R281) -/
  shards : List Nat
  bad : Status
  /-- late-pool entries held, the place of the oldest, and how many an earlier reduction left (R268) -/
  pooled : Nat
  poolAt : Nat
  poolOld : Nat
  /-- landing-time squares by block (R267) -/
  squares : SMap (BitVec 64)
  snap : SnapSt
  /-- bytes of the snapshot's image handed to the Inlet -/
  snapAt : Nat
  /-- held under HALT (R417) -/
  held : Bool
  deriving DecidableEq, Repr

def Chan.reset : Chan where
  st := .idle
  skipped := false
  code := 0
  tab := none
  sumsq := 0
  blocks := 0
  k := 0
  norm := 0
  clip := 0x3F800000
  chunks := 0
  spread := 0
  err := 0
  first := none
  lost := false
  lostMember := false
  rooted := false
  close := 0
  skips := []
  shards := []
  bad := 0
  pooled := 0
  poolAt := 0
  poolOld := 0
  squares := []
  snap := .none
  snapAt := 0
  held := false

end Sys2Proof.Machine
end

