-- ==== Sys2Proof/Machine/FabState.lean ====
section
/-! DEFINITION. The state of Fleavik links, the fabric transaction engine, shard maps and the Twin
(chapters 11 to 14). -/

namespace Sys2Proof.Machine

/-- STATE of a port (R307). -/
inductive PortSt where
  | disabled | laneCheck | negotiate | train | align | up | wait
  deriving DecidableEq, Repr

def PortSt.num : PortSt → Nat
  | .disabled => 0 | .laneCheck => 1 | .negotiate => 2 | .train => 3 | .align => 4 | .up => 5 | .wait => 6

/-- What waits in a port's transmit queue: a flit passed through, or a transaction of the polder's own with
the bytes still to leave, its class, destination and tag, whether it is a completion, and whether its
header has left (R311, R312, R339). -/
inductive TxItem where
  | flit (cls : Nat) (pay : BitVec 1920)
  | txn (cls dst : Nat) (cpl : Bool) (tag : BitVec 16) (begun : Bool) (rest : List Byte)
  deriving DecidableEq, Repr

/-- A Fleavik port, in-package link or Twin port (R288 to R307). -/
structure Port where
  st : PortSt
  width : Nat
  reversed : Bool
  cause : Nat
  peerKind : Nat
  /-- transmitters in electrical idle for 1 ms after going down (R304) -/
  idle : Bool
  txShort : BitVec 8
  rxOpen : BitVec 8
  failed : BitVec 8
  inverted : BitVec 8
  trained : BitVec 8
  laneOf : SMap Nat
  rxGood : BitVec 8
  peerGood : BitVec 8
  lanes : BitVec 8
  peer : BitVec 128
  returns : Nat
  /-- receive lanes on which a page has arrived -/
  signal : BitVec 8
  queue : List TxItem
  seq : BitVec 12
  /-- replay buffer, oldest first (R301): SEQ, class, payload words; how many are to be sent again -/
  replay : List (BitVec 12 × Nat × BitVec 1920)
  resend : Nat
  replayFrom : Option (BitVec 12)
  /-- credits by class: spent, and the peer's total (R303) -/
  spent : SMap Nat
  peerFreed : SMap Nat
  freed : SMap Nat
  cclass : Nat
  expect : BitVec 12
  /-- the receiver has sent a NAK for `expect` (R302) -/
  nakSent : Bool
  nakDue : Bool
  unacked : Nat
  nakSeq : BitVec 12
  nakRun : Nat
  /-- port cycles since the last NAK was sent -/
  nakAge : Nat
  /-- flits delivered and waiting to be forwarded, and the flit sent last -/
  rxq : List (BitVec 2048)
  tx : Option (BitVec 2048)
  deriving DecidableEq, Repr

def Port.reset : Port where
  st := .disabled
  width := 0
  reversed := false
  cause := 0
  peerKind := 0
  idle := false
  txShort := 0
  rxOpen := 0
  failed := 0
  inverted := 0
  trained := 0
  laneOf := []
  rxGood := 0
  peerGood := 0
  lanes := 0
  peer := 0
  returns := 0
  signal := 0
  queue := []
  seq := 0
  replay := []
  resend := 0
  replayFrom := none
  spent := []
  peerFreed := []
  freed := []
  cclass := 0
  expect := 0
  nakSent := false
  nakDue := false
  unacked := 0
  nakSeq := 0
  nakRun := 0
  nakAge := 0
  rxq := []
  tx := none

/-- Who a request of the polder belongs to. -/
inductive Asker where
  | engine (eng : Nat)
  | pump (ch : Fin 4)
  /-- a Pump's request outside the update's own: the scalar reduction (R270) -/
  | norm (ch : Fin 4)
  /-- a mirror record on the wire (R363) -/
  | mirror
  /-- the TWN transfer engine's read or write under way (R372) -/
  | xfer
  /-- the relay write of a fold (R370) -/
  | relay
  | keeper
  deriving DecidableEq, Repr

/-- A request outstanding at the FLX (R321, R322). -/
structure OutReq where
  txn : Txn
  asker : Asker
  /-- the completion carries DEFERRED (R333) -/
  deferred : Bool
  deriving DecidableEq, Repr

/-- The incarnation view of a polder (R320). -/
structure PolderView where
  inc : BitVec 4
  known : Bool
  /-- the lost mark, with the incarnation it was set for (R335) -/
  lost : Option (BitVec 4)
  draining : Bool
  deriving DecidableEq, Repr

def PolderView.none : PolderView := ⟨0, false, Option.none, false⟩

/-- State of a window (R325). -/
inductive WinSt where
  | closed | open_ | closing
  deriving DecidableEq, Repr

/-- An admitted write of a window: the request, and what its completion carries (R318, R328). -/
structure WinWrite where
  txn : Txn
  deferred : Bool
  data : List Byte
  /-- a relayed fold, which is answered when its relay write has landed too (R370) -/
  relayed : Bool
  deriving DecidableEq, Repr

/-- A window; `closers` wait for it to become CLOSED (R329). -/
structure Win where
  base : W64
  size : Nat
  mask : BitVec 3
  st : WinSt
  /-- admitted writes not yet visible, oldest first: what each is answered with (R328) -/
  writes : List WinWrite
  closers : List WinFrom
  deriving DecidableEq, Repr

def Win.reset : Win := ⟨0, 0, 0, .closed, [], []⟩

/-- A heartbeat-list entry's live state (R334). -/
structure HbStat where
  inc : BitVec 4
  lost : Bool
  peerState : BitVec 2
  age : BitVec 16
  deriving DecidableEq, Repr

/-- A stream under reassembly (R313): expected FSEQ and the bytes of a partial transaction. -/
structure RxStream where
  expect : BitVec 8
  part : List Byte
  deriving DecidableEq, Repr

/-- A map entry (R348). -/
structure MapEntry where
  first : Nat
  count : Nat
  grad : W64
  high : W64
  deriving DecidableEq, Repr

/-- A shard map (R347). -/
structure ShardMap where
  epoch : BitVec 8
  total : Nat
  entries : List MapEntry
  deriving DecidableEq, Repr

/-- A map slot (R351). -/
structure MapSlot where
  cur : Option ShardMap
  prev : Option ShardMap
  stg : Option ShardMap
  /-- an ACTIVATE waits (R353) -/
  wait : Option Origin
  /-- REDUCE_WRITEs outstanding by epoch -/
  pend : SMap Nat
  deriving DecidableEq, Repr

def MapSlot.reset : MapSlot := ⟨none, none, none, none, []⟩

/-- The fabric transaction engine (R308 to R359). -/
structure Flx where
  reqs : List OutReq
  nextTag : BitVec 16
  retired : List (BitVec 16)
  views : SMap PolderView
  wins : SMap Win
  hb : SMap HbStat
  notices : List Txn
  /-- transactions parsed and not yet executed, with their port (R324); port 8 marks a request of the
  polder to itself (R316) -/
  inbound : List (Nat × Txn)
  /-- FSEQ of streams sent and streams received, keyed `polder * 4 + class` -/
  txSeq : SMap (BitVec 8)
  rxs : SMap RxStream
  /-- egress bytes admitted in the window by quota slot -/
  used : SMap Nat
  maps : SMap MapSlot
  /-- transactions sent, newest last -/
  sent : List Txn
  deriving DecidableEq, Repr

def Flx.reset : Flx where
  reqs := []
  nextTag := 0
  retired := []
  views := []
  wins := []
  hb := []
  notices := []
  inbound := []
  txSeq := []
  rxs := []
  used := []
  maps := []
  sent := []

/-- A transfer of the TWN transfer engine (R372): bytes written, bytes of the unit under way, the code it
ends with once that is known. -/
structure Xfer where
  zero : Bool
  coef : Byte
  src : W64
  dst : W64
  len : Nat
  done : Nat
  unit : Nat
  code : Option Status
  ctx : BitVec 16
  deriving DecidableEq, Repr

/-- A relayed fold awaiting its relay write (R370): the member's write and its flag, the relay's tag, whether
the fold is visible, what the relay write has completed with. -/
structure Relay where
  txn : Txn
  deferred : Bool
  tag : BitVec 16
  landed : Bool
  result : Option (Status × Bool)
  deriving DecidableEq, Repr

/-- The Twin block (R362 to R381). -/
structure Twin where
  peer : Option (BitVec 12)
  up : Bool
  lost : W32
  /-- STEP of the last STEP record received -/
  lastStep : W64
  ringIdx : Nat
  rxSeq : W32
  txSeq : W32
  txAck : W32
  step : W64
  stepWait : Bool
  /-- records made and not yet completed, oldest first; whether the oldest is on the wire -/
  records : List (BitVec 512)
  onWire : Bool
  /-- resumes with the next step's records (R367) -/
  silent : Bool
  xf : Option Xfer
  relays : List Relay
  /-- OUT_REJECT counts of the step under way -/
  rejects : Nat
  /-- close status of the channels since the last boundary -/
  closes : SMap Status
  deriving DecidableEq, Repr

def Twin.reset : Twin where
  peer := none
  up := false
  lost := 0
  lastStep := 0
  ringIdx := 0
  rxSeq := 0
  txSeq := 0
  txAck := 0
  step := 0
  stepWait := false
  records := []
  onWire := false
  silent := false
  xf := none
  relays := []
  rejects := 0
  closes := []

end Sys2Proof.Machine
end

