-- ==== Sys2Proof/Machine/PolState.lean ====
section
/-! DEFINITION. The state of the Warden, the Gauge and the Inlet, and one polder whole
(chapters 15, 16 and 18). -/

namespace Sys2Proof.Machine

/-- STATE of the Warden page (R405). -/
inductive WdnSt where
  | running | resetting | recovering | ready | failed | probing
  deriving DecidableEq, Repr

def WdnSt.num : WdnSt → Nat
  | .running => 0 | .resetting => 1 | .recovering => 2 | .ready => 3 | .failed => 4 | .probing => 5

/-- A reset domain with its target (R387). -/
inductive Dom where
  | plot (r : Rect)
  | engine (e : Nat)
  /-- 0 to 3 field, 4 basin -/
  | die (d : Nat)
  | polder
  | power
  deriving DecidableEq, Repr

def Dom.num : Dom → Nat
  | .plot _ => 1 | .engine _ => 2 | .die _ => 3 | .polder => 4 | .power => 5

/-- The target field of WDN_LADDER and WDN_CAUSE. -/
def Dom.target : Dom → Nat
  | .engine e => e
  | .die d => d
  | _ => 0

/-- A reset on the ladder (R389): its rung, whether it waits under R392 or stands CAPPED (R391), its cause
and status code, the telemetry cycle of the rung, and the recoveries that have failed before it (R398). -/
structure Ladder where
  dom : Dom
  waiting : Bool
  capped : Bool
  cause : Nat
  code : Status
  since : Nat
  fails : Nat
  deriving DecidableEq, Repr

/-- A recovery (R397): a die (0 to 3 field, 4 basin) or the polder, its phase 1 to 7, and how many
recoveries have failed before it (R398). -/
structure Recov where
  die : Option Nat
  phase : Nat
  fails : Nat
  /-- the telemetry cycle it began in -/
  since : Nat
  deriving DecidableEq, Repr

/-- A suspect of a probe (R400, R401). -/
structure Suspect where
  ctx : BitVec 16
  batch : List (BitVec 512)
  deriving DecidableEq, Repr

/-- A quarantine entry (R404). -/
structure Quar where
  ctx : BitVec 16
  valid : Bool
  deriving DecidableEq, Repr

/-- A probe (R402): PROBE_STAT state, engine, suspects, the one probed. -/
structure Probe where
  st : Nat
  eng : Nat
  suspects : List Suspect
  at_ : Nat
  overflow : Bool
  /-- the engine's domain is not ready yet; all 16 quarantine entries were taken -/
  armed : Bool
  stuck : Bool
  deriving DecidableEq, Repr

/-- The Warden (R382 to R405). Resets are counted by cell, engine, die and polder: a block's incarnation is
the sum of the counts of the domains that contain it (R394). -/
structure Warden where
  st : WdnSt
  ladders : List Ladder
  /-- resets begun, with the telemetry cycle of it (R392) -/
  recent : List (Dom × Nat)
  recovs : List Recov
  probe : Probe
  quar : SMap Quar
  polderInc : BitVec 4
  dieInc : SMap (BitVec 4)
  cellInc : SMap (BitVec 4)
  engInc : SMap (BitVec 4)
  /-- plots left halted (R385) -/
  halted : List Rect
  cause : W32
  loss : W32
  deriving DecidableEq, Repr

def Probe.idle : Probe := ⟨0, 0, [], 0, false, false, false⟩

def Warden.reset : Warden where
  st := .running
  ladders := []
  recent := []
  recovs := []
  probe := Probe.idle
  quar := []
  polderInc := 0
  dieInc := []
  cellInc := []
  engInc := []
  halted := []
  cause := 0
  loss := 0

/-- A scale entry's live part (R414): exponent in effect, a write held to the boundary, the last 16
step maxima, newest first, the current step's maximum, the position of the history (R424). -/
structure ScaleEnt where
  t : BitVec 8
  newT : Option (BitVec 8)
  hist : List W32
  max : W32
  pos : BitVec 8
  deriving DecidableEq, Repr

def ScaleEnt.reset : ScaleEnt := ⟨0, none, [], 0, 0⟩

/-- A layer entry's live part (R417): in-band ratios, newest first, the out-of-band count and the
action its next update takes. -/
structure LayerEnt where
  hist : List W32
  oob : BitVec 16
  act : Nat
  pos : BitVec 8
  deriving DecidableEq, Repr

def LayerEnt.reset : LayerEnt := ⟨[], 0, 0, 0⟩

/-- An update outcome the Gauge has received since the last boundary (R412). -/
structure Outcome' where
  nonfinite : Bool
  skipStep : Bool
  k : BitVec 5
  deriving DecidableEq, Repr

/-- A Pump's sums for a layer, accumulated over the shards of one update (R280, R417). -/
structure RatioSum where
  ch : Fin 4
  tensor : BitVec 16
  num : BitVec 64
  den : BitVec 64
  nans : Nat
  deriving DecidableEq, Repr

/-- A report of AMXS in the Gauge's inbox (R410). -/
structure AmaxRep where
  cell : Nat
  tensor : BitVec 16
  value : W32
  deriving DecidableEq, Repr

/-- The Gauge (R406 to R426). -/
structure Gauge where
  k : BitVec 5
  clean : BitVec 16
  scales : SMap ScaleEnt
  layers : SMap LayerEnt
  outcomes : List Outcome'
  inbox : List AmaxRep
  ratios : List RatioSum
  /-- designations still to be written, each to its whole rectangle or to reset cells of it (R416) -/
  writes : List (Nat × Option Rect)
  spreads : List W32
  partials : Nat
  bin : BitVec 3
  /-- milliseconds at or below T_LOW, milliseconds since the last bin change (R421) -/
  cool : Nat
  since : Nat
  hottest : Byte
  crit : Bool
  imgWait : Bool
  /-- records accepted and not yet posted to the ring (R407) -/
  queue : List (BitVec 256)
  seq : W32
  deriving DecidableEq, Repr

def Gauge.reset : Gauge where
  k := 0
  clean := 0
  scales := []
  layers := []
  outcomes := []
  inbox := []
  ratios := []
  writes := []
  spreads := []
  partials := 0
  bin := 0
  cool := 0
  since := 10
  hottest := 0
  crit := false
  imgWait := false
  queue := []
  seq := 0

/-- A frame admitted into staging (R453 to R455). -/
structure Staged where
  stream : Fin 16
  session : W32
  offset : Nat
  data : List Byte
  last : Bool
  elastic : Bool
  deriving DecidableEq, Repr

/-- A frame sent and not yet reported delivered (R457). -/
structure OutFrame where
  offset : Nat
  data : List Byte
  first : Bool
  last : Bool
  step : W32
  deriving DecidableEq, Repr

/-- A snapshot's bytes handed over and not yet sent; whether its first frame, its last byte and its ABORT
are still to come (R457, R458). -/
structure OutImage where
  first : Bool
  step : W32
  data : List Byte
  ended : Bool
  abort : Bool
  deriving DecidableEq, Repr

/-- A stream (R450 to R458). -/
structure Stream where
  session : W32
  expect : Nat
  consumed : W64
  delivered : W64
  /-- limit and delivered offset of the last CREDIT sent -/
  creditLimit : Nat
  creditDone : Nat
  defer : Bool
  /-- offsets for which a NACK was sent within 10 µs -/
  nacked : List Nat
  used : Nat
  /-- OUT: next offset to send, the peer's limit, snapshots to send, frames in flight and to be sent again -/
  next : Nat
  limit : Nat
  images : List OutImage
  flying : List OutFrame
  again : List OutFrame
  deriving DecidableEq, Repr

def Stream.reset : Stream where
  session := 0
  expect := 0
  consumed := 0
  delivered := 0
  creditLimit := 0
  creditDone := 0
  defer := false
  nacked := []
  used := 0
  next := 0
  limit := 0
  images := []
  flying := []
  again := []

/-- A frame the port sends. -/
structure InlFrame where
  type : Nat
  flags : Nat
  stream : Nat
  status : Status
  session : W32
  offset : Nat
  limit : Nat
  step : W32
  data : List Byte
  deriving DecidableEq, Repr

/-- The Inlet (R446 to R459). -/
structure Inlet where
  up : Bool
  cause : Nat
  streams : SMap Stream
  staging : List Staged
  paused : BitVec 8
  xoff : BitVec 8
  out : List InlFrame
  pfcOut : List (BitVec 8 × BitVec 16)
  deriving DecidableEq, Repr

def Inlet.reset : Inlet := ⟨false, 0, [], [], 0, 0, [], []⟩

/-- Work held while a commit is pending (R443). -/
inductive HeldOp where
  | issue (words : List W32) (o : Origin)
  | pipe (table : W64) (o : Origin)
  | arm (ch : Fin 4) (table : W64) (o : Origin)
  | winOpen (o : WinFrom)
  | mapActivate (slot : Nat) (o : Origin)
  | edit (words : List W32) (o : Origin)
  | range (op : Nat)
  deriving DecidableEq, Repr

/-- A keeper command that has ended in a polder, on its way to its completion queue (R433). -/
structure CmdEnd where
  slot : Fin 64
  tag : BitVec 16
  status : Status
  deferred : Bool
  result : W64
  deriving DecidableEq, Repr

/-- One polder. Registers without a structured home are kept by
`offset + 2^26 * place`, place 0 for a plain register, `1 + i` for a selected entry i. -/
structure Polder where
  regs : SMap W32
  /-- low halves in effect of _LO/_HI pairs, and captured reads (R509, R516) -/
  effLo : SMap W32
  captured : SMap W32
  /-- schedule cycle since polder reset, which HOLD stops, and the field clock, which it does not -/
  cycle : Nat
  field : Nat
  grid : Grid
  engines : SMap Eng
  mem : Mem
  chans : SMap Chan
  ports : SMap Port
  flx : Flx
  twin : Twin
  wdn : Warden
  gauge : Gauge
  inlet : Inlet
  /-- dies whose pages Varore has not restored: 0 to 3 field, 4 basin, 5 sluice (R508) -/
  unrestored : List Nat
  held : List HeldOp
  hostHold : Bool
  stepHold : Bool
  /-- the contexts held for a probe (R402) -/
  heldCtx : List (BitVec 16)
  /-- keeper commands that have ended here and are not posted yet -/
  ended : List CmdEnd
  /-- writes to server memory on their way through the host-tier bridge (R252) -/
  hostOut : List (W64 × List Byte)
  deriving DecidableEq, Repr

end Sys2Proof.Machine
end

