-- ==== Sys2Proof/Machine/ModState.lean ====
section
/-! DEFINITION. The state of the keeper die and the module (chapters 17, 19 and 20). Readings and choices: log
6. Readings and choices: log 6. -/

namespace Sys2Proof.Machine

/-- Where a fetched command stands (R435, R436). -/
inductive CmdPhase where
  /-- fetched and admitted above the guarantee: waits for every command within a guarantee -/
  | waiting
  /-- held by a keeper reset, a commit or a probe; `dispatched` says it was under way already -/
  | held (dispatched : Bool)
  | ready
  /-- COMMAND_DISPATCH has passed it and its own effect may run -/
  | dispatched
  /-- under way in a polder or in the keeper -/
  | running
  deriving DecidableEq, Repr

/-- A command outstanding (R432). -/
structure Cmd where
  tag : BitVec 16
  entry : BitVec 1024
  ctx : BitVec 16
  phase : CmdPhase
  deferred : Bool
  /-- the submission head after it (R433) -/
  sqh : BitVec 12
  deriving DecidableEq, Repr

/-- A context slot's queues (R431). -/
structure Slot where
  sqHead : BitVec 12
  sqTail : BitVec 12
  cqHead : BitVec 12
  cqTail : BitVec 12
  phase : Bool
  cmds : List Cmd
  stalled : Bool
  /-- completions a full ring keeps from being posted, with the submission head after each, oldest first (R431) -/
  unposted : List (CmdEnd × BitVec 12)
  deriving DecidableEq, Repr

def Slot.reset : Slot := ⟨0, 0, 0, 0, true, [], false, []⟩

/-- A completion entry posted (R433). -/
structure Completion where
  slot : Fin 64
  place : Nat
  tag : BitVec 16
  status : Status
  phase : Bool
  deferred : Bool
  sqHead : BitVec 12
  result : W64
  deriving DecidableEq, Repr

/-- A configuration image (R440): its number and its registers by `cfgKey`; what it does not list
holds its reset value. -/
structure Image where
  gen : W32
  vals : SMap W32
  deriving DecidableEq, Repr

/-- A commit under way (R443). -/
structure Commit where
  rollback : Bool
  origin : Option (Fin 64 × BitVec 16)
  deriving DecidableEq, Repr

/-- A firmware image in a boot-flash slot (R468): its header and body bytes. -/
structure FwImage where
  bytes : List Byte
  deriving DecidableEq, Repr

/-- The fuse map (R460). Repair fields by place: bypass, spare rows and bins. -/
structure Fuses where
  protMap : BitVec 96
  debugLock : Bool
  fieldLock : Bool
  fwKey : BitVec 384
  arb : BitVec 64
  serial : BitVec 64
  /-- 97-byte public identity key, byte 0 in [7:0] -/
  pubKey : BitVec 776
  /-- spare rows by polder * 40960 + cell, fused ceiling bin by polder, MAC address by polder -/
  repair : SMap W32
  bins : SMap (BitVec 3)
  macs : SMap (BitVec 48)
  deriving DecidableEq, Repr

/-- The standard protection map (R465): a blown bit denies. -/
def standardProtMap : BitVec 96 :=
  -- requester 1: writes to PLATFORM and SECURITY; 2: writes to HEALTH, all of 4 to 7;
  -- 3: GRID, writes to HEALTH, all of 4 to 7; 4: all but writes to MEMORY; 5: nothing
  (BitVec.ofNat 96 0x0000FFF7FF83FF80A0000000 : BitVec 96)

/-- Fuses of a standard part; fields the manual gives no value for are zero (log 6). -/
def Fuses.standard : Fuses where
  protMap := standardProtMap
  debugLock := false
  fieldLock := false
  fwKey := 0
  arb := 0
  serial := 0
  pubKey := 0
  repair := []
  bins := []
  macs := []

/-- Rail state of a polder group (R491). -/
inductive Rail where
  | off | ramping | on | fault
  deriving DecidableEq, Repr

def Rail.num : Rail → Nat
  | .off => 0 | .ramping => 1 | .on => 2 | .fault => 3

/-- How far the module is from its input (R481, R484). -/
inductive Power where
  /-- no input, reversed, or below range -/
  | off
  /-- hot-swap charge under way -/
  | charging
  /-- MOD_PWROK asserted, MOD_RESET_N low -/
  | modReset
  /-- MOD_RESET_N high -/
  | on
  /-- the electronic breaker is open -/
  | tripped
  deriving DecidableEq, Repr

/-- Where the keeper die stands (R437, R439, R469, R484). -/
inductive KeeperSt where
  | down | booting | ready | noImage
  deriving DecidableEq, Repr

/-- The keeper die and the module. -/
structure Module where
  regs : SMap W32
  effLo : SMap W32
  captured : SMap W32
  power : Power
  keeper : KeeperSt
  /-- a keeper reset in progress holds commands and HOST_HOLD -/
  kreset : Bool
  hostHold : Bool
  slots : SMap Slot
  images : SMap FwImage
  running : Bool
  fallback : Bool
  /-- slot a boot tries, whether the other has been tried -/
  bootOther : Bool
  kresets : Byte
  loading : Option (Fin 64 × BitVec 16)
  active : Image
  previous : Option Image
  staged : Option Image
  sealed : Bool
  cfgNext : W32
  commit : Option Commit
  fuses : Fuses
  /-- values sensed at the last module reset (R461) -/
  sensed : Fuses
  blow : Option (Nat × Nat)
  debugUsed : Bool
  rails : SMap Rail
  offBy : BitVec 4
  perst : BitVec 2
  twinSense : Bool
  temps : SMap Byte
  peaks : SMap Byte
  journals : SMap (List (BitVec 256))
  /-- the keeper's copy of the polder incarnations (R394) -/
  incCopy : SMap (BitVec 4)
  /-- what has gone out to the server: MSI-X entries, completions, writes to server memory -/
  msix : List Nat
  completions : List Completion
  hostWrites : List (W64 × List Byte)
  /-- answers to direct register reads of the server and the debug port, newest last (R393, R428, R466) -/
  replies : List HostReply
  deriving DecidableEq, Repr

end Sys2Proof.Machine
end

