-- ==== Sys2Proof/Machine/State.lean ====
section
/-! DEFINITION. The whole machine: the queue of waiting commands, the module, its four polders, and the
reasons a step can stop. Readings and choices: log 1, 6. -/

namespace Sys2Proof.Machine

/-- The four polders (R13). -/
structure Quad where
  p0 : Polder
  p1 : Polder
  p2 : Polder
  p3 : Polder
  deriving DecidableEq, Repr

/-- The machine. -/
structure State where
  /-- commands waiting, first in, first out -/
  pending : List Instr
  /-- the model's own counter behind the free values (log 4) -/
  free : Nat
  /-- telemetry cycles since module power-on (R408) -/
  ticks : Nat
  mod : Module
  pols : Quad
  deriving DecidableEq, Repr

/-- Why a step stops with a fault. -/
inductive Fault where
  /-- Raised by `exec` on a command whose operands no wire, bus or pin can carry (`Instr.wf` is
  false): there is no such event. Safe: nothing is claimed about it. -/
  | illFormed
  deriving DecidableEq, Repr

/-- Why a command is refused. -/
inductive Refusal where
  /-- Raised by `exec` for a command that has no meaning in the model yet. Safe. -/
  | notModelled (mnemonic : String)
  deriving DecidableEq, Repr

/-- A polder after polder power-on before its recovery: every register at its reset value. -/
def Polder.reset : Polder where
  regs := []
  effLo := []
  captured := []
  cycle := 0
  field := 0
  grid := Grid.reset
  engines := []
  mem := Mem.reset
  chans := []
  ports := []
  flx := Flx.reset
  twin := Twin.reset
  wdn := Warden.reset
  gauge := Gauge.reset
  inlet := Inlet.reset
  unrestored := [0, 1, 2, 3, 4, 5]
  held := []
  hostHold := false
  stepHold := false
  heldCtx := []
  ended := []
  hostOut := []

/-- The keeper die and the module in module reset (R484 step 3, R485), as the input first rises:
every rail off, generation 0 ACTIVE (R440), CFG_NEXT 1, boot flash empty. -/
def Module.reset : Module where
  regs := []
  effLo := []
  captured := []
  power := .modReset
  keeper := .down
  kreset := false
  hostHold := false
  slots := []
  images := []
  running := false
  fallback := false
  bootOther := false
  kresets := 0
  loading := none
  active := ⟨0, []⟩
  previous := none
  staged := none
  sealed := false
  cfgNext := 1
  commit := none
  fuses := Fuses.standard
  sensed := Fuses.standard
  blow := none
  debugUsed := false
  rails := []
  offBy := 0
  perst := 3
  twinSense := true
  temps := []
  peaks := []
  journals := []
  incCopy := []
  msix := []
  completions := []
  hostWrites := []
  replies := []

/-- The machine right after reset. -/
def State.reset : State where
  pending := []
  free := 0
  ticks := 0
  mod := Module.reset
  pols := ⟨Polder.reset, Polder.reset, Polder.reset, Polder.reset⟩

end Sys2Proof.Machine
end

