-- ==== Sys2Proof/Machine/Regs.lean ====
section
/-! DEFINITION. Stored registers, page headers and events (R505 to R521), configuration images, and the
wrappers through which every command changes a polder or the module. Readings and choices: log 15. -/

namespace Sys2Proof.Machine

/-- A page: its block, instance, directory index and base offset. -/
structure Page where
  blk : Blk
  inst : Nat
  dir : Nat
  base : Nat
  deriving DecidableEq, Repr

/-- The page of a polder's BAR0 that holds an offset (R521). -/
def polPage (off : Nat) : Option Page :=
  let pg := off / 0x1000
  let base := pg * 0x1000
  if off < 0x5000 then
    (([Blk.wdn, .gau, .grd, .twn, .cfgP] : List Blk)[pg]?).map fun b => ⟨b, 0, pg, base⟩
  else if 0x1000000 ≤ off && off < 0x2000000 then
    let d := (off - 0x1000000) / 0x400000
    let r := (off - 0x1000000) % 0x400000 / 0x1000
    if r < 2 then some ⟨.sem, 2 * d + r, 5 + 20 * d + r, base⟩
    else if 0x10 ≤ r && r < 0x18 then some ⟨.int, 8 * d + (r - 0x10), 7 + 20 * d + (r - 0x10), base⟩
    else if 0x18 ≤ r && r < 0x20 then some ⟨.out, 8 * d + (r - 0x18), 15 + 20 * d + (r - 0x18), base⟩
    else if 0x20 ≤ r && r < 0x22 then some ⟨.hbc, 2 * d + (r - 0x20), 23 + 20 * d + (r - 0x20), base⟩
    else none
  else if 0x2000000 ≤ off && off < 0x2800000 then
    let r := (off - 0x2000000) / 0x1000
    if r = 0 then some ⟨.flx0, 0, 85, base⟩
    else if r = 1 then some ⟨.flx1, 1, 86, base⟩
    else if r = 2 then some ⟨.flx2, 2, 87, base⟩
    else if r = 3 then some ⟨.inl, 0, 88, base⟩
    else if 0x10 ≤ r && r < 0x18 then some ⟨.flp, r - 0x10, 89 + (r - 0x10), base⟩
    else if 0x20 ≤ r && r < 0x26 then some ⟨.lne, r - 0x20, 97 + (r - 0x20), base⟩
    else if 0x30 ≤ r && r < 0x36 then some ⟨.ucl, r - 0x30, 103 + (r - 0x30), base⟩
    else none
  else if 0x2800000 ≤ off && off < 0x4000000 then
    let r := (off - 0x2800000) / 0x1000
    if r = 0 then some ⟨.spw, 0, 109, base⟩
    else if r = 1 then some ⟨.spwKv, 1, 110, base⟩
    else if r = 4 then some ⟨.pmp, 0, 111, base⟩
    else if 0x10 ≤ r && r < 0x20 then some ⟨.lpc, r - 0x10, 112 + (r - 0x10), base⟩
    else if r = 0x20 then some ⟨.htb, 0, 128, base⟩
    else none
  else none

/-- The page of the keeper MMIO that holds an offset (R521). -/
def modPage (off : Nat) : Option Page :=
  if off < 0x10000000 || 0x10007000 ≤ off then none
  else
    let i := (off - 0x10000000) / 0x1000
    (([Blk.sec, .fus, .pwr, .clk, .cfgM, .kq, .thm] : List Blk)[i]?).map fun b =>
      ⟨b, 0, i, 0x10000000 + 0x1000 * i⟩

/-- Bases of pages named in the code (R521). -/
abbrev WDN : Nat := 0x0000
abbrev GAU : Nat := 0x1000
abbrev GRD : Nat := 0x2000
abbrev TWN : Nat := 0x3000
abbrev CFGP : Nat := 0x4000
abbrev FLX0 : Nat := 0x2000000
abbrev FLX1 : Nat := 0x2001000
abbrev FLX2 : Nat := 0x2002000
abbrev INL : Nat := 0x2003000
abbrev SPW : Nat := 0x2800000
abbrev SPWKV : Nat := 0x2801000
abbrev PMP : Nat := 0x2804000
abbrev HTB : Nat := 0x2820000
def FLP (p : Nat) : Nat := 0x2010000 + 0x1000 * p
def LNE (g : Nat) : Nat := 0x2020000 + 0x1000 * g
def UCL (u : Nat) : Nat := 0x2030000 + 0x1000 * u
def LPC (i : Nat) : Nat := 0x2810000 + 0x1000 * i
def SEMP (i : Nat) : Nat := 0x1000000 + 0x400000 * (i / 2) + 0x1000 * (i % 2)
def HBC (stack : Nat) : Nat := 0x1000000 + 0x400000 * (stack / 2) + 0x20000 + 0x1000 * (stack % 2)
/-- The page of an engine, by `EngId.key` (R203). -/
def ENGP (e : Nat) : Nat :=
  0x1000000 + 0x400000 * (e / 16) + (if e % 16 < 8 then 0x10000 else 0x18000) + 0x1000 * (e % 8)
abbrev SEC : Nat := 0x10000000
abbrev FUS : Nat := 0x10001000
abbrev PWR : Nat := 0x10002000
abbrev CLK : Nat := 0x10003000
abbrev CFGM : Nat := 0x10004000
abbrev KQ : Nat := 0x10005000
abbrev THM : Nat := 0x10006000

/-- The reset value of a location of a page (R505, R519). -/
def Blk.resetOf (b : Blk) (o : Nat) : Nat :=
  if o = 0x0C then b.ctrlReset
  else if o = 0x24 then 0x1F00
  else match b.find o with
    | some r => r.reset
    | none => 0

/-- A polder register's reset value, by storage key. -/
def polDefault (key : Nat) : W32 :=
  let off := key % 2 ^ 26
  match polPage off with
  | some p => BitVec.ofNat 32 (p.blk.resetOf (off % 0x1000))
  | none => 0

/-- A module register's reset value, by storage key `offset + 2^32 * place`. -/
def modDefault (key : Nat) : W32 :=
  let off := key % 2 ^ 32
  match modPage off with
  | some p => BitVec.ofNat 32 (p.blk.resetOf (off % 0x1000))
  | none => 0

/-- A cell register's reset value. -/
def celDefault (key : Nat) : W32 := BitVec.ofNat 32 (Blk.cel.resetOf key)

/-- A stored register of a polder; place 0 for a plain one. -/
def Polder.rd (p : Polder) (off : Nat) (place : Nat := 0) : W32 :=
  SMap.get polDefault p.regs (off + 2 ^ 26 * place)

/-- Store a register of a polder. -/
def Polder.wr (p : Polder) (off : Nat) (v : W32) (place : Nat := 0) : Polder :=
  { p with regs := SMap.set polDefault p.regs (off + 2 ^ 26 * place) v }

def Polder.rdN (p : Polder) (off : Nat) (place : Nat := 0) : Nat := (p.rd off place).toNat

def Module.rd (m : Module) (off : Nat) (place : Nat := 0) : W32 :=
  SMap.get modDefault m.regs (off + 2 ^ 32 * place)

def Module.wr (m : Module) (off : Nat) (v : W32) (place : Nat := 0) : Module :=
  { m with regs := SMap.set modDefault m.regs (off + 2 ^ 32 * place) v }

def Cell.rd (c : Cell) (off : Nat) : W32 := SMap.get celDefault c.regs off

def Cell.wr (c : Cell) (off : Nat) (v : W32) : Cell :=
  { c with regs := SMap.set celDefault c.regs off v }

/-- A pair of registers as one value, the low half being the one in effect (R516). -/
def Polder.pair (p : Polder) (lo : Nat) (place : Nat := 0) : W64 :=
  p.rd (lo + 4) place ++ SMap.get polDefault p.effLo (lo + 2 ^ 26 * place)

/-- A field of a register replaced. -/
def setField (w : W32) (lo width : Nat) (v : Nat) : W32 :=
  let m : W32 := BitVec.ofNat 32 ((2 ^ width - 1) <<< lo)
  (w &&& ~~~m) ||| (BitVec.ofNat 32 ((v % 2 ^ width) <<< lo))

/-- A saturating count in a field of a register (R518). -/
def addField (w : W32) (lo width n : Nat) : W32 :=
  setField w lo width (satAdd width (bitsN w lo width) n)

/-- Count in a polder register; the whole register by default (R518). -/
def Polder.count (p : Polder) (off n : Nat) (lo : Nat := 0) (width : Nat := 32) (place : Nat := 0) : Polder :=
  p.wr off (addField (p.rd off place) lo width n) place

def Module.count (m : Module) (off n : Nat) (lo : Nat := 0) (width : Nat := 32) (place : Nat := 0) : Module :=
  m.wr off (addField (m.rd off place) lo width n) place

def Cell.count (c : Cell) (off n : Nat) (lo : Nat := 0) (width : Nat := 32) : Cell :=
  c.wr off (addField (c.rd off) lo width n)

/-- Hardware sets an EVENT bit, and EVENT_COUNT advances (R511). -/
def Polder.raise (p : Polder) (page bit : Nat) : Polder :=
  (p.wr (page + 0x14) (p.rd (page + 0x14) ||| BitVec.ofNat 32 (2 ^ bit))).count (page + 0x20) 1 0 16

def Module.raise (m : Module) (page bit : Nat) : Module :=
  (m.wr (page + 0x14) (m.rd (page + 0x14) ||| BitVec.ofNat 32 (2 ^ bit))).count (page + 0x20) 1 0 16

def Cell.raise (c : Cell) (bit : Nat) : Cell :=
  (c.wr 0x14 (c.rd 0x14 ||| BitVec.ofNat 32 (2 ^ bit))).count 0x20 1 0 16

/-- ERR_CODE of R509. -/
def errWord (code : Status) (ev kind src : Nat) : W32 :=
  BitVec.ofNat 32 (code.toNat + ev * 2 ^ 8 + src % 4096 * 2 ^ 16 + kind * 2 ^ 28 + 2 ^ 31)

/-- A block records an error (R509); `ev` is 31 for none. -/
def Polder.recordErr (p : Polder) (page : Nat) (code : Status) (ev kind src : Nat) (addr : W64) : Polder :=
  ((p.wr (page + 0x24) (errWord code ev kind src)).wr (page + 0x28) (bits addr 0 32)).wr (page + 0x2C)
    (bits addr 32 32)

def Module.recordErr (m : Module) (page : Nat) (code : Status) (ev kind src : Nat) (addr : W64) : Module :=
  ((m.wr (page + 0x24) (errWord code ev kind src)).wr (page + 0x28) (bits addr 0 32)).wr (page + 0x2C)
    (bits addr 32 32)

def Cell.recordErr (c : Cell) (code : Status) (ev : Nat) (addr : Nat) : Cell :=
  ((c.wr 0x24 (errWord code ev 1 0)).wr 0x28 (BitVec.ofNat 32 addr)).wr 0x2C 0

/-- A page is pending while EVENT AND EVENT_EN is not zero (R513). -/
def Polder.pending (p : Polder) (page : Nat) : Bool := p.rd (page + 0x14) &&& p.rd (page + 0x18) != 0

def Module.pending (m : Module) (page : Nat) : Bool := m.rd (page + 0x14) &&& m.rd (page + 0x18) != 0

def Cell.pending (c : Cell) : Bool := c.rd 0x14 &&& c.rd 0x18 != 0

/-- The pages of a polder with a listed EVENT register, by base; no other page can be pending. -/
def Polder.eventPages (p : Polder) : List Nat :=
  p.regs.filterMap fun e => if e.1 % 0x1000 = 0x14 && e.1 < 2 ^ 26 then some (e.1 - 0x14) else none

/-- Keys of the pending cell pages, in row-major order. -/
def Polder.pendingCells (p : Polder) : List Nat :=
  p.grid.cells.filterMap fun e => if e.2.pending then some e.1 else none

/-- A polder's summary (R513). -/
def Polder.summary (p : Polder) : Bool :=
  (p.eventPages.any p.pending) || !p.pendingCells.isEmpty

/-- The module's summary (R513). -/
def Module.summary (m : Module) : Bool := [SEC, FUS, PWR, CLK, CFGM, KQ, THM].any m.pending

def Quad.get (q : Quad) : Pid → Polder
  | 0 => q.p0 | 1 => q.p1 | 2 => q.p2 | 3 => q.p3

def Quad.set (q : Quad) (p : Pid) (v : Polder) : Quad :=
  match p with
  | 0 => { q with p0 := v }
  | 1 => { q with p1 := v }
  | 2 => { q with p2 := v }
  | 3 => { q with p3 := v }

/-- A polder of the machine. -/
def State.pol (s : State) (p : Pid) : Polder := s.pols.get p

/-- Post an MSI-X entry (R513). -/
def Module.sendMsix (m : Module) (n : Nat) : Module := { m with msix := m.msix ++ [n] }

/-- The key of an RWS register in a configuration image: polder 0 to 3, or 4 for the module. -/
def cfgKey (p off idx : Nat) : Nat := (p * 2 ^ 29 + off) * 2 ^ 13 + idx

/-- The reset value of an RWS register by `cfgKey` (generation 0, R440). -/
def cfgDefault (key : Nat) : W32 :=
  let off := key / 2 ^ 13 % 2 ^ 29
  let d := if key / 2 ^ 42 = 4 then modDefault off else polDefault off
  -- slot 0 of the command queues is bound to context 0 (R429)
  if key = cfgKey 4 (KQ + 0x44) 0 then 0 else d

def Image.get (i : Image) (p off : Nat) (idx : Nat := 0) : W32 := SMap.get cfgDefault i.vals (cfgKey p off idx)

def Image.set (i : Image) (p off idx : Nat) (v : W32) : Image :=
  { i with vals := SMap.set cfgDefault i.vals (cfgKey p off idx) v }

/-- The generation 0 image (R440). -/
def Image.zero : Image := ⟨0, []⟩

/-- The die a page's reset and restore follow: 0 to 3 field, 4 basin, 5 the rest (R508, R519). -/
def pageDie (off : Nat) : Nat :=
  if 0x1000000 ≤ off && off < 0x2000000 then (off - 0x1000000) / 0x400000
  else if 0x2800000 ≤ off then 4
  else 5

/-- An RWS register as its page applies it: the ACTIVE value once Varore has restored the page, its
reset value before (R8, R508). -/
def State.cfg (s : State) (p : Pid) (off : Nat) (idx : Nat := 0) : W32 :=
  if (s.pol p).unrestored.contains (pageDie off) then cfgDefault (cfgKey p.val off idx)
  else s.mod.active.get p.val off idx

/-- A module RWS register in effect. -/
def Module.cfg (m : Module) (off : Nat) (idx : Nat := 0) : W32 := m.active.get 4 off idx

end Sys2Proof.Machine
end

