-- ==== Sys2Proof/Machine/Flags.lean ====
section
/-! DEFINITION. Faults of a cell and the flags they raise (R53, R57, R60, R63). Readings and choices: log 16.
-/

namespace Sys2Proof.Machine

/-- EVENT bits of a cell (R65). -/
abbrev evHalted : Nat := 0
abbrev evDataUnc : Nat := 1
abbrev evReplay : Nat := 2
abbrev evSemOverflow : Nat := 3
abbrev evSlotLate : Nat := 4
abbrev evIllegalOp : Nat := 5
abbrev evNonfinite : Nat := 6
abbrev evAddrFault : Nat := 7

/-- A fault of a cell: status code, EVENT bit, local address (R63). `ev` is 31 where no bit is named. -/
structure CFault where
  code : Status
  ev : Nat
  addr : Nat
  deriving DecidableEq, Repr

def CFault.illegal : CFault := ⟨Status.internal, evIllegalOp, 0⟩
def CFault.address (a : Nat) : CFault := ⟨Status.addressInvalid, evAddrFault, a % 2 ^ 17⟩
def CFault.dataUnc (a : Nat) : CFault := ⟨Status.dataUncorrectable, evDataUnc, a % 2 ^ 17⟩
def CFault.steerLate : CFault := ⟨Status.steerLate, evSlotLate, 0⟩

/-- The cell faults (R63): it stops issuing, its ports stop at their next beat, and the fault is
recorded. What it holds stays until it is reset, so a cell that has faulted keeps its first fault. -/
def Cell.fault (c : Cell) (f : CFault) (pc : BitVec 10) : Cell :=
  if c.st = .faulted then c else
  let c := if f.ev = 31 then c else c.raise f.ev
  let c := c.recordErr f.code f.ev f.addr
  { c.wr 0x90 (pc.setWidth 32) with
    st := .faulted, run := false, startAt := none, drain := .none, ports := [], portQ := none
    sync := match c.sync with
      | some (.amxs t v) => some (.amxs t v)
      | _ => none
    syncQ := none }

/-- CEL_NONFINITE counts non-finite results and NONFINITE is raised; a shadow run counts none (R60, R62). -/
def Cell.countNonfinite (c : Cell) (n : Nat) : Cell :=
  if n = 0 || c.shadow then c else (c.count 0x80 n).raise evNonfinite

/-- A replay that read clean data (R53). -/
def Cell.countReplay (c : Cell) : Cell := (c.count 0x84 1 0 16).raise evReplay

/-- A read whose replay failed too (R53). -/
def Cell.countDouble (c : Cell) : Cell := c.count 0x84 1 16 16

/-- Fold a finite magnitude into an amax register (R60, R62). -/
def Cell.foldInto (c : Cell) (k : Nat) (w : W32) : Cell :=
  if c.shadow then c
  else { c with amax := SMap.set (fun _ => 0) c.amax k (foldAmax (SMap.get (fun _ => 0) c.amax k) w) }

end Sys2Proof.Machine
end

