-- ==== Sys2Proof/Machine/Ops.lean ====
section
/-! DEFINITION. The named operations over a cell's registers, scratchpad, accumulator and gather buffer (R25,
R26, R50 to R54, R62). An operation may end in a fault of the cell (R63). Readings and choices: log 7, 16. -/

namespace Sys2Proof.Machine

/-- An operation on a cell that may fault; what it did before the fault stays (R63). -/
abbrev CellM := EStateM CFault Cell

/-- A general register; g0 reads as zero (R25). -/
def Cell.getG (c : Cell) (r : BitVec 5) : W64 :=
  if r = 0 then 0 else SMap.get (fun _ => 0) c.g r.toNat

/-- Write a general register; g0 ignores writes (R25). -/
def Cell.setG (c : Cell) (r : BitVec 5) (v : W64) : Cell :=
  if r = 0 then c else { c with g := SMap.set (fun _ => 0) c.g r.toNat v }

/-- A loop counter (R25). -/
def Cell.getCnt (c : Cell) (k : BitVec 3) : BitVec 16 := SMap.get (fun _ => 0) c.cnt k.toNat

def Cell.setCnt (c : Cell) (k : BitVec 3) (v : BitVec 16) : Cell :=
  { c with cnt := SMap.set (fun _ => 0) c.cnt k.toNat v }

/-- A semaphore (R25). -/
def Cell.sem (c : Cell) (k : Nat) : Nat := (SMap.get (fun _ => (0 : Byte)) c.sems k).toNat

def Cell.setSem (c : Cell) (k v : Nat) : Cell :=
  { c with sems := SMap.set (fun _ => (0 : Byte)) c.sems k (BitVec.ofNat 8 v) }

/-- An accumulator entry by index, 64 a tile (R26). -/
def Cell.getAcc (c : Cell) (e : Nat) : W32 := SMap.get (fun _ => 0) c.acc e

def Cell.setAcc (c : Cell) (e : Nat) (v : W32) : Cell :=
  { c with acc := SMap.set (fun _ => 0) c.acc e v, upset := SMap.erase c.upset (4096 + e) }

/-- The checks of R26 and R526 for `len` bytes at `a`, aligned to `al`, with elements of `ew` bytes. -/
def addrOk (a len al ew : Nat) : Bool :=
  a % al == 0 && (a + len ≤ 0x10000 || (0x10000 ≤ a && a + len ≤ 0x14000 && 4 ≤ ew))

/-- Refuse an address that fails `addrOk` (R26). -/
def needAddr (a len al ew : Nat) : CellM Unit :=
  if addrOk a len al ew then pure () else throw (CFault.address a)

/-- A replay or a double failure at a parity-protected place (R53, R54): `true` to go on. -/
def parityAt (key : Nat) : CellM Bool := do
  let c ← get
  match SMap.find? c.upset key with
  | none => pure true
  | some false => do
    set { c.countReplay with upset := SMap.erase c.upset key }
    pure true
  | some true => do
    set c.countDouble
    pure false

/-- The bytes of a scratchpad unit as a list (R6). -/
def unitBytes (w : BitVec 128) : List Byte := bytesOf w 16

/-- Bytes put over others where they are present. -/
def overlay : List (Option Byte) → List Byte → List Byte
  | some b :: r, _ :: o => b :: overlay r o
  | none :: r, x :: o => x :: overlay r o
  | [], o => o
  | _ :: _, [] => []

/-- Read a scratchpad unit; an invalid one reads as zero, unchecked (R50, R53). -/
def readUnit (u : Nat) (at_ : Nat) : CellM (List Byte) := do
  let c ← get
  match SMap.find? c.spad u with
  | none => pure (List.replicate 16 0)
  | some w => do
    if ← parityAt u then pure (unitBytes w) else throw (CFault.dataUnc at_)

/-- Write bytes of a unit; an invalid unit's other bytes are written as zero, and a write of all 16
bytes removes a parity error (R50, R53). -/
def Cell.putUnit (c : Cell) (u : Nat) (bs : List (Option Byte)) : Cell :=
  let old := SMap.find? c.spad u
  let full := old.isNone || bs.all Option.isSome
  let base := match old with
    | some w => unitBytes w
    | none => List.replicate 16 0
  { c with
    spad := SMap.insert c.spad u (wordOf 128 (overlay bs base))
    upset := if full then SMap.erase c.upset u else c.upset }

/-- Flush a gather-buffer entry: a read-modify-write of a valid word, a write of an invalid one; a read
that fails twice writes zeros for the other bytes, and the cell faults (R52, R53). -/
def flushEntry (e : GatherEntry) : CellM Unit := do
  modify fun c => { c with gather := c.gather.filter fun x => x.unit ≠ e.unit }
  let c ← get
  if (SMap.find? c.spad e.unit).isSome then
    if ← parityAt e.unit then modify fun c => c.putUnit e.unit e.bytes
    else
      modify fun c => c.putUnit e.unit (e.bytes.map fun b => some (b.getD 0))
      throw (CFault.dataUnc (16 * e.unit))
  else modify fun c => c.putUnit e.unit e.bytes

/-- Flush the entry of a unit, if the gather buffer holds one (R52). -/
def settleUnit (u : Nat) : CellM Unit := do
  match (← get).gather.find? (fun e => e.unit == u) with
  | some e => flushEntry e
  | none => pure ()

/-- Flush every entry, oldest first (R52). -/
def flushAll : CellM Unit := do (← get).gather.forM flushEntry

/-- Units that `len` scratchpad bytes at `a` touch. -/
def unitsOf (a len : Nat) : List Nat :=
  if len = 0 then [] else (List.range ((a + len - 1) / 16 + 1 - a / 16)).map fun k => a / 16 + k

/-- Read accumulator entries from index `e` (R54). -/
def readAccs (e n : Nat) : CellM (List W32) :=
  (List.range n).mapM fun k => do
    if ← parityAt (4096 + e + k) then pure ((← get).getAcc (e + k))
    else throw (CFault.dataUnc (0x10000 + 4 * (e + k)))

/-- Read `len` bytes at a checked address (R50 to R54). -/
def readBytes (a len : Nat) : CellM (List Byte) :=
  if a < 0x10000 then do
    let us ← (unitsOf a len).mapM fun u => do
      settleUnit u
      readUnit u (max a (16 * u))
    pure ((us.flatten.drop (a % 16)).take len)
  else do
    let e := (a - 0x10000) / 4
    let ws ← readAccs e ((a % 4 + len + 3) / 4)
    pure (((ws.flatMap fun w => bytesOf w 4).drop (a % 4)).take len)

/-- The bytes of `bs`, written from address `a`, that fall in unit `u`. -/
def sliceFor (a : Nat) (bs : List Byte) (u : Nat) : List (Option Byte) :=
  (List.range 16).map fun k =>
    let x := 16 * u + k
    if x < a then none else bs[x - a]?

/-- The bytes that replace accumulator entry `e`. -/
def mergeWord (w : W32) (a : Nat) (bs : List Byte) (base : Nat) : W32 :=
  wordOf 32 (overlay ((List.range 4).map fun k =>
    let x := base + k
    if x < a then none else bs[x - a]?) (bytesOf w 4))

/-- Write bytes at a checked address (R50, R52). -/
def putBytes (a : Nat) (bs : List Byte) : CellM Unit :=
  if a < 0x10000 then
    (unitsOf a bs.length).forM fun u => do
      settleUnit u
      modify fun c => c.putUnit u (sliceFor a bs u)
  else
    (List.range ((a % 4 + bs.length + 3) / 4)).forM fun k =>
      let e := (a - 0x10000) / 4 + k
      modify fun c => c.setAcc e (mergeWord (c.getAcc e) a bs (0x10000 + 4 * e))

/-- A write that a shadow run suppresses (R62). -/
def writeBytes (a : Nat) (bs : List Byte) : CellM Unit := do
  if (← get).shadow then pure () else putBytes a bs

/-- A change that a shadow run suppresses (R62). -/
def modifyLive (f : Cell → Cell) : CellM Unit := modify fun c => if c.shadow then c else f c

/-- A store of 1, 2 or 4 bytes into the gather buffer (R52). -/
def gatherStore (a : Nat) (bs : List Byte) : CellM Unit := do
  let u := a / 16
  let c ← get
  match c.gather.find? (fun e => e.unit == u) with
  | some _ =>
    set { c with gather := c.gather.map fun (e : GatherEntry) =>
      if e.unit = u then
        { e with bytes := (List.range 16).map fun k =>
            match (sliceFor a bs u)[k]?.join with
            | some b => some b
            | none => e.bytes[k]?.join }
      else e }
  | none => do
    if 16 ≤ c.gather.length then
      match c.gather with
      | e :: _ => flushEntry e
      | [] => pure ()
    modify fun c => { c with gather := c.gather ++ [⟨u, sliceFor a bs u⟩] }

/-- A load of 1, 2 or 4 bytes: bytes the gather buffer holds come from it, the rest from the bank (R52). -/
def narrowLoad (a len : Nat) : CellM (List Byte) := do
  let u := a / 16
  let held := match (← get).gather.find? (fun e => e.unit == u) with
    | some e => (e.bytes.drop (a % 16)).take len
    | none => List.replicate len none
  if held.all Option.isSome then pure (held.map fun b => b.getD 0)
  else do
    let w ← readUnit u a
    pure (overlay held ((w.drop (a % 16)).take len))

/-- LD (R29, R34, R52). -/
def doLd (i : Issued) : CellM Unit := do
  let n := i.ins.width
  let a := i.memAddr
  needAddr a n n n
  let bs ← if n ≤ 4 && a < 0x10000 then narrowLoad a n else readBytes a n
  modifyLive fun c => c.setG i.ins.rd (wordOf 64 bs)

/-- ST (R34, R52). -/
def doSt (i : Issued) : CellM Unit := do
  let n := i.ins.width
  let a := i.memAddr
  needAddr a n n n
  if (← get).shadow then pure ()
  else if n ≤ 4 && a < 0x10000 then gatherStore a (bytesOf i.rb n)
  else putBytes a (bytesOf i.rb n)

/-- VCLR clears valid bits of rows and drops the gather-buffer entries there (R34, R50, R53). -/
def doVclr (i : Issued) : CellM Unit := do
  let n := i.count
  let a := i.ra.toNat
  if n = 0 then pure ()
  else if a % 128 == 0 && a + 128 * n ≤ 0x10000 then
    let out := fun u => !(decide (a / 16 ≤ u) && decide (u < a / 16 + 8 * n))
    modifyLive fun c => { c with
      spad := SMap.keep out c.spad
      upset := SMap.keep (fun k => out k || decide (4096 ≤ k)) c.upset
      gather := c.gather.filter fun e => out e.unit }
  else throw (CFault.address a)

end Sys2Proof.Machine
end

