-- ==== Sys2Proof/Machine/CellVec.lean ====
section
/-! DEFINITION. What the MAC array, the vector unit and the function unit compute (R37 to R49, R60, R61, R71
to R77, R524). Readings and choices: log 16. -/

namespace Sys2Proof.Machine

/-- The element format of a FMT or DFMT value (R33). -/
def fmtOf : Nat → Fmt
  | 0 => .fp32 | 1 => .bf16 | 2 => .fp16 | 3 => .e4m3 | 4 => .e5m2 | 5 => .e4m3 | 6 => .e5m2 | _ => .e2m1

/-- Bytes of one vector of eight elements. -/
def vecBytes (f : Fmt) : Nat := f.width

/-- The codes of `n` packed elements; E2M1 packs two to a byte, the lower first (R38). -/
def codesOf (f : Fmt) (bs : List Byte) (n : Nat) : List Nat :=
  (List.range n).map fun e =>
    if f = .e2m1 then ((bs[e / 2]?).getD 0).toNat / (if e % 2 = 0 then 1 else 16) % 16
    else natOfBytes ((bs.drop (f.bytes * e)).take f.bytes)

/-- Two codes to a byte, the lower first. -/
def packNibbles : List Nat → List Byte
  | a :: b :: r => BitVec.ofNat 8 (a + 16 * b) :: packNibbles r
  | [a] => [BitVec.ofNat 8 a]
  | [] => []

/-- Codes packed as R38 packs them. -/
def packCodes (f : Fmt) (cs : List Nat) : List Byte :=
  if f = .e2m1 then packNibbles cs else cs.flatMap fun c => bytesOf (BitVec.ofNat 64 c) f.bytes

/-- A value as an FP32 word; used on values FP32 represents, and saturating for amax (R60, R74). -/
def asF32 (x : Num) : W32 := BitVec.ofNat 32 (Fmt.fp32.encode .rtz x)

/-- Rounding of element e under RND, with the random block of its group (R75, R88). -/
def roundOf (rnd : BitVec 2) (blk : List Nat) (e : Nat) : Rnd :=
  match rnd with
  | 1 => .sr (randomElem blk e)
  | 2 => .rtz
  | _ => .rne

/-- The roundings of eight elements at a random-stream index (R88). -/
def roundsOf (rand : W64 → List Nat) (rnd : BitVec 2) (index : W64) : List Rnd :=
  let blk := if rnd = 1 then rand index else []
  (List.range 8).map (roundOf rnd blk)

/-- A vector in memory: its format, where its elements lie and, for an MX format, its scales (R77). -/
structure VecAt where
  fmt : Fmt
  base : Nat
  scale : Option Nat
  deriving DecidableEq, Repr

/-- The vector a register names in a FMT or DFMT (R77). -/
def vecAt (reg : W64) (fmt : Nat) : VecAt :=
  if 5 ≤ fmt then ⟨fmtOf fmt, bitsN reg 0 17, some (bitsN reg 32 17)⟩ else ⟨fmtOf fmt, reg.toNat, none⟩

/-- The address checks of `n` groups of a vector (R26, R526). -/
def needVec (x : VecAt) (n : Nat) : CellM Unit :=
  if n = 0 then pure () else
  match x.scale with
  | none => needAddr x.base (vecBytes x.fmt * n) (vecBytes x.fmt) x.fmt.bytes
  | some sa => do
    needAddr x.base (vecBytes x.fmt * n) (4 * vecBytes x.fmt) 1
    needAddr sa (n / 4) 1 1

/-- Read group v (R68, R70). -/
def readVec (x : VecAt) (v : Nat) : CellM (List Num) := do
  let bs ← readBytes (x.base + vecBytes x.fmt * v) (vecBytes x.fmt)
  let vals := (codesOf x.fmt bs 8).map x.fmt.decode
  match x.scale with
  | none => pure vals
  | some sa => do
    let s ← readBytes (sa + v / 4) 1
    let k := e8m0 ((s[0]?).getD 0).toNat
    pure (vals.map k.mul)

/-- Writes still in the pipeline: the group that made each, its address and its bytes. -/
abbrev PipeWrites := List (Nat × Nat × List Byte)

/-- Make the writes a read of group v sees: those of groups at least `d` earlier (R28, R524). -/
def landWrites (d v : Nat) : PipeWrites → CellM PipeWrites
  | [] => pure []
  | (g, a, bs) :: r =>
    if g + d ≤ v then do
      writeBytes a bs
      landWrites d v r
    else pure ((g, a, bs) :: r)

/-- Make every write left. -/
def landAll (p : PipeWrites) : CellM Unit := p.forM fun w => writeBytes w.2.1 w.2.2

/-- Process `n` groups from group v; `grp` reads and computes a group, with the values that earlier
groups of its MX block left. A group whose read fails leaves the earlier groups' writes made. -/
def pipeGroups (d : Nat) (grp : Nat → List Num → CellM (List Num × List (Nat × List Byte))) :
    Nat → Nat → List Num → PipeWrites → CellM Unit
  | 0, _, _, p => landAll p
  | n + 1, v, carry, p => do
    let p ← landWrites d v p
    let r ← tryCatch (grp v carry) fun f => do
      landAll p
      throw f
    pipeGroups d grp n (v + 1) r.1 (p ++ r.2.map fun w => (v, w.1, w.2))

/-- How many groups later a write is seen by a read of the same instruction (R524). -/
def pipeDepth (srcs : List Nat) : Nat := if srcs.any (· < 0x10000) then 7 else 3

/-- The output stage: eight values become group v of the destination (R74 to R76). -/
def outGroup (rand : W64 → List Nat) (rnd : BitVec 2) (index : W64) (dst : VecAt) (v : Nat)
    (carry xs : List Num) : CellM (List Num × List (Nat × List Byte)) :=
  match dst.scale with
  | none => do
    let rs := roundsOf rand rnd (index + BitVec.ofNat 64 (8 * v))
    let cs := (xs.zip rs).map fun p => dst.fmt.encode p.2 p.1
    modify fun c => c.countNonfinite (cs.filter dst.fmt.nonfinite).length
    pure ([], [(dst.base + vecBytes dst.fmt * v, packCodes dst.fmt cs)])
  | some sa =>
    let all := carry ++ xs
    if v % 4 = 3 then do
      let rs := (List.range 4).flatMap fun k =>
        roundsOf rand rnd (index + BitVec.ofNat 64 (8 * (v - 3 + k)))
      let b := mxBlock dst.fmt all rs
      if b.1 = 255 then modify fun c => c.countNonfinite 1
      pure ([], [(dst.base + vecBytes dst.fmt * (v - 3), packCodes dst.fmt b.2),
        (sa + v / 4, [BitVec.ofNat 8 b.1])])
    else pure (all, [])

/-- The scale a register gives; g0 means 1.0 (R32). -/
def Issued.scale (i : Issued) : W32 := if i.ins.rb = 0 then 0x3F800000 else bits i.rb 0 32

/-- Fold finite values into an amax register when AM is set (R60). -/
def foldVals (am : Bool) (k : Nat) (xs : List Num) : CellM Unit :=
  if am then modify fun c => xs.foldl (fun c x => c.foldInto k (asF32 x)) c else pure ()

/-- The FP32 destination of a vector instruction (R34). -/
def Issued.dstF32 (i : Issued) : VecAt := ⟨.fp32, i.rd.toNat, none⟩

/-- A vector instruction of two operands and a result in FP32 (R73). -/
def doVec2 (f : W32 → W32 → W32) (i : Issued) : CellM Unit := do
  let n := i.count
  let a := vecAt i.ra i.ins.fmt.toNat
  let b := vecAt i.rb i.ins.fmt.toNat
  needVec a n
  needVec b n
  needVec i.dstF32 n
  pipeGroups (pipeDepth [a.base, b.base]) (fun v _ => do
    let xs ← readVec a v
    let ys ← readVec b v
    outGroup (fun _ => []) 0 0 i.dstF32 v []
      ((xs.zip ys).map fun p => f32 (f (toF32 p.1) (toF32 p.2)))) n 0 [] []

/-- VFMA (R73). -/
def doVfma (i : Issued) : CellM Unit := do
  let n := i.count
  let a := vecAt i.ra i.ins.fmt.toNat
  let b := vecAt i.rb i.ins.fmt.toNat
  needVec a n
  needVec b n
  needVec i.dstF32 n
  pipeGroups (pipeDepth [a.base, b.base, i.rd.toNat]) (fun v _ => do
    let xs ← readVec a v
    let ys ← readVec b v
    let zs ← readVec i.dstF32 v
    outGroup (fun _ => []) 0 0 i.dstF32 v []
      ((xs.zip (ys.zip zs)).map fun p => f32 (ffma (toF32 p.1) (toF32 p.2.1) (toF32 p.2.2)))) n 0 [] []

/-- VSCL (R73). -/
def doVscl (i : Issued) : CellM Unit := do
  let n := i.count
  let a := vecAt i.ra i.ins.fmt.toNat
  needVec a n
  needVec i.dstF32 n
  pipeGroups (pipeDepth [a.base]) (fun v _ => do
    let xs ← readVec a v
    outGroup (fun _ => []) 0 0 i.dstF32 v [] (xs.map fun x => f32 (fmul (toF32 x) i.scale))) n 0 [] []

/-- Every element of a vector, in ascending order. -/
def readAll (x : VecAt) (n : Nat) : CellM (List Num) := do
  let gs ← (List.range n).mapM (readVec x)
  pure gs.flatten

/-- A reduction writes RD[31:0] (R73). -/
def doReduce (f : W32 → W32 → W32) (identity : W32) (i : Issued) : CellM Unit := do
  let n := i.count
  let a := vecAt i.ra i.ins.fmt.toNat
  needVec a n
  let xs ← readAll a n
  let r := match xs with
    | [] => identity
    | x :: r => r.foldl (fun m y => f m (toF32 y)) (toF32 x)
  modify fun c => c.countNonfinite (if f32Nonfinite r then 1 else 0)
  modifyLive fun c => c.setG i.ins.rd (bits (c.getG i.ins.rd) 32 32 ++ r)

/-- CVT (R60, R61, R74, R76, R77). -/
def doCvt (rand : W64 → List Nat) (i : Issued) : CellM Unit := do
  let n := i.count
  let a := vecAt i.ra i.ins.fmt.toNat
  let d := vecAt i.rd i.ins.dfmt
  needVec a n
  needVec d n
  pipeGroups (pipeDepth [a.base]) (fun v carry => do
    let xs ← readVec a v
    foldVals (i.ins.imm.getLsbD 27) (bitsN i.ins.imm 25 2) xs
    outGroup rand i.ins.rnd i.rc d v carry (xs.map (f32 i.scale).mul)) n 0 [] []

/-- A segment of a function table: Y0 and S (R46). -/
def FTable.y0 (t : FTable) (k : Nat) : W32 := bits (SMap.get (fun _ => 0) t.segs k) 0 32
def FTable.slope (t : FTable) (k : Nat) : W32 := bits (SMap.get (fun _ => 0) t.segs k) 32 32

/-- Segment i at x (R47). -/
def FTable.seg (t : FTable) (i : Nat) (x : W32) : W32 :=
  let base := ffma (toF32 (Num.ofInt i)) t.step t.xLo
  ffma (t.slope i) (fsub x base) (t.y0 i)

/-- Outside the range (R47, R48). -/
def FTable.outside (t : FTable) (high : Bool) (x : W32) : W32 :=
  let k := if high then 511 else 0
  let mode := if high then t.highMode else t.lowMode
  if mode = 1 then (if high then t.highConst else t.lowConst)
  else if mode = 2 then (if high then ffma (t.slope 511) t.step (t.y0 511) else t.y0 0)
  else match f32 x with
    | .inf _ => if (f32 (t.slope k)).isZero then t.y0 k else fmul (t.slope k) x
    | _ => t.seg k x

/-- The table at x (R47, R48). -/
def FTable.eval (t : FTable) (x : W32) : W32 :=
  match f32 x with
  | .nan => 0x7FC00000
  | .inf neg => t.outside (!neg) x
  | .fin _ m _ =>
    let x := if m = 0 then 0 else x
    match f32 (fmul (fsub x t.xLo) t.invStep) with
    | .nan => 0x7FC00000
    | .inf neg => t.outside (!neg) x
    | u =>
      let i := u.floor
      if i < 0 then t.outside false x
      else if 511 < i then t.outside true x
      else t.seg i.toNat x

/-- A result the unit delivers; NaN as R69 has it. -/
def canonF32 (w : W32) : W32 := toF32 (f32 w)

/-- FEVAL (R49). -/
def doFeval (rand : W64 → List Nat) (i : Issued) : CellM Unit := do
  let n := i.count
  let a := vecAt i.ra i.ins.fmt.toNat
  let d := vecAt i.rd i.ins.dfmt
  needVec a n
  needVec d n
  pipeGroups (pipeDepth [a.base]) (fun v carry => do
    let c ← get
    let t := if i.ins.imm.getLsbD 24 then c.tab1 else c.tab0
    let xs ← readVec a v
    let ys := xs.map fun x => f32 (canonF32 (t.eval (toF32 x)))
    foldVals (i.ins.imm.getLsbD 27) (bitsN i.ins.imm 25 2) ys
    outGroup rand i.ins.rnd i.rc d v carry ys) n 0 [] []

/-- FBWD (R49). -/
def doFbwd (rand : W64 → List Nat) (i : Issued) : CellM Unit := do
  let n := i.count
  let a := vecAt i.ra i.ins.fmt.toNat
  let dy := vecAt i.rb (if i.ins.imm.getLsbD 24 then 2 else 1)
  let d := vecAt i.rd i.ins.dfmt
  needVec a n
  needVec dy n
  needVec d n
  pipeGroups (pipeDepth [a.base, dy.base]) (fun v carry => do
    let c ← get
    let xs ← readVec a v
    let gs ← readVec dy v
    let ys := (xs.zip gs).map fun p => f32 (fmul (toF32 p.2) (c.tab1.eval (toF32 p.1)))
    foldVals (i.ins.imm.getLsbD 27) (bitsN i.ins.imm 25 2) ys
    outGroup rand i.ins.rnd i.rc d v carry ys) n 0 [] []

/-- The table a 4,128-byte image holds; none when a mode is reserved or a reserved byte is not zero
(R36, R46). -/
def FTable.ofImage (bs : List Byte) : Option FTable :=
  let w := fun o => wordOf 32 ((bs.drop o).take 4)
  let lm := ((bs[20]?).getD 0).toNat
  let hm := ((bs[21]?).getD 0).toNat
  if 2 < lm || 2 < hm || ((bs.drop 22).take 10).any (· ≠ 0) then none
  else some
    { xLo := w 0, step := w 4, invStep := w 8, lowConst := w 12, highConst := w 16
      lowMode := BitVec.ofNat 2 lm, highMode := BitVec.ofNat 2 hm
      segs := (List.range 512).filterMap fun k =>
        let v := wordOf 64 ((bs.drop (32 + 8 * k)).take 8)
        if v = 0 then none else some (k, v) }

/-- FLOAD (R46). -/
def doFload (i : Issued) : CellM Unit := do
  needAddr i.ra.toNat 4128 16 16
  let bs ← readBytes i.ra.toNat 4128
  match FTable.ofImage bs with
  | none => throw CFault.illegal
  | some t => modifyLive fun c => if i.ins.imm.getLsbD 24 then { c with tab1 := t } else { c with tab0 := t }

/-- A tile index above 63 faults (R44). -/
def needTile (t : Nat) : CellM Unit :=
  if t < 64 then pure () else throw (CFault.address (0x10000 + 256 * t))

/-- Write the 64 entries of a tile (R26). -/
def writeTile (t : Nat) (ws : List W32) : CellM Unit :=
  modifyLive fun c => (ws.zip (List.range 64)).foldl (fun c p => c.setAcc (64 * t + p.2) p.1) c

/-- Run an operation on each of `n` tiles from the first, in order (R44). -/
def eachTile (i : Issued) (f : Nat → Nat → CellM Unit) : CellM Unit :=
  (List.range i.count).forM fun k => do
    needTile (i.ins.tile + k)
    f k (i.ins.tile + k)

/-- AZERO (R44). -/
def doAzero (i : Issued) : CellM Unit := eachTile i fun _ t => writeTile t (List.replicate 64 0)

/-- AACC (R34, R44, R72). -/
def doAacc (i : Issued) : CellM Unit := do
  let f := fmtOf i.ins.fmt.toNat
  let b := 64 * f.bytes
  if i.count = 0 then pure () else needAddr i.ra.toNat (b * i.count) b f.bytes
  eachTile i fun k t => do
    let bs ← readBytes (i.ra.toNat + b * k) b
    let ws ← readAccs (64 * t) 64
    writeTile t ((ws.zip (codesOf f bs 64)).map fun p => toF32 ((f32 p.1).add (f.decode p.2)))

/-- ASCALE (R34, R44). -/
def doAscale (i : Issued) : CellM Unit :=
  eachTile i fun _ t => do
    let ws ← readAccs (64 * t) 64
    writeTile t (ws.map fun w => fmul w i.scale)

/-- The extent a row mask selects (R43, R65). -/
def Cell.extent (c : Cell) (k : Nat) : Nat := (c.rd (0x50 + 4 * k)).toNat

/-- Row i of the tile is masked (R43). -/
def Cell.masked (c : Cell) (mk : Nat) (rc : W64) (i : Nat) : Bool :=
  mk != 0 && decide (c.extent (mk - 1) ≤ bitsN rc 32 16 + i)

/-- The codes of one tile as ACVT converts them, row by row (R44, R61). -/
def acvtCodes (rand : W64 → List Nat) (i : Issued) (c : Cell) (k : Nat) (ws : List W32) : List (List Nat) :=
  let f := fmtOf i.ins.dfmt
  (List.range 8).map fun r =>
    if c.masked (bitsN i.ins.imm 17 2) i.rc r then List.replicate 8 0
    else
      let rs := roundsOf rand i.ins.rnd (BitVec.ofNat 64 (bitsN i.rc 0 32 + 64 * k + 8 * r))
      (((ws.drop (8 * r)).take 8).zip rs).map fun p => f.encode p.2 ((f32 p.1).mul (f32 i.scale))

/-- The transpose of an 8 x 8 block. -/
def transpose8 (rows : List (List Nat)) : List (List Nat) :=
  (List.range 8).map fun j => rows.map fun r => (r[j]?).getD 0

/-- ACVT (R43, R44, R60, R61). -/
def doAcvt (rand : W64 → List Nat) (i : Issued) : CellM Unit := do
  let f := fmtOf i.ins.dfmt
  let b := 64 * f.bytes
  if i.count = 0 then pure () else needAddr i.rd.toNat (b * i.count) b f.bytes
  eachTile i fun k t => do
    let ws ← readAccs (64 * t) 64
    foldVals (i.ins.imm.getLsbD 21) (bitsN i.ins.imm 19 2) (ws.map f32)
    let c ← get
    let rows := acvtCodes rand i c k ws
    modify fun c => c.countNonfinite (rows.flatten.filter f.nonfinite).length
    writeBytes (i.rd.toNat + b * k)
      (packCodes f (if i.ins.imm.getLsbD 16 then transpose8 rows else rows).flatten)

/-- Element formats of A and B in an MMA mode (R37). -/
def mmaFmts (i : FieldIns) : Fmt × Fmt :=
  let ea := if i.imm.getLsbD 23 then Fmt.e5m2 else Fmt.e4m3
  let eb := if i.imm.getLsbD 22 then Fmt.e5m2 else Fmt.e4m3
  match i.fmt.toNat with
  | 0 => (.e2m1, .e2m1) | 1 => (ea, eb) | 2 => (ea, eb) | 3 => (.bf16, eb) | 4 => (ea, .bf16)
  | 5 => (.bf16, .bf16) | _ => (.fp16, .fp16)

/-- Cycles of one K-block (R37). -/
def mmaCycles (i : FieldIns) : Nat :=
  match i.fmt.toNat with
  | 0 => 4 | 1 => 8 | 2 => 8 | 3 => 16 | 4 => 16 | _ => 32

/-- Bytes of an 8 x 8 block. -/
def blockBytes (f : Fmt) : Nat := 8 * f.width

/-- Element (r, c) of a stored block, transposed on request (R38, R39). -/
def blockAt (vals : List Num) (tr : Bool) (r c : Nat) : Num :=
  (vals[if tr then 8 * c + r else 8 * r + c]?).getD .nan

/-- The product for one k of element (i, j), scaled in the MX modes; a scale of 0xFF is a NaN (R71). -/
def mmaTerm (a b : Num) (sa sb : Num) : Num := (a.mul b).mul (sa.mul sb)

/-- The updates of one element over a K-block's eight products (R72). -/
def mmaUpdates (pairs : Bool) (acc : W32) : List Num → W32
  | x :: y :: r =>
    if pairs then mmaUpdates pairs (toF32 (((f32 acc).add (x.add y)))) r
    else mmaUpdates pairs (toF32 ((f32 (toF32 ((f32 acc).add x))).add y)) r
  | [x] => toF32 ((f32 acc).add x)
  | [] => acc

/-- One K-block of the whole tile; masked rows of A read as zero (R43). -/
def mmaBlock (pairs : Bool) (ta tb : Bool) (masked : Nat → Bool) (av bv : List Num) (sa sb : List Num)
    (cur : List W32) : List W32 :=
  (cur.zip (List.range 64)).map fun p =>
    let i := p.2 / 8
    let j := p.2 % 8
    mmaUpdates pairs p.1 ((List.range 8).map fun k =>
      let a := if masked i then Num.fin false 0 0 else blockAt av ta i k
      mmaTerm a (blockAt bv tb k j) ((sa[i]?).getD (.fin false 1 0)) ((sb[j]?).getD (.fin false 1 0)))

/-- Eight E8M0 scales (R40). -/
def readScales (a : Nat) : CellM (List Num) := do
  let bs ← readBytes a 8
  pure (bs.map fun b => e8m0 b.toNat)

/-- The K-blocks of an MMA from block kb on (R37 to R40). -/
def mmaLoop (i : Issued) (masked : Nat → Bool) : Nat → Nat → List Num → List Num → List W32 → CellM (List W32)
  | 0, _, _, _, cur => pure cur
  | n + 1, kb, sa, sb, cur => do
    let f := mmaFmts i.ins
    let mx := i.ins.fmt.toNat == 0 || i.ins.fmt.toNat == 2
    let ab ← readBytes (i.ra.toNat + blockBytes f.1 * kb) (blockBytes f.1)
    let bb ← readBytes (i.rb.toNat + blockBytes f.2 * kb) (blockBytes f.2)
    let sa ← if mx && kb % 4 == 0 then readScales (bitsN i.rd 0 16 + 2 * kb) else pure sa
    let sb ← if mx && kb % 4 == 0 then readScales (bitsN i.rd 16 16 + 2 * kb) else pure sb
    mmaLoop i masked n (kb + 1) sa sb
      (mmaBlock (i.ins.fmt.toNat == 0) (i.ins.imm.getLsbD 25) (i.ins.imm.getLsbD 24) masked
        ((codesOf f.1 ab 64).map f.1.decode) ((codesOf f.2 bb 64).map f.2.decode) sa sb cur)

/-- MMA (R37 to R40, R43, R71, R72). -/
def doMma (i : Issued) : CellM Unit := do
  let f := mmaFmts i.ins
  let n := i.count
  let mx := i.ins.fmt.toNat == 0 || i.ins.fmt.toNat == 2
  let t := i.ins.tile
  if n = 0 then pure ()
  else do
    needAddr i.ra.toNat (blockBytes f.1 * n) (blockBytes f.1) 1
    needAddr i.rb.toNat (blockBytes f.2 * n) (blockBytes f.2) 1
    if mx then do
      needAddr (bitsN i.rd 0 16) (2 * n) 1 1
      needAddr (bitsN i.rd 16 16) (2 * n) 1 1
  let c ← get
  if i.ins.imm.getLsbD 19 then do
    let ws ← mmaLoop i (c.masked (bitsN i.ins.imm 20 2) i.rc) n 0 [] [] (List.replicate 64 0)
    writeTile t ws
  else if n = 0 then pure ()
  else do
    let old ← readAccs (64 * t) 64
    let ws ← mmaLoop i (c.masked (bitsN i.ins.imm 20 2) i.rc) n 0 [] [] old
    writeTile t ws

/-- Move 16-byte units; a unit is read 4 cycles before it is written, four units a cycle (R28, R34). -/
def doCopy (i : Issued) : CellM Unit := do
  let n := i.count
  if n = 0 then pure ()
  else do
    needAddr i.ra.toNat (16 * n) 16 16
    needAddr i.rd.toNat (16 * n) 16 16
    pipeGroups 5 (fun v _ => do
      let k := min 4 (n - 4 * v)
      let bs ← readBytes (i.ra.toNat + 64 * v) (16 * k)
      pure ([], [(i.rd.toNat + 64 * v, bs)])) ((n + 3) / 4) 0 [] []

end Sys2Proof.Machine
end

