-- ==== Sys2Proof/Machine/CellSeq.lean ====
section
/-! DEFINITION. The sequencer of a cell and its units: how an instruction issues, waits in a unit's queue and
starts, what each opcode does when it starts, and how long it holds its unit (R27 to R31, R34, R41, R56 to
R60, R524, R525). Effects are those of program order; the time an instruction takes is kept as the cycle from
which its unit, its register or its tiles are free. Readings and choices: log 7, 9, 13, 16. -/

namespace Sys2Proof.Machine

/-- What a cell reads around it. -/
structure CellEnv where
  pid : Nat
  key : Nat
  now : Nat
  rngKey : BitVec 128
  rngStep : W32
  inc : BitVec 4
  deriving DecidableEq, Repr

/-- What an instruction sends out of its cell. -/
inductive CellOut where
  | incr (x : Incr)
  | token (t : CtlToken)
  | pkt (k : SvcPkt)
  deriving DecidableEq, Repr

/-- What starting an instruction gives. -/
structure Ran where
  cell : Cell
  fault : Option CFault
  out : List CellOut
  deriving DecidableEq, Repr

/-- The effect of an opcode when it starts. -/
abbrev Run := CellEnv → Issued → Cell → Ran

/-- Links within dies, and seam crossings, of the path between two cells (R96). -/
def hops (a b : Nat) : Nat × Nat :=
  let r1 := a / 160; let c1 := a % 160; let r2 := b / 160; let c2 := b % 160
  let d := (max r1 r2 - min r1 r2) + (max c1 c2 - min c1 c2)
  let s := bit01 (decide (r1 < 128) != decide (r2 < 128)) + bit01 (decide (c1 < 80) != decide (c2 < 80))
  (d - s, s)

/-- One-way link time h + 24 sigma (R96). -/
def linkTime (a b : Nat) : Nat := (hops a b).1 + 24 * (hops a b).2

/-- The cell whose router an engine attaches to (R100), by `EngId.key`. -/
def engCell (e : Nat) : Nat :=
  let d := e / 16
  let k := e % 8
  let row := if d < 2 then 0 else 255
  let col := 80 * (d % 2) + 10 * k + (if e % 16 < 8 then 2 else 7)
  row * 160 + col

/-- The tide count of a cell (R58, R98). -/
def Cell.tide (c : Cell) (now : Nat) : Nat :=
  match c.base with
  | none => 0
  | some b => (now / 64 - b) % 2 ^ 32

/-- An operation of the memory, array or vector unit. -/
def runM (m : CellEnv → Cell → Issued → CellM Unit) : Run := fun e i c =>
  match m e c i c with
  | .ok _ c => ⟨c, none, []⟩
  | .error f c => ⟨c, some f, []⟩

/-- An operation that cannot fault and sends nothing. -/
def runC (f : CellEnv → Issued → Cell → Cell) : Run := fun e i c => ⟨f e i c, none, []⟩

/-- A scalar result (R34). -/
def runScalar (f : Issued → W64) : Run := runC fun _ i c => c.setG i.ins.rd (f i)

/-- The random blocks of the cell's stream (R61, R88). -/
def CellEnv.rand (e : CellEnv) (c : Cell) : W64 → List Nat := randomBlock e.rngKey (c.rd 0x5C) e.rngStep

/-- Every write issued earlier has landed (R34): nothing is queued or under way in a unit that writes. -/
def Cell.writesDone (c : Cell) : Bool :=
  c.mem.queue.isNone && c.arr.queue.isNone && c.vec.queue.isNone && c.vec.wait.isNone &&
  c.ports.all (·.isSend) && c.svc.isEmpty && c.svcQ.isNone &&
  (match c.portQ with
   | some i => i.ins.op = .send
   | none => true)

/-- Every issued instruction has completed (R34, R528). -/
def Cell.allDone (c : Cell) : Bool :=
  c.writesDone && c.ports.isEmpty && c.portQ.isNone && c.sync.isNone && c.syncQ.isNone

/-- The cycle from which every unit is free. -/
def Cell.unitsFree (c : Cell) : Nat := max c.mem.free (max c.arr.free c.vec.free)

/-- HALT (R34, R52). -/
def runHalt : Run := runM fun _ _ _ => do
  flushAll
  modify fun c => { c with drain := .halt }

def runNop : Run := runC fun _ _ c => c

/-- JMP (R34). -/
def runJmp : Run := runC fun _ i c => { c with pc := bits i.ins.imm 0 10 }

/-- LOOP (R34). -/
def runLoop : Run := runC fun _ i c =>
  let n := if bits i.ins.imm 16 16 = 0 then bits i.ra 0 16 else bits i.ins.imm 16 16
  if n = 0 then { c with pc := bits i.ins.imm 0 10 } else c.setCnt (bits i.ins.rd 0 3) n

/-- BRC (R34). -/
def runBrc : Run := runC fun _ i c =>
  let k := bits i.ins.rd 0 3
  let n := c.getCnt k
  if n = 0 then c
  else
    let c := c.setCnt k (n - 1)
    if n = 1 then c else { c with pc := bits i.ins.imm 0 10 }

/-- FENCE (R34, R52). -/
def runFence : Run := runM fun _ _ _ => do
  flushAll
  modify fun c => if c.writesDone then c else { c with drain := .fence }

/-- MOVS (R34). -/
def runMovs : Run := runC fun e i c =>
  let k := bitsN i.ins.imm 0 4
  let v : Nat :=
    if k = 0 then c.tide e.now
    else if k = 1 then e.now % 64
    else if k ≤ 4 then c.extent (k - 2)
    else if k = 5 then e.key / 160
    else if k = 6 then e.key % 160
    else if k = 7 then e.pid
    else (c.getCnt (BitVec.ofNat 3 (k - 8))).toNat
  c.setG i.ins.rd (BitVec.ofNat 64 v)

def runAdd : Run := runScalar fun i => i.ra + i.rb
def runAddi : Run := runScalar fun i => i.ra + i.ins.simm
def runSub : Run := runScalar fun i => i.ra - i.rb
def runMul : Run := runScalar fun i => i.ra * i.rb
def runAnd : Run := runScalar fun i => i.ra &&& i.rb
def runOr : Run := runScalar fun i => i.ra ||| i.rb
def runXor : Run := runScalar fun i => i.ra ^^^ i.rb
def runShli : Run := runScalar fun i => i.ra <<< bitsN i.ins.imm 0 6
def runShri : Run := runScalar fun i => i.ra >>> bitsN i.ins.imm 0 6
def runLdi : Run := runScalar fun i => i.ins.simm
def runLdhi : Run := runScalar fun i => i.ins.imm ++ bits i.rd 0 32

def runLd : Run := runM fun _ _ i => doLd i
def runSt : Run := runM fun _ _ i => doSt i
def runCopy : Run := runM fun _ _ i => doCopy i
def runVclr : Run := runM fun _ _ i => doVclr i
def runMma : Run := runM fun _ _ i => doMma i
def runAzero : Run := runM fun _ _ i => doAzero i
def runAacc : Run := runM fun _ _ i => doAacc i
def runAscale : Run := runM fun _ _ i => doAscale i
def runAcvt : Run := runM fun e c i => doAcvt (e.rand c) i
def runVadd : Run := runM fun _ _ i => doVec2 fadd i
def runVsub : Run := runM fun _ _ i => doVec2 fsub i
def runVmul : Run := runM fun _ _ i => doVec2 fmul i
def runVfma : Run := runM fun _ _ i => doVfma i
def runVmax : Run := runM fun _ _ i => doVec2 fmax i
def runVmin : Run := runM fun _ _ i => doVec2 fmin i
def runVscl : Run := runM fun _ _ i => doVscl i
def runVrsum : Run := runM fun _ _ i => doReduce fadd 0 i
def runVrmax : Run := runM fun _ _ i => doReduce fmax 0xFF800000 i
def runCvt : Run := runM fun e c i => doCvt (e.rand c) i
def runFload : Run := runM fun _ _ i => doFload i
def runFeval : Run := runM fun e c i => doFeval (e.rand c) i
def runFbwd : Run := runM fun e c i => doFbwd (e.rand c) i

/-- SEND and RECV begin at their start slot of the tide in which they begin (R58). -/
def runPort : Run := runM fun e _ i => do
  let n := i.count
  let isSend := decide (i.ins.op = .send)
  let a := (if isSend then i.ra else i.rd).toNat
  if n = 0 then pure () else needAddr a (32 * n) 32 4
  if bitsN i.ins.imm 0 6 < e.now % 64 then throw CFault.steerLate
  if n = 0 then pure ()
  else modify fun c => { c with ports := c.ports ++ [
    { isSend := isSend, circ := ⟨bitsN i.ins.imm 29 3, BitVec.isLt _⟩, addr := a, left := n
      flag := i.ins.imm.getLsbD 28, from_ := e.now - e.now % 64 + bitsN i.ins.imm 0 6
      began := e.now, pc := i.pc }] }

def runSend : Run := runPort
def runRecv : Run := runPort

/-- TWAIT (R34, R58). -/
def runTwait : Run := fun e i c =>
  let t : W32 := bits i.ra 0 32 + BitVec.ofNat 32 (bitsN i.ins.imm 6 16)
  let target := t.toNat * 64 + bitsN i.ins.imm 0 6
  let here := c.tide e.now * 64 + e.now % 64
  if target < here then ⟨c, some CFault.steerLate, []⟩
  else if target = here then ⟨c, none, []⟩
  else ⟨{ c with sync := some (.twait t (bitsN i.ins.imm 0 6)), st := .waitTide }, none, []⟩

/-- SWAIT (R57). -/
def runSwait : Run := fun _ i c =>
  let k := i.ins.immSem
  let n := i.ins.immN
  if n ≤ c.sem k then ⟨c.setSem k (c.sem k - n), none, []⟩
  else ⟨{ c with sync := some (.swait ⟨k, BitVec.isLt _⟩ n), st := .waitSem }, none, []⟩

/-- SSIG (R57, R110). -/
def runSsig : Run := fun e i c =>
  let eng := i.ins.imm.getLsbD 3
  let target := if eng then i.ins.immRow else i.ins.immRow * 160 + i.ins.immCol
  let at_ := if eng then engCell target else target
  let vis := if !eng && target == e.key then e.now + 1
    else e.now + linkTime e.key at_ + 4 + (if eng then 2 else 0)
  ⟨c, none, [.incr ⟨eng, target, i.ins.immSem, i.ins.immN, vis⟩]⟩

/-- WTOK (R59, R108): the token waits at the injection port for a slot. -/
def runWtok : Run := fun e i c =>
  ⟨c, none, [.token ⟨e.key, 4, i.ins.immRow * 160 + i.ins.immCol, bitsN i.ins.imm 13 3, bits i.ra 0 24, e.now⟩]⟩

/-- AMXS reads and clears an amax register and holds the sync unit (R60). -/
def runAmxs : Run := fun _ i c =>
  let k := bitsN i.ins.imm 25 2
  ⟨{ c with amax := SMap.erase c.amax k, sync := some (.amxs (bits i.ins.imm 0 16) (SMap.get (fun _ => 0) c.amax k)) },
    none, []⟩

/-- The lowest place no outstanding SERVICE access has (R56). -/
def Cell.svcPlace (c : Cell) : Nat :=
  ((List.range 4).find? fun k => !(c.svc.any fun a => a.place == k)).getD 0

/-- SVRD and SVWR (R56). -/
def runSvc : Run := fun e i c =>
  let isRead := decide (i.ins.op = .svrd)
  let n := i.count
  let loc := (if isRead then i.rd else i.ra).toNat
  let rem := (if isRead then i.ra else i.rd).toNat
  let m : CellM (List Byte) := do
    if n = 0 then pure [] else do
      needAddr loc (8 * n) 8 8
      needAddr rem (8 * n) 8 8
      if isRead then pure [] else readBytes loc (8 * n)
  match m c with
  | .error f c => ⟨c, some f, []⟩
  | .ok bs c =>
    let ws := if isRead then [] else (List.range n).map fun k => wordOf 64 ((bs.drop (8 * k)).take 8)
    let dest := i.ins.immRow * 160 + i.ins.immCol
    let k := c.svcPlace
    ⟨{ c with svc := c.svc ++ [
        { place := k, isRead := isRead, target := dest, localAddr := loc, remoteAddr := rem, len := n
          sem := ⟨i.ins.immSem, BitVec.isLt _⟩, pc := i.pc, answer := none, data := [] }] },
      none,
      [.pkt ⟨e.key, dest, e.key, k, e.inc, if isRead then .read rem n else .write rem ws⟩]⟩

def runSvrd : Run := runSvc
def runSvwr : Run := runSvc

/-- What an opcode does when it starts. -/
def runOf : FieldOp → Run
  | .halt => runHalt | .nop => runNop | .jmp => runJmp | .loop => runLoop | .brc => runBrc
  | .fence => runFence | .twait => runTwait | .movs => runMovs | .add => runAdd | .addi => runAddi
  | .sub => runSub | .mul => runMul | .and => runAnd | .or => runOr | .xor => runXor
  | .shli => runShli | .shri => runShri | .ldi => runLdi | .ldhi => runLdhi | .ld => runLd
  | .st => runSt | .copy => runCopy | .vclr => runVclr | .svrd => runSvrd | .svwr => runSvwr
  | .send => runSend | .recv => runRecv | .swait => runSwait | .ssig => runSsig | .wtok => runWtok
  | .amxs => runAmxs | .mma => runMma | .azero => runAzero | .aacc => runAacc | .ascale => runAscale
  | .acvt => runAcvt | .vadd => runVadd | .vsub => runVsub | .vmul => runVmul | .vfma => runVfma
  | .vmax => runVmax | .vmin => runVmin | .vscl => runVscl | .vrsum => runVrsum | .vrmax => runVrmax
  | .cvt => runCvt | .fload => runFload | .feval => runFeval | .fbwd => runFbwd

/-- Groups a vector-unit instruction processes (R524). -/
def Issued.groups (i : Issued) : Nat :=
  match i.ins.op with
  | .aacc | .ascale | .acvt => 8 * i.count
  | _ => i.count

/-- A source of a vector-unit instruction lies in the scratchpad (R524). -/
def Issued.fromSpad (i : Issued) : Bool :=
  match i.ins.op with
  | .azero | .ascale | .acvt => false
  | .vfma => i.ra.toNat < 0x10000 || i.rb.toNat < 0x10000 || i.rd.toNat < 0x10000
  | .vadd | .vsub | .vmul | .vmax | .vmin | .fbwd => i.ra.toNat < 0x10000 || i.rb.toNat < 0x10000
  | .cvt => 5 ≤ i.ins.fmt.toNat || i.ra.toNat < 0x10000
  | _ => i.ra.toNat < 0x10000

/-- When an instruction that starts in cycle `now` frees its unit and makes its register and tiles
readable (R29, R34, R41, R524); `queued` says it left the array's queue. -/
def Cell.occupy (c : Cell) (now : Nat) (queued : Bool) (i : Issued) : Cell :=
  let n := i.count
  match i.ins.op.unit with
  | .mem =>
    match i.ins.op with
    | .ld => { c with
        mem := { c.mem with free := now + 1 }
        regReady := if i.ins.rd = 0 then c.regReady else SMap.insert c.regReady i.ins.rd.toNat (now + 4) }
    | .copy => { c with mem := { c.mem with free := if n = 0 then now + 1 else now + (n + 3) / 4 + 4 } }
    | .vclr => { c with mem := { c.mem with free := now + max 1 n } }
    | _ => { c with mem := { c.mem with free := now + 1 } }
  | .array =>
    let k := max 1 (mmaCycles i.ins * n)
    let last := if queued then now + k - 1 else now + 3 + k
    { c with
      arr := { c.arr with free := last + 1 }
      tileReady := SMap.insert c.tileReady i.ins.tile (last + 7) }
  | .vec =>
    let p := now + (if i.fromSpad then 5 else 1) + (i.groups - 1)
    let free := if i.ins.op = .fload then now + 34 else if n = 0 then now + 2 else p + 3
    { c with
      vec := { c.vec with free := free }
      regReady := if i.ins.op = .vrsum ∨ i.ins.op = .vrmax then SMap.insert c.regReady i.ins.rd.toNat (p + 2)
        else c.regReady
      tileReady := if i.ins.op = .acvt then c.tileReady
        else i.tiles.foldl (fun m t => SMap.insert m t (p + 3)) c.tileReady }
  | .seq | .scalar | .port | .sync | .svc => c

/-- Start an instruction; a fault it meets becomes the cell's (R63). -/
def Cell.start (c : Cell) (e : CellEnv) (queued : Bool) (run : Run) (i : Issued) : Cell × List CellOut :=
  let r := run e i c
  match r.fault with
  | none => (r.cell.occupy e.now queued i, r.out)
  | some f => (r.cell.fault f i.pc, r.out)

/-- A SEND or RECV may begin: fewer than two of its kind execute and none on its circuit (R58). -/
def Cell.portFree (c : Cell) (i : Issued) : Bool :=
  let same := c.ports.filter fun o => o.isSend == decide (i.ins.op = .send)
  same.length < 2 && same.all fun o => o.circ.val != bitsN i.ins.imm 29 3

/-- A sync instruction that holds issue while it waits in the queue (R57, R58). -/
def Issued.waits (i : Issued) : Bool := i.ins.op = .swait || i.ins.op = .twait

/-- The sequencer may issue (R27, R34, R57, R58, R528). -/
def Cell.issuing (c : Cell) : Bool :=
  decide (c.st = .running) && decide (c.drain = .none) &&
  (match c.syncQ with
   | some i => !i.waits
   | none => true)

/-- Instructions queued and not started, whose results are not there yet (R27, R28). -/
def Cell.waiting (c : Cell) : List Issued :=
  c.mem.queue.toList ++ c.arr.queue.toList ++ c.vec.queue.toList ++ c.vec.wait.toList

/-- An instruction needs a register that a queued one will write, or is a unit's instruction on a tile
that a queued one works on (R28). A vector instruction may issue behind a queued MMA (R45). -/
def Cell.interlocked (c : Cell) (i : Issued) : Bool :=
  c.waiting.any fun q =>
    (match q.writesReg with
     | some r => i.ins.regs.contains r
     | none => false) ||
    (i.ins.op.unit = .array && q.ins.op.unit = .vec && q.tiles.any i.tiles.contains)

/-- The earliest cycle at which the registers and tiles of an instruction are there (R28). -/
def Cell.readyAt (c : Cell) (i : Issued) : Nat :=
  let rs := i.ins.regs.map fun r => SMap.get (fun _ => 0) c.regReady r
  let ts := if i.ins.op.unit = .array then i.tiles.map fun t => SMap.get (fun _ => 0) c.tileReady t else []
  (rs ++ ts).foldl max 0

/-- A queued MMA works on a tile of the instruction (R45). -/
def Cell.behindMma (c : Cell) (i : Issued) : Bool :=
  match c.arr.queue with
  | some q => q.tiles.any i.tiles.contains
  | none => false

def UnitSt.busy (u : UnitSt) (now : Nat) : Bool := decide (now < u.free) || u.queue.isSome || u.wait.isSome

/-- An instruction reaches its unit: it starts, or takes the unit's queue; none when the queue is
occupied and issue stalls (R27, R45, R56, R58). -/
def Cell.toUnit (c : Cell) (e : CellEnv) (run : Run) (i : Issued) : Option (Cell × List CellOut) :=
  match i.ins.op.unit with
  | .seq | .scalar => some (c.start e false run i)
  | .mem =>
    if !c.mem.busy e.now then some (c.start e false run i)
    else if c.mem.queue.isSome then none
    else some ({ c with mem := { c.mem with queue := some i } }, [])
  | .array =>
    if !c.arr.busy e.now then some (c.start e false run i)
    else if c.arr.queue.isSome then none
    else some ({ c with arr := { c.arr with queue := some i } }, [])
  | .vec =>
    if !c.vec.busy e.now then
      if c.behindMma i then some ({ c with vec := { c.vec with wait := some i } }, [])
      else some (c.start e false run i)
    else if c.vec.queue.isSome then none
    else some ({ c with vec := { c.vec with queue := some i } }, [])
  | .port =>
    if c.portQ.isSome then none
    else if c.portFree i then some (c.start e false run i)
    else some ({ c with portQ := some i }, [])
  | .sync =>
    if c.sync.isNone then some (c.start e false run i)
    else if c.syncQ.isSome then none
    else some ({ c with syncQ := some i }, [])
  | .svc =>
    if c.svcQ.isSome then none
    else if c.svc.length < 4 then some (c.start e false run i)
    else some ({ c with svcQ := some i }, [])

/-- The instruction with the register values it reads now (R27). -/
def Cell.capture (c : Cell) (i : FieldIns) : Issued :=
  { ins := i, pc := c.pc, ra := c.getG i.ra, rb := c.getG i.rb, rc := c.getG i.rc, rd := c.getG i.rd }

/-- The local offset of a program-store word (R527). -/
def progAddr (pc : BitVec 10) : Nat := 0x14000 + 8 * pc.toNat

/-- The two parity bits of a program-store word; a word that fails twice faults before it issues (R54). -/
def fetchParity (pc : BitVec 10) : CellM Unit := do
  let lo ← parityAt (8192 + 2 * pc.toNat)
  let hi ← parityAt (8193 + 2 * pc.toNat)
  if lo && hi then pure () else throw (CFault.dataUnc (progAddr pc))

/-- What a command that issues `op` does to its cell: the new cell, what leaves it, and the cycle it
happened in; none when nothing happens (the cell does not issue, waits, or holds another opcode). -/
def Cell.issue (c : Cell) (e : CellEnv) (op : FieldOp) (run : Run) : Option (Cell × List CellOut × Nat) :=
  if !c.issuing then none else
  match fetchParity c.pc c with
  | .error f c => some (c.fault f c.pc, [], e.now)
  | .ok _ c =>
    match decodeField (SMap.get (fun _ => 0) c.prog c.pc.toNat) with
    | none => some (c.fault CFault.illegal c.pc, [], e.now)
    | some ins =>
      if ins.op ≠ op then none
      else if !ins.legal then some (c.fault CFault.illegal c.pc, [], e.now)
      else
        let i := c.capture ins
        if c.interlocked i then none
        else
          let e := { e with now := max e.now (c.readyAt i) }
          if !i.legal then some (c.fault CFault.illegal c.pc, [], e.now)
          else (Cell.toUnit { c with pc := c.pc + 1 } e run i).map fun r => (r.1, r.2, e.now)

end Sys2Proof.Machine
end

