-- ==== Sys2Proof/Machine/Env.lean ====
section
/-! DEFINITION. The frame every command works in: what a polder reads around it, the posting of journal
records, completions and messages (R406 to R408, R431, R433, R513), and the answer an access gets before its
target sees it (R393, R404, R439, R462 to R467). Readings and choices: log 2, 4, 9, 15, 43, 52. -/

namespace Sys2Proof.Machine

/-- What a polder's blocks read of the module: which polder they are, the module, the free-value counter
and the telemetry cycle. -/
structure PolCtx where
  pid : Pid
  mod : Module
  free : Nat
  ticks : Nat
  deriving DecidableEq, Repr

/-- An RWS register as a polder's page applies it (R8, R508). -/
def PolCtx.cfg (x : PolCtx) (p : Polder) (off : Nat) (idx : Nat := 0) : W32 :=
  if p.unrestored.contains (pageDie off) then cfgDefault (cfgKey x.pid.val off idx)
  else x.mod.active.get x.pid.val off idx

/-- The generation a page of the polder applies (R508). -/
def PolCtx.gen (x : PolCtx) (p : Polder) (off : Nat) : W32 :=
  if p.unrestored.contains (pageDie off) then 0 else x.mod.active.gen

/-- The polder's rails are on (R482, R491). -/
def Module.powered (m : Module) (q : Pid) : Bool := SMap.get (fun _ => Rail.off) m.rails q.val = .on

/-- A journal record (R408). -/
def journalRecord (gen seq time : Nat) (policy action subject step : Nat) (detail : W64) : BitVec 256 :=
  detail ++ BitVec.ofNat 32 step ++ BitVec.ofNat 16 subject ++ BitVec.ofNat 8 action ++
    BitVec.ofNat 8 policy ++ BitVec.ofNat 64 time ++ BitVec.ofNat 32 seq ++ BitVec.ofNat 32 gen

/-- The Gauge accepts a journal post, or drops it when its queue is full (R407). -/
def Polder.post (p : Polder) (x : PolCtx) (policy action subject : Nat) (detail : W64) : Polder :=
  let g := p.gauge
  if 64 ≤ g.queue.length then (p.count (GAU + 0x9C) 1).raise GAU 8
  else
    let r := journalRecord (x.gen p GAU).toNat (g.seq + 1).toNat x.ticks policy action subject
      (bitsN p.twin.step 0 32) detail
    { p with gauge := { g with queue := g.queue ++ [r], seq := g.seq + 1 } }

/-- A command of the polder ends (R433). -/
def Polder.endCmd (p : Polder) (o : Origin) (st : Status) (deferred : Bool) (result : W64) : Polder :=
  match o with
  | .reg _ => p
  | .cmd slot tag _ => { p with ended := p.ended ++ [⟨slot, tag, st, deferred, result⟩] }

/-- A context slot's queues. -/
def Module.slot (m : Module) (k : Fin 64) : Slot := SMap.get (fun _ => Slot.reset) m.slots k.val

def Module.setSlot (m : Module) (k : Fin 64) (v : Slot) : Module :=
  { m with slots := SMap.set (fun _ => Slot.reset) m.slots k.val v }

/-- A per-slot register of the KQ page (R445). -/
def Module.kq (m : Module) (off : Nat) (k : Fin 64) : W32 := m.rd (KQ + off) (1 + k.val)

/-- Entries of a slot's completion ring (R431). -/
def Module.cqSize (m : Module) (k : Fin 64) : Nat := 2 ^ bitsN (m.kq 0x5C k) 8 4

/-- The completion ring is full (R431). -/
def Module.cqFull (m : Module) (k : Fin 64) : Bool :=
  let s := m.slot k
  (s.cqTail.toNat + 1) % m.cqSize k == s.cqHead.toNat % m.cqSize k

/-- Post a slot's completions while its ring has room (R431, R433, R513). -/
def Module.postAll : Nat → Module → Fin 64 → Module
  | 0, m, _ => m
  | n + 1, m, k =>
    let s := m.slot k
    match s.unposted with
    | [] => m
    | (c, h) :: rest =>
      if m.cqFull k then m
      else
        let t := s.cqTail.toNat % m.cqSize k
        let wrap := (t + 1) % m.cqSize k = 0
        let e : Completion :=
          { slot := k, place := t, tag := c.tag, status := c.status, phase := s.phase
            deferred := c.deferred, sqHead := h, result := c.result }
        let s' := { s with
          unposted := rest, cqTail := BitVec.ofNat 12 ((t + 1) % m.cqSize k)
          phase := if wrap then !s.phase else s.phase }
        let m := ({ m with completions := m.completions ++ [e] }).setSlot k s'
        Module.postAll n (m.sendMsix (bitsN (m.kq 0x5C k) 24 8)) k

/-- The first of a slot's commands with a tag. -/
def Slot.find (s : Slot) (tag : BitVec 16) : Option Cmd := s.cmds.find? fun c => c.tag == tag

/-- Commands without the first that carries a tag. -/
def dropTag (tag : BitVec 16) : List Cmd → List Cmd
  | [] => []
  | c :: r => if c.tag = tag then r else c :: dropTag tag r

/-- A command completes: it leaves the outstanding ones and its completion is posted (R433, R436). -/
def Module.finish (m : Module) (k : Fin 64) (tag : BitVec 16) (st : Status) (deferred : Bool) (result : W64) :
    Module :=
  let s := m.slot k
  match s.find tag with
  | none => m
  | some c =>
    let d := deferred || c.deferred
    let m := if d then m.count (KQ + 0x68) 1 (place := 1 + k.val) else m
    let m := m.setSlot k { s with cmds := dropTag tag s.cmds, unposted := s.unposted ++ [(⟨k, tag, st, d, result⟩, c.sqh)] }
    Module.postAll (s.unposted.length + 1) m k

/-- Post the records the Gauge accepted to the polder's ring, which overwrites its oldest (R406). -/
def Module.postJournal (m : Module) (q : Pid) (rs : List (BitVec 256)) : Module :=
  if rs.isEmpty then m else
  let l := SMap.get (fun _ => []) m.journals q.val ++ rs
  { m with journals := SMap.insert m.journals q.val (l.drop (l.length - 65536)) }

/-- Send entry 68 when the module summary rises (R513). -/
def Module.notifyFrom (m : Module) (before : Bool) : Module :=
  if !before && m.summary then m.sendMsix 68 else m

/-- What a polder has for the module goes out: journal records, completions, and entry 64 + p when its
summary rises (R406, R433, R513). -/
def State.settle (s : State) (q : Pid) (before : Bool) (p : Polder) : State :=
  let m := s.mod.postJournal q p.gauge.queue
  let m := p.ended.foldl (fun m e => m.finish e.slot e.tag e.status e.deferred e.result) m
  let m := if !before && p.summary then m.sendMsix (64 + q.val) else m
  { s with
    mod := { m with hostWrites := m.hostWrites ++ p.hostOut }
    pols := s.pols.set q { p with ended := [], hostOut := [], gauge := { p.gauge with queue := [] } } }

/-- Change one polder. -/
def State.onPol (s : State) (q : Pid) (f : PolCtx → Polder → Polder) : State :=
  let p := s.pol q
  s.settle q p.summary (f ⟨q, s.mod, s.free, s.ticks⟩ p)

/-- Change one polder with a value of the free-value counter, which advances (log 4). -/
def State.onPolFree (s : State) (q : Pid) (f : PolCtx → Polder → Polder) : State :=
  { s.onPol q f with free := s.free + 1 }

/-- Change the module. -/
def State.onMod (s : State) (f : Module → Module) : State :=
  { s with mod := (f s.mod).notifyFrom s.mod.summary }

/-- A reset under way covers a die: 0 to 3 field, 4 basin, 5 sluice (R387). -/
def Dom.coversDie (d : Dom) (die : Nat) : Bool :=
  match d with
  | .polder | .power => true
  | .die k => k == die
  | .plot _ | .engine _ => false

/-- A die is in reset or not ready again (R393, R397, R398). -/
def Polder.dieDown (p : Polder) (die : Nat) : Bool :=
  p.wdn.st = .failed ||
  p.wdn.ladders.any (fun l => !l.waiting && l.dom.coversDie die) ||
  p.wdn.recovs.any fun r =>
    match r.die with
    | none => true
    | some d => d == die

/-- The field die of a cell. -/
def dieOfCell (k : Nat) : Nat := 2 * (k / 160 / 128) + k % 160 / 80

/-- Incarnations (R394): of a die (0 to 3 field, 4 basin), a cell, an engine. -/
def Warden.incOfDie (w : Warden) (d : Nat) : BitVec 4 := w.polderInc + SMap.get (fun _ => 0) w.dieInc d
def Warden.incOfCell (w : Warden) (k : Nat) : BitVec 4 :=
  w.incOfDie (dieOfCell k) + SMap.get (fun _ => 0) w.cellInc k
def Warden.incOfEng (w : Warden) (e : Nat) : BitVec 4 := w.incOfDie (e / 16) + SMap.get (fun _ => 0) w.engInc e

/-- A cell is in reset or not ready again (R393). -/
def Polder.cellDown (p : Polder) (k : Nat) : Bool :=
  p.dieDown (dieOfCell k) ||
  p.wdn.ladders.any fun l => !l.waiting && (match l.dom with
    | .plot r => r.hasKey k
    | _ => false)

/-- An engine is in reset or not ready again (R393). -/
def Polder.engDown (p : Polder) (e : Nat) : Bool :=
  p.dieDown (e / 16) ||
  p.wdn.ladders.any fun l => !l.waiting && (match l.dom with
    | .engine k => k == e
    | _ => false)

/-- Page classes (R463). -/
inductive PageClass where
  | grid | memory | datapath | health | link | config | platform | security
  deriving DecidableEq, Repr

def PageClass.num : PageClass → Nat
  | .grid => 0 | .memory => 1 | .datapath => 2 | .health => 3 | .link => 4 | .config => 5
  | .platform => 6 | .security => 7

/-- The class of a block's pages (R463). -/
def Blk.cls : Blk → PageClass
  | .cel => .grid
  | .grd | .int | .out | .hbc | .lpc | .spw | .spwKv | .pmp | .htb | .flx0 | .flx1 | .flx2 | .inl | .twn => .datapath
  | .wdn | .gau => .health
  | .flp | .lne | .ucl | .sem => .link
  | .cfgP | .cfgM | .kq => .config
  | .pwr | .clk | .thm => .platform
  | .sec | .fus => .security

/-- The map denies an access (R464, R467). -/
def Module.denied (m : Module) (r : Requester) (c : PageClass) (write : Bool) : Bool :=
  (r = .debug && m.sensed.debugLock) ||
  m.sensed.protMap.getLsbD (16 * r.num + 2 * c.num + bit01 write)

/-- A denied access is counted and recorded (R466). -/
def Module.deny (m : Module) (r : Requester) (addr : Nat) (src : Nat := 0) : Module :=
  let kind := match r with
    | .fabric | .twin => 3
    | .debug => 5
    | _ => 4
  ((m.count (SEC + 0x44) 1 (place := 1 + r.num)).raise SEC 0).recordErr SEC Status.protection 0 kind src
    (BitVec.ofNat 64 addr)

/-- The first debug access since module reset (R467). -/
def Module.noteDebug (m : Module) (r : Requester) : Module :=
  if r = .debug && !m.sensed.debugLock && !m.debugUsed then { m with debugUsed := true }.raise SEC 3 else m

/-- What an access to a register page meets before its block sees it. -/
inductive Gate where
  /-- the block sees it -/
  | open
  /-- the protection map denies it (R466) -/
  | denied
  /-- the domain is down and the stand-in answers (R393), or the keeper die resets (R439) -/
  | down
  /-- its context is quarantined and it is a write (R404) -/
  | quarantined
  deriving DecidableEq, Repr

/-- A context is quarantined at a polder (R404). -/
def Polder.quarantined (p : Polder) (ctx : BitVec 16) : Bool :=
  p.wdn.quar.any fun e => e.2.valid && e.2.ctx == ctx

/-- A register page of a polder is down: the stand-in answers for it. The Warden's own page answers
through every reset but a power cycle (R382, R393). -/
def Polder.pageDown (p : Polder) (off : Nat) : Bool :=
  if off / 0x1000 = 0 then p.wdn.ladders.any (fun l => l.dom = .power) || p.wdn.recovs.any (·.phase = 2)
  else p.dieDown (pageDie off) || (match polPage off with
    | some g =>
      match g.blk with
      | .int => p.engDown (16 * (g.inst / 8) + g.inst % 8)
      | .out => p.engDown (16 * (g.inst / 8) + 8 + g.inst % 8)
      | _ => false
    | none => false)

/-- The keeper die resets and the server's direct accesses are not served (R439). -/
def Module.serverShut (m : Module) (r : Requester) : Bool := r = .keeperAgent && m.keeper ≠ .ready

/-- The place of the KEEPER_FW copy of a selector register (R517). -/
abbrev fwPlace : Nat := 2 ^ 30

/-- A selector register as a requester's copy holds it (R517). -/
def Polder.sel (p : Polder) (off : Nat) (w : Who) : Nat := p.rdN off (if w.req = .keeperFw then fwPlace else 0)
def Module.sel (m : Module) (off : Nat) (w : Who) : Nat :=
  (m.rd off (if w.req = .keeperFw then fwPlace else 0)).toNat

/-- How an access to a polder's page at `off` is met (R393, R404, R439, R466). -/
def State.polGate (s : State) (q : Pid) (cls : PageClass) (off : Nat) (w : Who) (write : Bool) : Gate :=
  let p := s.pol q
  if s.mod.denied w.req cls write then .denied
  else if s.mod.serverShut w.req || !s.mod.powered q || p.pageDown off then .down
  else if write && off / 0x1000 ≠ 0 && p.quarantined w.ctx then .quarantined
  else .open

/-- How an access to a cell's window is met. -/
def State.cellGate (s : State) (c : CellId) (w : Who) (write : Bool) : Gate :=
  let p := s.pol c.p
  if s.mod.denied w.req .grid write then .denied
  else if s.mod.serverShut w.req || !s.mod.powered c.p || p.cellDown c.key then .down
  else if write && p.quarantined w.ctx then .quarantined
  else .open

/-- How an access to a module page is met. -/
def State.modGate (s : State) (cls : PageClass) (w : Who) (write : Bool) : Gate :=
  if s.mod.denied w.req cls write then .denied
  else if s.mod.serverShut w.req && s.mod.keeper ≠ .noImage then .down
  else .open

/-- A stand-in answer counts while the Warden lives to give it (R393). -/
def State.standIn (s : State) (q : Pid) : State :=
  if s.mod.powered q then s.onPol q fun _ p => p.count (WDN + 0x68) 1 else s

/-- A write through a gate: it takes effect, or is answered without one. Nothing reaches a module that is off
or in module reset (R485). -/
def State.throughPol (s : State) (q : Pid) (g : Gate) (w : Who) (addr : Nat) (f : State → State) : State :=
  if s.mod.power ≠ .on then s else
  let s := s.onMod fun m => m.noteDebug w.req
  match g with
  | .open => f s
  | .denied => s.onMod fun m => m.deny w.req addr
  | .down => s.standIn q
  | .quarantined => s

/-- A register write that reaches a polder page (R466). -/
def State.writePage (s : State) (q : Pid) (off : Nat) (w : Who) (f : PolCtx → Polder → Polder) : State :=
  match polPage off with
  | none => s
  | some g => s.throughPol q (s.polGate q g.blk.cls off w true) w off fun s => s.onPol q f

/-- A register write that reaches a module page. -/
def State.writeMod (s : State) (off : Nat) (w : Who) (f : Module → Module) : State :=
  match modPage off with
  | none => s
  | some g =>
    if s.mod.power ≠ .on then s else
    let s' := s.onMod fun m => m.noteDebug w.req
    match s.modGate g.blk.cls w true with
    | .open => s'.onMod f
    | .denied => s'.onMod fun m => m.deny w.req off
    | .down => s'
    | .quarantined => s'

/-- A block of the polder takes part in what happens: its rails are on and its die is up. -/
def State.live (s : State) (q : Pid) (die : Nat) : Bool := s.mod.powered q && !(s.pol q).dieDown die

/-- An event of a polder's block: it happens only where the block lives. -/
def State.event (s : State) (q : Pid) (die : Nat) (f : PolCtx → Polder → Polder) : State :=
  if s.live q die then s.onPol q f else s

end Sys2Proof.Machine
end

