-- ==== Sys2Proof/Machine/Grid.lean ====
section
/-! DEFINITION. Operations over a polder's grid that several families share: cells, slot tables, weirs, grid
faults, time, and the issuing of a field-program instruction (chapters 02 and 04). Readings and choices: log
17. Readings and choices: log 17. -/

namespace Sys2Proof.Machine

def Polder.cell (p : Polder) (k : Nat) : Cell := SMap.get (fun _ => Cell.reset) p.grid.cells k

def Polder.setCell (p : Polder) (k : Nat) (c : Cell) : Polder :=
  { p with grid := { p.grid with cells := SMap.set (fun _ => Cell.reset) p.grid.cells k c } }

/-- Change the grid's own state. -/
def Polder.onGrid (p : Polder) (f : Grid → Grid) : Polder := { p with grid := f p.grid }

/-- The polder's schedule has reached a cycle; its clocks run together while it is not frozen. -/
def Polder.reach (p : Polder) (now : Nat) : Polder :=
  { p with cycle := max p.cycle now, field := p.field + (max p.cycle now - p.cycle) }

/-- The key of a slot-table entry: net 0 data, 1 control (R101, R108). -/
def slotKey (net cell table slot : Nat) : Nat := ((net * 40960 + cell) * 8 + table) * 64 + slot

/-- A slot-table entry (R101, R108). -/
def Grid.slotAt (g : Grid) (net cell table slot : Nat) : BitVec 16 :=
  SMap.get (fun _ => 0) g.slots (slotKey net cell table slot)

/-- A data-net entry is valid for a circuit (R101). -/
def reserves (e : BitVec 16) (circ : Nat) : Bool := e.getLsbD 15 && bitsN e 12 3 == circ

/-- The first cycle from `now` on whose slot an entry of the table passes; none when no slot does. -/
def Grid.nextSlot (g : Grid) (net cell table : Nat) (ok : BitVec 16 → Bool) (now : Nat) : Option Nat :=
  ((List.range 64).map fun k => now + k).find? fun t => ok (g.slotAt net cell table (t % 64))

/-- The key of a weir's setting, and of the weir (R104). -/
def weirKey (cell out circ : Nat) : Nat := (cell * 6 + out) * 8 + circ
def Grid.weir (g : Grid) (cell out circ : Nat) : WeirSet := SMap.get (fun _ => WeirSet.off) g.weirs (weirKey cell out circ)
def Grid.epoch (g : Grid) (cell : Nat) : BitVec 2 := SMap.get (fun _ => 0) g.epochs cell
def Grid.queue (g : Grid) (cell out : Nat) : List QToken := SMap.get (fun _ => []) g.queues (cell * 6 + out)

/-- The Intake or Outfall engine that attaches at a cell's router, by `EngId.key` (R100). -/
def edgeEngine (cell : Nat) : Option Nat :=
  let row := cell / 160
  let col := cell % 160
  let side := if row = 0 then some 0 else if row = 255 then some 2 else none
  let k := col % 80 / 10
  side.bind fun d =>
    if col % 10 = 2 then some (16 * (d + col / 80) + k)
    else if col % 10 = 7 then some (16 * (d + col / 80) + 8 + k)
    else none

/-- The router has a directional port on this side (R99). -/
def hasSide (cell port : Nat) : Bool :=
  match port with
  | 0 => decide (0 < cell / 160)
  | 1 => decide (cell % 160 < 159)
  | 2 => decide (cell / 160 < 255)
  | _ => decide (0 < cell % 160)

/-- The router has this input (R99). -/
def hasInput (cell port : Nat) : Bool :=
  if port < 4 then hasSide cell port
  else if port = 5 then (match edgeEngine cell with
    | some e => e % 16 < 8
    | none => false)
  else port == 4

/-- The router has this output (R99). -/
def hasOutput (cell port : Nat) : Bool :=
  if port < 4 then hasSide cell port
  else if port = 5 then (match edgeEngine cell with
    | some e => 8 ≤ e % 16
    | none => false)
  else port == 4

/-- The neighbouring cell on a side. -/
def neighbour (cell port : Nat) : Nat :=
  match port with
  | 0 => cell - 160
  | 1 => cell + 1
  | 2 => cell + 160
  | _ => cell - 1

/-- The side of the neighbour that faces back. -/
def facing (port : Nat) : Nat := (port + 2) % 4

/-- The link on a side crosses a seam (R95). -/
def crossesSeam (cell port : Nat) : Bool :=
  match port with
  | 0 => cell / 160 == 128
  | 1 => cell % 160 == 79
  | 2 => cell / 160 == 127
  | _ => cell % 160 == 80

/-- Cycles a link costs (R96). -/
def linkCycles (cell port : Nat) : Nat := if crossesSeam cell port then 24 else 1

/-- The router's name in a report: row, column, port (R106). -/
def routerAddr (cell port : Nat) : W64 := BitVec.ofNat 64 (cell / 160 + 256 * (cell % 160) + 65536 * port)

/-- The grid reports a fault at a router: event, error, and the Warden's notice (R105 to R108, R384). -/
def Polder.gridFault (p : Polder) (code : Status) (ev cell port : Nat) : Polder :=
  ((p.raise GRD ev).recordErr GRD code ev 1 0 (routerAddr cell port)).onGrid fun g =>
    { g with faults := g.faults ++ [(cell, code)] }

/-- What leaves a cell enters the networks (R56, R108, R110). A token of a cell whose injection table
holds no valid entry is discarded. -/
def Polder.emit1 (p : Polder) (o : CellOut) : Polder :=
  match o with
  | .incr i => p.onGrid fun g => { g with incrs := g.incrs ++ [i] }
  | .pkt k => p.onGrid fun g => { g with svc := g.svc ++ [k] }
  | .token t =>
    if (p.grid.nextSlot 1 t.cell 6 (fun e => e.getLsbD 15) t.arrive).isSome then
      p.onGrid fun g => { g with tokens := g.tokens ++ [t] }
    else p.gridFault Status.internal 3 t.cell 0

def Polder.emit (p : Polder) (l : List CellOut) : Polder := l.foldl Polder.emit1 p

/-- A cell's surroundings (R31, R58, R88). -/
def Polder.env (p : Polder) (x : PolCtx) (k : Nat) : CellEnv :=
  { pid := x.pid.val, key := k, now := p.cycle, rngKey := p.grid.rngKey, rngStep := p.grid.rngStep
    inc := p.wdn.incOfCell k }

/-- A step of a cell's own units: nothing happens to a cell that is down or frozen (R31, R393). -/
def State.onCell (s : State) (c : CellId)
    (f : CellEnv → Cell → Option (Cell × List CellOut × Nat)) : State :=
  if !s.mod.powered c.p || (s.pol c.p).cellDown c.key || (s.pol c.p).grid.hold.frozen then s
  else s.onPol c.p fun x p =>
    match f (p.env x c.key) (p.cell c.key) with
    | none => p
    | some (cell, out, now) => ((p.setCell c.key cell).emit out).reach now

/-- The sequencer of a cell issues the instruction at its PC, if it is an `op` (R27). -/
def State.issue (s : State) (c : CellId) (op : FieldOp) (run : Run) : State :=
  s.onCell c fun e cell => cell.issue e op run

end Sys2Proof.Machine
end

