-- ==== Sys2Proof/Machine/CellEvents.lean ====
section
/-! DEFINITION. The events of a cell's own units: queued instructions that start, waits that end, SERVICE
accesses and increments that land, starting, stopping and resetting a cell (R27, R34, R41, R56 to R60, R64,
R66, R91, R128, R527, R528). Readings and choices: log 16. -/

namespace Sys2Proof.Machine

/-- Start a queued instruction at `now`. -/
def Cell.startQueued (c : Cell) (e : CellEnv) (now : Nat) (queued : Bool) (i : Issued) :
    Option (Cell × List CellOut × Nat) :=
  let r := c.start { e with now := now } queued (runOf i.ins.op) i
  some (r.1, r.2, now)

/-- A cell has faulted: the operation `m` ran, and a fault it met is the cell's (R63). -/
def Cell.run1 (c : Cell) (m : CellM Unit) : Cell :=
  match m c with
  | .ok _ c => c
  | .error f c => c.fault f c.pc

/-- STATE becomes HALTED (R34, R528). -/
def Cell.halted (c : Cell) : Cell :=
  let c := c.run1 flushAll
  if c.st = .faulted then c
  else { c with st := .halted, run := false, drain := .none }.raise evHalted

/-- CELL_HALT_COMPLETE (R34, R528). -/
def execCellHaltComplete (c : CellId) (s : State) : Host.Outcome State Fault Refusal :=
  .next (s.onCell c fun e cell =>
    if (cell.drain = .halt || cell.drain = .stop) && cell.allDone then
      some (cell.halted, [], max e.now cell.unitsFree)
    else none)

/-- FENCE_RELEASE (R34). -/
def execFenceRelease (c : CellId) (s : State) : Host.Outcome State Fault Refusal :=
  .next (s.onCell c fun e cell =>
    if cell.drain = .fence && cell.writesDone then
      some ({ cell with drain := .none }, [], max e.now cell.unitsFree)
    else none)

/-- TWAIT_RELEASE: the target tide and slot arrive (R34, R58). -/
def execTwaitRelease (c : CellId) (s : State) : Host.Outcome State Fault Refusal :=
  .next (s.onCell c fun e cell =>
    match cell.sync with
    | some (.twait t slot) =>
      let here := cell.tide e.now * 64 + e.now % 64
      some ({ cell with sync := none, st := .running }, [], e.now + (t.toNat * 64 + slot - here))
    | _ => none)

/-- SWAIT_RELEASE: the semaphore has reached n (R57). -/
def execSwaitRelease (c : CellId) (s : State) : Host.Outcome State Fault Refusal :=
  .next (s.onCell c fun e cell =>
    match cell.sync with
    | some (.swait k n) =>
      if n ≤ cell.sem k.val then
        some ({ cell.setSem k.val (cell.sem k.val - n) with sync := none, st := .running }, [], e.now)
      else none
    | _ => none)

/-- ARRAY_QUEUE_START; a vector instruction that waited for its tile follows it (R41, R45). -/
def execArrayQueueStart (c : CellId) (s : State) : Host.Outcome State Fault Refusal :=
  .next (s.onCell c fun e cell =>
    match cell.arr.queue with
    | none => none
    | some i =>
      let now := max e.now (max cell.arr.free (cell.readyAt i))
      let r := Cell.start { cell with arr := { cell.arr with queue := none } } { e with now := now } true runMma i
      match r.1.vec.wait with
      | none => some (r.1, r.2, now)
      | some j =>
        let r2 := Cell.start { r.1 with vec := { r.1.vec with wait := none } } { e with now := now } false
          (runOf j.ins.op) j
        some (r2.1, r.2 ++ r2.2, now))

/-- UNIT_QUEUE_START (R27, R56). -/
def execUnitQueueStart (c : CellId) (u : UnitId) (s : State) : Host.Outcome State Fault Refusal :=
  .next (s.onCell c fun e cell =>
    match u with
    | .mem =>
      match cell.mem.queue with
      | none => none
      | some i =>
        Cell.startQueued { cell with mem := { cell.mem with queue := none } } e (max e.now cell.mem.free) false i
    | .vec =>
      match cell.vec.queue with
      | none => none
      | some i =>
        if cell.vec.wait.isSome then none
        else if cell.behindMma i then
          some ({ cell with vec := { cell.vec with queue := none, wait := some i } }, [], max e.now cell.vec.free)
        else
          Cell.startQueued { cell with vec := { cell.vec with queue := none } } e (max e.now cell.vec.free) false i
    | .svc =>
      match cell.svcQ with
      | none => none
      | some i =>
        if cell.svc.length < 4 then Cell.startQueued { cell with svcQ := none } e e.now false i else none)

/-- PORT_QUEUE_START (R58). -/
def execPortQueueStart (c : CellId) (s : State) : Host.Outcome State Fault Refusal :=
  .next (s.onCell c fun e cell =>
    match cell.portQ with
    | none => none
    | some i => if cell.portFree i then Cell.startQueued { cell with portQ := none } e e.now false i else none)

/-- Increments that reach a semaphore; past 255 it stays at 255 and the cell faults (R57). -/
def Cell.addSem (c : Cell) (k n : Nat) : Cell :=
  let v := c.sem k + n
  if 255 < v then (c.setSem k 255).fault ⟨Status.internal, evSemOverflow, 0⟩ c.pc else c.setSem k v

/-- The first increment in flight of this kind leaves the sync net, at the cycle it is visible from. -/
def takeIncr (eng : Bool) (target sem n : Nat) : List Incr → Option (Incr × List Incr)
  | [] => none
  | i :: r =>
    if i.eng = eng ∧ i.target = target ∧ i.sem = sem ∧ i.n = n then some (i, r)
    else (takeIncr eng target sem n r).map fun q => (q.1, i :: q.2)

/-- SEM_INCREMENT (R31, R57, R110): increments arrive during HOLD too; those to a cell in reset are
discarded (R393). -/
def execSemIncrement (c : CellId) (sem : Fin 16) (n : Byte) (s : State) : Host.Outcome State Fault Refusal :=
  .next (if !s.mod.powered c.p then s
  else if (s.pol c.p).cellDown c.key then s.standIn c.p
  else s.onPol c.p fun _ p =>
    let q := takeIncr false c.key sem.val n.toNat p.grid.incrs
    let p := match q with
      | some (i, rest) =>
        let p := p.onGrid fun g => { g with incrs := rest }
        if p.grid.hold.frozen then p else p.reach i.visible
      | none => p
    p.setCell c.key ((p.cell c.key).addSem sem.val n.toNat))

/-- What a finished SERVICE access does at the cell that issued it (R56). -/
def Cell.svcEnds (c : Cell) (a : SvcAcc) (st : Status) : Cell :=
  let c := { c with svc := c.svc.filter fun b => b.place ≠ a.place }
  if st = Status.done then
    let c := if a.isRead then c.run1 (putBytes a.localAddr (a.data.flatMap fun w => bytesOf w 8)) else c
    c.addSem a.sem.val 1
  else
    c.fault ⟨st, if st = Status.dataUncorrectable then evDataUnc else 31, a.remoteAddr⟩ a.pc

/-- SERVICE_ACCESS_COMPLETE (R56); SERVICE proceeds during HOLD (R31). -/
def execServiceAccessComplete (c : CellId) (i : Fin 4) (s : State) : Host.Outcome State Fault Refusal :=
  .next (if !s.mod.powered c.p || (s.pol c.p).cellDown c.key then s
  else s.onPol c.p fun _ p =>
    let cell := p.cell c.key
    match cell.svc.find? fun a => a.place == i.val with
    | some a =>
      match a.answer with
      | some st => p.setCell c.key (cell.svcEnds a st)
      | none => p
    | none => p)

/-- AMXS_COMPLETE: the Gauge has taken the report; a sync instruction that waited begins (R60, R410). -/
def execAmxsComplete (c : CellId) (s : State) : Host.Outcome State Fault Refusal :=
  .next (if !s.mod.powered c.p || (s.pol c.p).cellDown c.key || (s.pol c.p).grid.hold.frozen then s
  else s.onPol c.p fun x p =>
    let cell := p.cell c.key
    match cell.sync with
    | some (.amxs t v) =>
      let p := { p with gauge := { p.gauge with inbox := p.gauge.inbox ++ [AmaxRep.mk c.key t v] } }
      let cell := { cell with sync := none }
      match cell.syncQ with
      | none => p.setCell c.key cell
      | some i =>
        let r := Cell.start { cell with syncQ := none } (p.env x c.key) false (runOf i.ins.op) i
        (p.setCell c.key r.1).emit r.2
    | _ => p)

/-- CELL_RESET: a cell of a domain in reset or recovery reaches its reset state (R64, R387, R397). -/
def execCellReset (c : CellId) (s : State) : Host.Outcome State Fault Refusal :=
  .next (if s.mod.powered c.p && (s.pol c.p).cellDown c.key then
    s.onPol c.p fun _ p => p.setCell c.key Cell.reset else s)

/-- A write of 1 to CTRL.RUN makes a start pending (R128); while RUN is 1 it is ignored (R66). -/
def Cell.runWrite (c : Cell) (cycle : Nat) : Cell :=
  if c.run then c
  else { c with run := true, startAt := some (16 * (cycle / 1024 + 1)), startIssue := false }

/-- CEL_RUN_WRITE (R66, R128). -/
def execCelRunWrite (c : CellId) (w : Who) (s : State) : Host.Outcome State Fault Refusal :=
  .next (s.throughPol c.p (s.cellGate c w true) w (0x1F00C + 2 ^ 17 * c.key) fun s =>
    s.onPol c.p fun _ p => p.setCell c.key ((p.cell c.key).runWrite p.cycle))

/-- The cell's start cycle (R98, R128, R145). -/
def Cell.begin (c : Cell) (tide : Nat) : Cell :=
  { c with st := .running, run := true, startAt := none, startIssue := false, base := some tide
           pc := bits (c.rd 0x40) 0 10 }

/-- CELL_START: slot 0 of the tide a direct start waits for (R128). -/
def execCellStart (c : CellId) (s : State) : Host.Outcome State Fault Refusal :=
  .next (s.onCell c fun e cell =>
    match cell.startAt with
    | some t => if cell.startIssue then none else some (cell.begin t, [], max e.now (64 * t))
    | none => none)

/-- CTRL.STOP (R528). -/
def Cell.stop (c : Cell) : Cell :=
  if c.startAt.isSome then { c with run := false, startAt := none, startIssue := false }
  else if c.st = .running || c.st = .waitSem || c.st = .waitTide then
    { c with
      drain := .stop, ports := [], portQ := none
      sync := match c.sync with
        | some (.amxs t v) => some (.amxs t v)
        | _ => none
      syncQ := match c.syncQ with
        | some i => if i.waits then none else some i
        | none => none }
  else c

/-- CEL_STOP (R528). -/
def execCelStop (c : CellId) (w : Who) (s : State) : Host.Outcome State Fault Refusal :=
  .next (s.throughPol c.p (s.cellGate c w true) w (0x1F00C + 2 ^ 17 * c.key) fun s =>
    s.onPol c.p fun _ p => p.setCell c.key (p.cell c.key).stop)

/-- A half of a program-store word is written; a running cell stores nothing (R66, R527). -/
def Cell.writeProg (c : Cell) (pc : Nat) (hi : Bool) (v : W32) : Cell :=
  if c.run then c
  else
    let w := SMap.get (fun _ => 0) c.prog pc
    { c with
      prog := SMap.set (fun _ => 0) c.prog pc (if hi then v ++ bits w 0 32 else bits w 32 32 ++ v)
      upset := SMap.erase c.upset (8192 + 2 * pc + bit01 hi) }

/-- PROGRAM_STORE_WRITE (R66, R462, R527): only the keeper and the debug port reach the store. -/
def execProgramStoreWrite (c : CellId) (w : Who) (pc : Fin 1024) (hi : Bool) (v : W32) (s : State) :
    Host.Outcome State Fault Refusal :=
  .next (if w.req = .fabric || w.req = .twin || w.req = .inlet then s
  else s.throughPol c.p (s.cellGate c w true) w (0x14000 + 8 * pc.val + 4 * bit01 hi + 2 ^ 17 * c.key) fun s =>
    s.onPol c.p fun _ p => p.setCell c.key ((p.cell c.key).writeProg pc.val hi v))

/-- A random-stream register takes effect: key word 0 to 3, or the step (R91). -/
def Grid.setRng (g : Grid) (i : Nat) (v : W32) : Grid :=
  if i < 4 then
    { g with rngKey := (g.rngKey &&& ~~~(0xFFFFFFFF#128 <<< (32 * i))) ||| (v.setWidth 128 <<< (32 * i)) }
  else { g with rngStep := v }

/-- A cell of the polder has RUN = 1 (R91). -/
def Polder.anyRun (p : Polder) : Bool := p.grid.cells.any fun e => e.2.run

/-- RNG_REGISTER_WRITE (R91). -/
def execRngRegisterWrite (p : Pid) (w : Who) (i : Fin 5) (v : W32) (s : State) :
    Host.Outcome State Fault Refusal :=
  .next (s.writePage p (GRD + 0x100 + 4 * i.val) w fun _ q =>
    if q.anyRun then q.onGrid fun g => { g with rngHeld := SMap.insert g.rngHeld i.val v }
    else q.onGrid fun g => g.setRng i.val v)

end Sys2Proof.Machine
end

