-- ==== Sys2Proof/Machine/CellProgram.lean ====
section
/-! DEFINITION. The meanings of the field-program rows and of the events of a cell's own units (R27 to
R64, R128, R527, R528). A field-program row names a cell: its sequencer issues the instruction at its PC,
when that is the row's opcode and the sequencer may issue; else nothing happens. -/

namespace Sys2Proof.Machine

/-- HALT (R34). -/
def execHalt (c : CellId) (s : State) : Host.Outcome State Fault Refusal := .next (s.issue c .halt runHalt)

/-- NOP (R34). -/
def execNop (c : CellId) (s : State) : Host.Outcome State Fault Refusal := .next (s.issue c .nop runNop)

/-- JMP (R34). -/
def execJmp (c : CellId) (s : State) : Host.Outcome State Fault Refusal := .next (s.issue c .jmp runJmp)

/-- LOOP (R34). -/
def execLoop (c : CellId) (s : State) : Host.Outcome State Fault Refusal := .next (s.issue c .loop runLoop)

/-- BRC (R34). -/
def execBrc (c : CellId) (s : State) : Host.Outcome State Fault Refusal := .next (s.issue c .brc runBrc)

/-- FENCE (R34, R52). -/
def execFence (c : CellId) (s : State) : Host.Outcome State Fault Refusal := .next (s.issue c .fence runFence)

/-- TWAIT (R34, R58). -/
def execTwait (c : CellId) (s : State) : Host.Outcome State Fault Refusal := .next (s.issue c .twait runTwait)

/-- MOVS (R34). -/
def execMovs (c : CellId) (s : State) : Host.Outcome State Fault Refusal := .next (s.issue c .movs runMovs)

/-- ADD (R34). -/
def execAdd (c : CellId) (s : State) : Host.Outcome State Fault Refusal := .next (s.issue c .add runAdd)

/-- ADDI (R34). -/
def execAddi (c : CellId) (s : State) : Host.Outcome State Fault Refusal := .next (s.issue c .addi runAddi)

/-- SUB (R34). -/
def execSub (c : CellId) (s : State) : Host.Outcome State Fault Refusal := .next (s.issue c .sub runSub)

/-- MUL (R34). -/
def execMul (c : CellId) (s : State) : Host.Outcome State Fault Refusal := .next (s.issue c .mul runMul)

/-- AND (R34). -/
def execAnd (c : CellId) (s : State) : Host.Outcome State Fault Refusal := .next (s.issue c .and runAnd)

/-- OR (R34). -/
def execOr (c : CellId) (s : State) : Host.Outcome State Fault Refusal := .next (s.issue c .or runOr)

/-- XOR (R34). -/
def execXor (c : CellId) (s : State) : Host.Outcome State Fault Refusal := .next (s.issue c .xor runXor)

/-- SHLI (R34). -/
def execShli (c : CellId) (s : State) : Host.Outcome State Fault Refusal := .next (s.issue c .shli runShli)

/-- SHRI (R34). -/
def execShri (c : CellId) (s : State) : Host.Outcome State Fault Refusal := .next (s.issue c .shri runShri)

/-- LDI (R34). -/
def execLdi (c : CellId) (s : State) : Host.Outcome State Fault Refusal := .next (s.issue c .ldi runLdi)

/-- LDHI (R34). -/
def execLdhi (c : CellId) (s : State) : Host.Outcome State Fault Refusal := .next (s.issue c .ldhi runLdhi)

/-- LD (R29, R34, R52). -/
def execLd (c : CellId) (s : State) : Host.Outcome State Fault Refusal := .next (s.issue c .ld runLd)

/-- ST (R34, R52). -/
def execSt (c : CellId) (s : State) : Host.Outcome State Fault Refusal := .next (s.issue c .st runSt)

/-- COPY (R28, R34). -/
def execCopy (c : CellId) (s : State) : Host.Outcome State Fault Refusal := .next (s.issue c .copy runCopy)

/-- VCLR (R34, R50). -/
def execVclr (c : CellId) (s : State) : Host.Outcome State Fault Refusal := .next (s.issue c .vclr runVclr)

/-- SVRD (R56). -/
def execSvrd (c : CellId) (s : State) : Host.Outcome State Fault Refusal := .next (s.issue c .svrd runSvrd)

/-- SVWR (R56). -/
def execSvwr (c : CellId) (s : State) : Host.Outcome State Fault Refusal := .next (s.issue c .svwr runSvwr)

/-- SEND (R58, R525). -/
def execSend (c : CellId) (s : State) : Host.Outcome State Fault Refusal := .next (s.issue c .send runSend)

/-- RECV (R58). -/
def execRecv (c : CellId) (s : State) : Host.Outcome State Fault Refusal := .next (s.issue c .recv runRecv)

/-- SWAIT (R57). -/
def execSwait (c : CellId) (s : State) : Host.Outcome State Fault Refusal := .next (s.issue c .swait runSwait)

/-- SSIG (R57, R110). -/
def execSsig (c : CellId) (s : State) : Host.Outcome State Fault Refusal := .next (s.issue c .ssig runSsig)

/-- WTOK (R59, R108). -/
def execWtok (c : CellId) (s : State) : Host.Outcome State Fault Refusal := .next (s.issue c .wtok runWtok)

/-- AMXS (R60). -/
def execAmxs (c : CellId) (s : State) : Host.Outcome State Fault Refusal := .next (s.issue c .amxs runAmxs)

/-- MMA (R37 to R43). -/
def execMma (c : CellId) (s : State) : Host.Outcome State Fault Refusal := .next (s.issue c .mma runMma)

/-- AZERO (R44). -/
def execAzero (c : CellId) (s : State) : Host.Outcome State Fault Refusal := .next (s.issue c .azero runAzero)

/-- AACC (R44). -/
def execAacc (c : CellId) (s : State) : Host.Outcome State Fault Refusal := .next (s.issue c .aacc runAacc)

/-- ASCALE (R44). -/
def execAscale (c : CellId) (s : State) : Host.Outcome State Fault Refusal := .next (s.issue c .ascale runAscale)

/-- ACVT (R43, R44, R60, R61). -/
def execAcvt (c : CellId) (s : State) : Host.Outcome State Fault Refusal := .next (s.issue c .acvt runAcvt)

/-- VADD (R73). -/
def execVadd (c : CellId) (s : State) : Host.Outcome State Fault Refusal := .next (s.issue c .vadd runVadd)

/-- VSUB (R73). -/
def execVsub (c : CellId) (s : State) : Host.Outcome State Fault Refusal := .next (s.issue c .vsub runVsub)

/-- VMUL (R73). -/
def execVmul (c : CellId) (s : State) : Host.Outcome State Fault Refusal := .next (s.issue c .vmul runVmul)

/-- VFMA (R73). -/
def execVfma (c : CellId) (s : State) : Host.Outcome State Fault Refusal := .next (s.issue c .vfma runVfma)

/-- VMAX (R73). -/
def execVmax (c : CellId) (s : State) : Host.Outcome State Fault Refusal := .next (s.issue c .vmax runVmax)

/-- VMIN (R73). -/
def execVmin (c : CellId) (s : State) : Host.Outcome State Fault Refusal := .next (s.issue c .vmin runVmin)

/-- VSCL (R73). -/
def execVscl (c : CellId) (s : State) : Host.Outcome State Fault Refusal := .next (s.issue c .vscl runVscl)

/-- VRSUM (R73). -/
def execVrsum (c : CellId) (s : State) : Host.Outcome State Fault Refusal := .next (s.issue c .vrsum runVrsum)

/-- VRMAX (R73). -/
def execVrmax (c : CellId) (s : State) : Host.Outcome State Fault Refusal := .next (s.issue c .vrmax runVrmax)

/-- CVT (R74 to R77). -/
def execCvt (c : CellId) (s : State) : Host.Outcome State Fault Refusal := .next (s.issue c .cvt runCvt)

/-- FLOAD (R46). -/
def execFload (c : CellId) (s : State) : Host.Outcome State Fault Refusal := .next (s.issue c .fload runFload)

/-- FEVAL (R47 to R49). -/
def execFeval (c : CellId) (s : State) : Host.Outcome State Fault Refusal := .next (s.issue c .feval runFeval)

/-- FBWD (R49). -/
def execFbwd (c : CellId) (s : State) : Host.Outcome State Fault Refusal := .next (s.issue c .fbwd runFbwd)


end Sys2Proof.Machine
end

