-- ==== Sys2Proof/Config.lean ====
section
/-! DEFINITION. What one part or its surroundings fix and the manual leaves open: free values. None of these
constants has a body, so no proof can learn a value of it. Readings and choices: log 4. -/

namespace Sys2Proof.Config

/-- Free words: applied to the state's counter where the manual names a value and states none (log 4). -/
opaque freeWord : Nat → BitVec 64

/-- The choice among the results that "within 1 ulp" admits for RSQRT (R275, log 4). -/
opaque rsqrtPick : Nat → Nat

/-- Results of EXP2 and LOG2 of a micro-program (R275, log 4). -/
opaque exp2 : Nat → BitVec 32 → BitVec 32
opaque log2 : Nat → BitVec 32 → BitVec 32

/-- The column factors and the row mean a FACTORED pass leaves (R274, log 4): by counter and place. -/
opaque factors : Nat → Nat → BitVec 32

/-- The signature halves the security engine forms over a report (R473, log 4). -/
opaque signature : Nat → BitVec 384 × BitVec 384

/-- What a record or a header holds in places the manual gives no value for (R384, R401, R408, log 4): by polder,
place, and the journal's sequence number. -/
opaque unstated : Nat → Nat → Nat → BitVec 64

/-- CLKDOM.SYNC of a page, by block type and instance (R479, log 4). -/
opaque syncCycles : Nat → BitVec 8

end Sys2Proof.Config
end

