-- ==== Sys2Proof/Machine/GridNet.lean ====
section
/-! DEFINITION. The grid's networks: beats, tokens, SERVICE packets, weirs, HOLD and reconfiguration (R95 to
R129). Readings and choices: log 16, 17. -/

namespace Sys2Proof.Machine

/-- Every field of a polder's cell that lies in reset answers by the stand-in (R393). -/
def Polder.countStandin (p : Polder) : Polder := p.count (WDN + 0x68) 1

/-- TIDE_WRAP: the slot wraps and GRD_TIDE advances, unless the polder is frozen (R98). -/
def execTideWrap (p : Pid) (s : State) : Host.Outcome State Fault Refusal :=
  .next (if !s.mod.powered p then s
  else s.onPol p fun _ q => if q.grid.hold.frozen then q else q.reach (64 * (q.cycle / 64 + 1)))

/-- The outputs and output circuits whose settings select an input port and circuit (R103, R104). -/
def Grid.selected (g : Grid) (cell inp circ : Nat) : List (Nat × Nat) :=
  (List.range 6).flatMap fun o =>
    if hasOutput cell o then
      (List.range 8).filterMap fun oc =>
        let w := g.weir cell o oc
        if w.port.toNat = inp ∧ w.circ.toNat = circ then some (o, oc) else none
    else []

/-- The first element that passes, and the others in order. -/
def takeFirst {α : Type} (f : α → Bool) : List α → Option (α × List α)
  | [] => none
  | a :: r => if f a then some (a, r) else (takeFirst f r).map fun q => (q.1, a :: q.2)

/-- Eight FP32 lanes of a beat added to the accumulator (R58, R72). -/
def addBeat (a : Nat) (bs : List Byte) : CellM Unit := do
  let e := (a - 0x10000) / 4
  let ws ← readAccs e 8
  modify fun c => (ws.zip (List.range 8)).foldl (fun c q =>
    c.setAcc (e + q.2) (fadd q.1 (wordOf 32 ((bs.drop (4 * q.2)).take 4)))) c

/-- A beat reaches the LOCAL output in cycle `t`: the RECV executing on its circuit takes it; with none
executing it is discarded (R58, R62, R102). -/
def Cell.landBeat (c : Cell) (circ t : Nat) (data : BitVec 256) : Cell :=
  match takeFirst (fun o : PortOp => !o.isSend && o.circ.val == circ && decide (o.from_ ≤ t)) c.ports with
  | none => c
  | some (o, rest) =>
    let bs := bytesOf data 32
    let m : CellM Unit := if c.shadow then pure () else if o.flag then addBeat o.addr bs else putBytes o.addr bs
    match m c with
    | .error f c => c.fault f o.pc
    | .ok _ c => { c with ports := if o.left ≤ 1 then rest else { o with addr := o.addr + 32, left := o.left - 1 } :: rest }

/-- One copy of a beat leaves its output in cycle `t` (R99, R100, R102, R103). -/
def Polder.sendCopy (p : Polder) (cell : Nat) (data : BitVec 256) (o oc t : Nat) : Polder :=
  if o < 4 then
    p.onGrid fun g => { g with beats := g.beats ++
      [{ cell := neighbour cell o, inp := facing o, circ := oc
         cls := bitsN (g.slotAt 0 cell o (t % 64)) 10 2, data := data, arrive := t + linkCycles cell o }] }
  else if o = 4 then (p.setCell cell ((p.cell cell).landBeat oc t data)).reach (t + 1)
  else match edgeEngine cell with
    | some e => p.onGrid fun g => { g with edge := g.edge ++ [⟨e, oc, data⟩] }
    | none => p

/-- A beat enters a router: each output circuit that selects it sends one copy in its first reserved
slot; a copy that must wait holds an entry of the beat's class (R102, R103). -/
def Polder.routeBeat (p : Polder) (b : Beat) : Polder :=
  let copies := (p.grid.selected b.cell b.inp b.circ).map fun q =>
    (q.1, q.2, p.grid.nextSlot 0 b.cell q.1 (fun e => reserves e q.2) b.arrive)
  let lost := (copies.filter fun q => q.2.2.isNone).length
  let go := copies.filterMap fun q => q.2.2.map fun t => (q.1, q.2.1, t)
  let p := if copies.isEmpty then p.count (GRD + 0x80) 1 else p.count (GRD + 0x80) lost
  let p := p.onGrid fun g => { g with dwells := g.dwells.filter fun d => decide (b.arrive < d.until_) }
  let last := go.foldl (fun m q => max m q.2.2) b.arrive
  let held := p.grid.dwells.filter fun d => d.cell = b.cell && d.inp == b.inp && d.cls == b.cls
  if b.arrive < last && 4 ≤ held.length then p.gridFault Status.internal 4 b.cell b.inp
  else
    let p := if b.arrive < last then
        p.onGrid fun g => { g with dwells := g.dwells ++ [⟨b.cell, b.inp, b.cls, last⟩] }
      else p
    go.foldl (fun p q => p.sendCopy b.cell b.data q.1 q.2.1 q.2.2) p

/-- The 32 bytes of a SEND's next beat; a shadow run sends zeros, or minus infinity in every lane (R62). -/
def sendData (o : PortOp) : CellM (BitVec 256) := do
  if (← get).shadow then
    pure (if o.flag then BitVec.ofNat 256 (natOfBytes (List.replicate 8 (bytesOf (0xFF800000 : W32) 4)).flatten) else 0)
  else do
    let bs ← readBytes o.addr 32
    pure (wordOf 256 bs)

/-- A SEND moves its next beat in its next reserved injection slot; one not read ahead in time makes the
cell fault (R58, R101, R525). -/
def Polder.injectBeat (p : Polder) (cell circ : Nat) : Polder :=
  let c := p.cell cell
  match takeFirst (fun o : PortOp => o.isSend && o.circ.val == circ) c.ports with
  | none => p
  | some (o, rest) =>
    match p.grid.nextSlot 0 cell 6 (fun e => reserves e circ) o.from_ with
    | none => p
    | some t =>
      if t < o.began + 3 then (p.setCell cell (c.fault CFault.steerLate o.pc)).reach t
      else match sendData o c with
        | .error f c => (p.setCell cell (c.fault f o.pc)).reach t
        | .ok data c =>
          let ports := if o.left ≤ 1 then rest
            else { o with addr := o.addr + 32, left := o.left - 1, from_ := t + 1 } :: rest
          ((p.setCell cell { c with ports := ports }).reach t).routeBeat
            { cell := cell, inp := 4, circ := circ, cls := bitsN (p.grid.slotAt 0 cell 6 (t % 64)) 10 2
              data := data, arrive := t }

/-- BEAT_HOP (R99 to R104): the LOCAL input takes the next beat of the SEND on the circuit, another
input the next beat on its way there. -/
def execBeatHop (c : CellId) (port : Fin 6) (circ : Fin 8) (s : State) : Host.Outcome State Fault Refusal :=
  .next (if !s.mod.powered c.p || (s.pol c.p).grid.hold.frozen then s
  else s.onPol c.p fun _ p =>
    if port.val = 4 then
      if p.cellDown c.key then p else p.injectBeat c.key circ.val
    else
      match takeFirst (fun b : Beat => b.cell == c.key && b.inp == port.val && b.circ == circ.val) p.grid.beats with
      | none => p
      | some (b, rest) =>
        let p := p.onGrid fun g => { g with beats := rest }
        if p.cellDown c.key then p.countStandin else (p.reach b.arrive).routeBeat b)

/-- The first slot, from a cycle on, that an output reserves for tokens of an input, with that output;
of two outputs in one slot the lower number (R108). -/
def Grid.tokenSlot (g : Grid) (cell inp now : Nat) : Option (Nat × Nat) :=
  ((List.range 64).flatMap fun k =>
    (List.range 5).filterMap fun o =>
      let e := g.slotAt 1 cell o ((now + k) % 64)
      if e.getLsbD 15 && bitsN e 12 3 == inp && hasOutput cell o then some (now + k, o) else none).head?

/-- CONTROL_TOKEN_HOP (R108). A token at LOCAL has reached the weirs of its router; `inp` 5 marks it. -/
def execControlTokenHop (c : CellId) (input : Fin 5) (s : State) : Host.Outcome State Fault Refusal :=
  .next (if !s.mod.powered c.p || (s.pol c.p).grid.hold.frozen then s
  else s.onPol c.p fun _ p =>
    match takeFirst (fun t : CtlToken => t.cell == c.key && t.inp == input.val) p.grid.tokens with
    | none => p
    | some (t, rest) =>
      let p := p.onGrid fun g => { g with tokens := rest }
      if p.cellDown c.key then p.countStandin
      else
        let from_ := if input.val = 4 then p.grid.nextSlot 1 c.key 6 (fun e => e.getLsbD 15) t.arrive else some t.arrive
        match from_.bind (p.grid.tokenSlot c.key input.val) with
        | none => p.gridFault Status.internal 3 c.key 0
        | some (at_, o) =>
          let t' := if o = 4 then { t with inp := 5, arrive := at_ + 1 }
            else { t with cell := neighbour c.key o, inp := facing o, arrive := at_ + linkCycles c.key o }
          (p.reach at_).onGrid fun g => { g with tokens := g.tokens ++ [t'] })

/-- A SERVICE read of a cell: what a failing read answers (R53, R56). -/
def Cell.svcRead (c : Cell) (a n : Nat) : Cell × Status × List W64 :=
  let c := (unitsOf a (if a < 0x10000 then 8 * n else 0)).foldl (fun c u => c.run1 (settleUnit u)) c
  match readBytes a (8 * n) c with
  | .ok bs c => (c, Status.done, (List.range n).map fun k => wordOf 64 ((bs.drop (8 * k)).take 8))
  | .error _ c => (c, Status.dataUncorrectable, [])

/-- A SERVICE write of one unit's bytes: a read-modify-write that fails twice writes its own bytes and
zeros (R53, R56). -/
def Cell.svcWriteUnit (c : Cell) (u : Nat) (bs : List (Option Byte)) : Cell × Bool :=
  let c := c.run1 (settleUnit u)
  if bs.all Option.isSome || (SMap.find? c.spad u).isNone then (c.putUnit u bs, true)
  else match parityAt u c with
    | .ok false c => (c.putUnit u (bs.map fun b => some (b.getD 0)), false)
    | .ok true c => (c.putUnit u bs, true)
    | .error _ c => (c, true)

/-- A SERVICE write (R50, R52, R56). -/
def Cell.svcWrite (c : Cell) (a : Nat) (bs : List Byte) : Cell × Status :=
  if a < 0x10000 then
    let r := (unitsOf a bs.length).foldl (fun (q : Cell × Bool) u =>
      let w := q.1.svcWriteUnit u (sliceFor a bs u)
      (w.1, q.2 && w.2)) (c, true)
    (r.1, if r.2 then Status.done else Status.dataUncorrectable)
  else (c.run1 (putBytes a bs), Status.done)

/-- The neighbour on the way: first along the row, then along the column (R109). -/
def serviceNext (cell dest : Nat) : Nat :=
  if cell % 160 < dest % 160 then cell + 1
  else if dest % 160 < cell % 160 then cell - 1
  else if cell < dest then cell + 160
  else cell - 160

/-- A SERVICE packet at its destination: the access is made and its answer sets out, or the answer is
handed to the access that waits for it (R56, R394). -/
def Polder.serviceArrive (p : Polder) (k : SvcPkt) : Polder :=
  let answer := fun (p : Polder) (st : Status) (data : List W64) =>
    p.onGrid fun g => { g with svc := g.svc ++ [{ k with dest := k.src, body := .reply st data }] }
  match k.body with
  | .reply st data =>
    if p.wdn.incOfCell k.src ≠ k.inc then p.count (WDN + 0x64) 1
    else
      let c := p.cell k.src
      p.setCell k.src { c with svc := c.svc.map fun a =>
        if a.place = k.slot then { a with answer := some st, data := data } else a }
  | .read a n =>
    if p.cellDown k.dest then answer p.countStandin Status.resetAbort []
    else
      let r := (p.cell k.dest).svcRead a n
      answer (p.setCell k.dest r.1) r.2.1 r.2.2
  | .write a ws =>
    if p.cellDown k.dest then answer p.countStandin Status.resetAbort []
    else
      let r := (p.cell k.dest).svcWrite a (ws.flatMap fun w => bytesOf w 8)
      answer (p.setCell k.dest r.1) r.2 []

/-- SERVICE_PACKET_HOP (R109): the i-th packet in flight moves one hop, also during HOLD. -/
def execServicePacketHop (p : Pid) (i : Nat) (s : State) : Host.Outcome State Fault Refusal :=
  .next (if !s.mod.powered p then s
  else s.onPol p fun _ q =>
    match q.grid.svc[i]? with
    | none => q
    | some k =>
      let q := q.onGrid fun g => { g with svc := g.svc.eraseIdx i }
      if k.cell = k.dest then q.serviceArrive k
      else q.onGrid fun g => { g with svc := g.svc ++ [{ k with cell := serviceNext k.cell k.dest }] })

/-- A token that R105 discards. -/
def tokenInvalid (cell out : Nat) (tok : BitVec 24) : Bool :=
  let inp := bitsN tok 9 3
  bitsN tok 0 3 != 0 || inp == 6 || (inp < 6 && !hasInput cell inp) || !hasOutput cell out

/-- A token enters a weir's queue in cycle `a` (R105, R106, R107). -/
def Polder.weirEnter (p : Polder) (cell out : Nat) (tok : BitVec 24) (a : Nat) : Polder :=
  let d := (bitsN tok 20 4 + 16 - a / 64 % 16) % 16
  let slot := bitsN tok 14 6
  if tokenInvalid cell out tok then p.gridFault Status.internal 3 cell out
  else if bits tok 12 2 ≠ p.grid.epoch cell then
    let n := satAdd 16 (SMap.get (fun _ => (0 : BitVec 16)) p.grid.stale (cell * 6 + out)).toNat 1
    let p := p.onGrid fun g => { g with stale := SMap.insert g.stale (cell * 6 + out) (BitVec.ofNat 16 n) }
    (p.count (GRD + 0x64) 1).raise GRD 1
  else if !((1 ≤ d && d ≤ 7) || (d == 0 && a % 64 < slot)) then p.gridFault Status.steerLate 0 cell out
  else if 4 ≤ (p.grid.queue cell out).length then p.gridFault Status.internal 2 cell out
  else
    let l := p.grid.queue cell out ++ [QToken.mk tok ((a / 64 + d) * 64 + slot)]
    p.onGrid fun g => { g with queues := SMap.insert g.queues (cell * 6 + out) l }

/-- WEIR_TOKEN_ARRIVAL (R105 to R107). -/
def execWeirTokenArrival (c : CellId) (out : Fin 6) (tok : BitVec 24) (s : State) :
    Host.Outcome State Fault Refusal :=
  .next (if !s.mod.powered c.p || (s.pol c.p).grid.hold.frozen then s
  else s.onPol c.p fun _ p =>
    let q := takeFirst (fun t : CtlToken =>
      t.cell == c.key && t.inp == 5 && t.out == out.val && t.payload == tok) p.grid.tokens
    let p := match q with
      | some (t, rest) => (p.onGrid fun g => { g with tokens := rest }).reach t.arrive
      | none => p
    let a := match q with
      | some (t, _) => t.arrive
      | none => p.cycle
    if p.cellDown c.key then p.countStandin else p.weirEnter c.key out.val tok a)

/-- TOKEN_TAKES_EFFECT: the i-th token of a queue, when no other of it comes first (R107). -/
def execTokenTakesEffect (c : CellId) (out : Fin 6) (i : Fin 4) (s : State) : Host.Outcome State Fault Refusal :=
  .next (if !s.mod.powered c.p || (s.pol c.p).grid.hold.frozen || (s.pol c.p).cellDown c.key then s
  else s.onPol c.p fun _ p =>
    let l := p.grid.queue c.key out.val
    match l[i.val]? with
    | none => p
    | some t =>
      if (l.take i.val).any (fun o => decide (o.effect ≤ t.effect)) || l.any (fun o => decide (o.effect < t.effect)) then p
      else
        (p.onGrid fun g => { g with
          queues := SMap.set (fun _ => []) g.queues (c.key * 6 + out.val) (l.eraseIdx i.val)
          weirs := SMap.set (fun _ => WeirSet.off) g.weirs (weirKey c.key out.val (bitsN t.payload 3 3))
            ⟨bits t.payload 9 3, bits t.payload 6 3⟩ }).reach t.effect)

/-- A HOLD request is asserted: by DEBUG_HOLD or by an Intake engine (R117). -/
def Polder.holdWanted (p : Polder) : Bool := (p.rd (GRD + 0x0C)).getLsbD 0 || p.engines.any fun e => e.2.holdReq

/-- The requester HOLD names first: 0xFF for DEBUG_HOLD, else the lowest engine (R117). -/
def Polder.holdFirst (p : Polder) : Nat :=
  if (p.rd (GRD + 0x0C)).getLsbD 0 then 0xFF
  else match List.find? (fun e => e.2.holdReq) p.engines with
    | some e => e.1
    | none => 0

/-- The requests have changed in this cycle: the freeze or the resume they lead to, 40 cycles on (R115). -/
def Polder.updateHold (p : Polder) : Polder :=
  let h := p.grid.hold
  let w := p.holdWanted
  if w && !h.asserted then
    p.onGrid fun g => { g with hold :=
      { h with asserted := true, src := p.holdFirst, since := p.field, freezeAt := some (p.field + 40) } }
  else if !w && h.asserted then
    p.onGrid fun g => { g with hold := { h with asserted := false, resumeAt := some (p.field + 40) } }
  else p

/-- HOLD_FREEZE (R115, R117). -/
def Polder.freeze (p : Polder) : Polder :=
  match p.grid.hold.freezeAt with
  | some t =>
    if p.grid.hold.frozen then p
    else
      let d := t - p.field
      let p := { p with field := p.field + d, cycle := p.cycle + d }
      let p := p.onGrid fun g => { g with hold := { g.hold with frozen := true, began := p.field, freezeAt := none } }
      ((p.count (GRD + 0x68) 1).wr (GRD + 0x78) (BitVec.ofNat 32 p.grid.hold.src)).raise GRD 5
  | none => p

def execHoldFreeze (p : Pid) (s : State) : Host.Outcome State Fault Refusal :=
  .next (if s.mod.powered p then s.onPol p fun _ q => q.freeze else s)

/-- HOLD_RESUME: the HOLD's length is recorded and everything goes on in one cycle (R115, R117). -/
def Polder.resume (p : Polder) : Polder :=
  match p.grid.hold.resumeAt with
  | some t =>
    if !p.grid.hold.frozen then p
    else
      let p := { p with field := max p.field t }
      let n := p.field - p.grid.hold.began
      let p := p.onGrid fun g => { g with hold := { g.hold with frozen := false, resumeAt := none } }
      let p := p.count (GRD + 0x6C) n
      let p := p.wr (GRD + 0x70) (BitVec.ofNat 32 (satAdd 32 n 0))
      let p := p.wr (GRD + 0x74) (BitVec.ofNat 32 (max (p.rdN (GRD + 0x74)) (satAdd 32 n 0)))
      p.raise GRD 6
  | none => p

def execHoldResume (p : Pid) (s : State) : Host.Outcome State Fault Refusal :=
  .next (if s.mod.powered p then s.onPol p fun _ q => q.resume else s)

/-- DEBUG_HOLD_WRITE (R117). -/
def execDebugHoldWrite (p : Pid) (w : Who) (on : Bool) (s : State) : Host.Outcome State Fault Refusal :=
  .next (s.writePage p (GRD + 0x0C) w fun _ q =>
    (q.wr (GRD + 0x0C) (setField (q.rd (GRD + 0x0C)) 0 1 (bit01 on))).updateHold)

/-- The polder tide (R98). -/
def Polder.tide (p : Polder) : Nat := p.cycle / 64

/-- A cell lets its plot be DRAINED (R120). -/
def Cell.drained (c : Cell) : Bool :=
  (c.st = .idle || c.st = .halted || c.st = .faulted) && c.svc.isEmpty && c.svcQ.isNone &&
  c.sems.all fun e => e.2 == 0

/-- A plot is DRAINED (R120). -/
def Polder.drained (p : Polder) (r : Rect) : Bool :=
  (p.grid.cells.all fun e => !r.hasKey e.1 || e.2.drained) &&
  (p.grid.beats.all fun b => !r.hasKey b.cell && !(b.inp < 4 && r.hasKey (neighbour b.cell b.inp))) &&
  (p.grid.dwells.all fun d => !r.hasKey d.cell || d.until_ ≤ p.cycle) &&
  (p.grid.edge.all fun b => !r.hasKey (engCell b.eng)) &&
  (p.grid.queues.all fun q => !r.hasKey (q.1 / 6) || q.2.isEmpty)

/-- Rectangles reconfigured less than 8 tides ago (R124). -/
def Polder.tooRecent (p : Polder) (r : Rect) : Bool :=
  p.grid.recent.any fun e => e.1.overlaps r && p.tide < e.2 + 8

/-- An accepted issue or pipeline start that has not started overlaps the rectangle (R147, R170). -/
def Polder.issueAhead (p : Polder) (r : Rect) : Bool :=
  (p.grid.issues.any fun i => i.phase = .pending && Rect.overlaps r ((i.words[0]?).getD 0)) ||
  (match p.grid.pipe with
   | some q => q.phase = .pending && q.stages.any fun st => st.rect.overlaps r
   | none => false)

/-- RECFG_GO (R121, R122, R124, R147). -/
def execRecfgGo (p : Pid) (w : Who) (s : State) : Host.Outcome State Fault Refusal :=
  .next (s.writePage p (GRD + 0x4C) w fun _ q =>
    let r := q.rd (GRD + 0x48)
    if q.grid.recfg.busy || q.grid.recfg.opened || Rect.malformed r then q.raise GRD 18
    else q.onGrid fun g => { g with recfg :=
      { busy := true, waiting := q.tooRecent r || q.issueAhead r, opened := false, rect := r
        accepted := q.tide, started := q.tide } })

/-- RECFG_WAIT_END (R124, R147). -/
def execRecfgWaitEnd (p : Pid) (s : State) : Host.Outcome State Fault Refusal :=
  .next (s.event p 5 fun _ q =>
    let c := q.grid.recfg
    if !(c.busy && c.waiting) || q.issueAhead c.rect || q.grid.hold.frozen then q
    else
      let last := (q.grid.recent.filter fun e => e.1.overlaps c.rect).foldl (fun m e => max m (64 * (e.2 + 8))) 0
      let q := q.reach last
      q.onGrid fun g => { g with recfg := { c with waiting := false, started := q.tide } })

/-- GRD_RECFG_STATUS (R121, R125). -/
def Polder.recfgStatus (p : Polder) (code : Status) (epoch : BitVec 2) : Polder :=
  p.wr (GRD + 0x50) (fld 0 code.toNat ||| fld 8 epoch.toNat ||| fld 16 (satAdd 8 (p.tide - p.grid.recfg.accepted) 0))

/-- Every weir of a rectangle advances its epoch and is set to NONE (R121). -/
def Grid.advanceEpochs (g : Grid) (r : Rect) : Grid :=
  { g with
    epochs := r.keys.foldl (fun m k => SMap.set (fun _ => 0) m k (SMap.get (fun _ => 0) m k + 1)) g.epochs
    weirs := SMap.keep (fun k => !r.hasKey (k / 48)) g.weirs }

/-- The first cell of a rectangle. -/
def Rect.first (r : Rect) : Nat := r.row0 * 160 + r.col0

/-- RECFG_DONE (R121). -/
def execRecfgDone (p : Pid) (s : State) : Host.Outcome State Fault Refusal :=
  .next (s.event p 5 fun _ q =>
    let c := q.grid.recfg
    if c.busy && !c.waiting && !q.grid.hold.frozen && q.tide ≤ c.started + 4 && q.drained c.rect then
      let q := q.onGrid fun g => { g.advanceEpochs c.rect with
        recfg := { c with busy := false, opened := true }
        recent := (g.recent.filter fun e => decide (q.tide < e.2 + 8)) ++ [(c.rect, q.tide)] }
      (q.recfgStatus Status.done (q.grid.epoch (Rect.first c.rect))).raise GRD 7
    else q)

/-- NOT_DRAINED: four tides of drain test have passed (R121). -/
def execNotDrained (p : Pid) (s : State) : Host.Outcome State Fault Refusal :=
  .next (s.event p 5 fun _ q =>
    let c := q.grid.recfg
    if c.busy && !c.waiting && !q.grid.hold.frozen && !q.drained c.rect then
      let q := q.reach (64 * (c.started + 4))
      let q := q.recfgStatus Status.notDrained (q.grid.epoch (Rect.first c.rect))
      (q.onGrid fun g => { g with recfg := { c with busy := false } }).raise GRD 8
    else q)

/-- RECFG_RELEASE (R121, R122). -/
def execRecfgRelease (p : Pid) (w : Who) (s : State) : Host.Outcome State Fault Refusal :=
  .next (s.writePage p (GRD + 0x4C) w fun _ q =>
    q.onGrid fun g => { g with recfg := { g.recfg with opened := false } })

/-- The table that a GRD_TBL_SEL value names exists (R101, R108, R125). -/
def tableExists (net cell table : Nat) : Bool :=
  (table == 6 || table == 4 || (table < 4 && hasSide cell table) ||
    (table == 5 && net == 0 && hasOutput cell 5))

/-- A data-net entry would lie closer than four slots to another of a seam-facing output (R97, R129). -/
def Grid.breaksSpacing (g : Grid) (cell table slot : Nat) (v : BitVec 16) : Bool :=
  v.getLsbD 15 && table < 4 && crossesSeam cell table &&
  ([1, 2, 3, 61, 62, 63] : List Nat).any fun d => (g.slotAt 0 cell table ((slot + d) % 64)).getLsbD 15

/-- A write of a slot-table entry (R123, R125, R129). -/
def Polder.writeTable (p : Polder) (sel : Nat) (v : W32) : Polder :=
  let row := sel % 256
  let col := sel / 256 % 256
  let cell := row * 160 + col
  let table := sel / 2 ^ 16 % 8
  let net := sel / 2 ^ 19 % 2
  let slot := sel / 2 ^ 20 % 64
  let e : BitVec 16 := bits v 0 16 &&& (if net = 0 then 0xFC00 else 0xF000)
  if !(p.grid.recfg.opened && col < 160 && Rect.hasKey p.grid.recfg.rect cell) ||
      !tableExists net cell table || (net == 0 && p.grid.breaksSpacing cell table slot e) then p.raise GRD 9
  else p.onGrid fun g => { g with slots := SMap.set (fun _ => 0) g.slots (slotKey net cell table slot) e }

/-- SLOT_TABLE_WRITE (R129). -/
def execSlotTableWrite (p : Pid) (w : Who) (v : W32) (s : State) : Host.Outcome State Fault Refusal :=
  .next (s.writePage p (GRD + 0x58) w fun _ q => q.writeTable (q.sel (GRD + 0x54) w) v)

end Sys2Proof.Machine
end

