-- ==== Sys2Proof/Machine/MemOps.lean ====
section
/-! DEFINITION. Memory as every requester meets it: global addresses, the region table, valid bitmaps, bursts
that fail, frames of SPILL pages, pool allocation and bandwidth admission (R228 to R252, R308 to R310).
Readings and choices: log 5, 7, 10, 20, 22. -/

namespace Sys2Proof.Machine

/-- Fields of a global address (R308). -/
def gaId (a : W64) : Nat := bitsN a 52 12
def gaTier (a : W64) : Nat := bitsN a 49 3
def gaOff (a : W64) : Nat := bitsN a 0 49

/-- A global address from its fields (R308). -/
def gaOf (id tier off : Nat) : W64 := BitVec.ofNat 64 (id * 2 ^ 52 + tier * 2 ^ 49 + off)

/-- The polder's own MODULE, once assigned; a value above 1,023 names no module (R308, R309). -/
def PolCtx.module? (x : PolCtx) (p : Polder) : Option Nat :=
  let v := (x.cfg p (FLX0 + 0x40)).toNat % 65536
  if 1024 ≤ v then none else some v

/-- The polder's identifier; MODULE 0 until FLX_SELF is assigned (R229, R309). -/
def PolCtx.ownId (x : PolCtx) (p : Polder) : Nat := (x.module? p).getD 0 * 4 + x.pid.val

/-- The address names the own polder (R229). -/
def PolCtx.isOwn (x : PolCtx) (p : Polder) (a : W64) : Bool := gaId a == x.ownId p

/-- An own-polder global address. -/
def PolCtx.ga (x : PolCtx) (p : Polder) (tier off : Nat) : W64 := gaOf (x.ownId p) tier off

/-- A page of a SPILL region, the unit of region bases (R239, R247). -/
abbrev mib2 : Nat := 2 ^ 21
/-- A valid-bitmap granule (R241). -/
abbrev granule : Nat := 2048

/-- An entry of the region table in use (R239). -/
structure Region where
  idx : Nat
  tier : Nat
  base : Nat
  size : Nat
  kind : Nat
  bitmap : Bool
  ctx : BitVec 16
  /-- a reserved bit is set, or BASE is not 2 MiB aligned -/
  odd : Bool
  deriving DecidableEq, Repr

def Region.stop (r : Region) : Nat := r.base + r.size
def Region.holds (r : Region) (t o : Nat) : Bool := r.tier == t && r.base ≤ o && o < r.stop
/-- POOL (R239). -/
def Region.pool (r : Region) : Bool := r.kind == 1
/-- SPILL (R239). -/
def Region.spill (r : Region) : Bool := r.kind == 2

/-- Entry `i` of an image's region table (R239). -/
def Image.region (m : Image) (pid i : Nat) : Region :=
  let w := fun k => m.get pid (SPW + 0x44 + 4 * k) i
  let base := (w 0).toNat + 2 ^ 32 * (w 1).toNat
  { idx := i, tier := bitsN (w 3) 0 2, base := base, size := mib2 * (w 2).toNat
    kind := bitsN (w 3) 8 8, bitmap := (w 3).getLsbD 16, ctx := bits (w 4) 0 16
    odd := base % mib2 != 0 || bitsN (w 3) 2 6 != 0 || bitsN (w 3) 17 15 != 0 || bitsN (w 4) 16 16 != 0 ||
      w 5 != 0 || w 6 != 0 || w 7 != 0 }

/-- The entries in use, in order: those whose SIZE is not 0 (R239). -/
def Image.regions (m : Image) (pid : Nat) : List Region :=
  m.vals.filterMap fun e =>
    if e.1 / 2 ^ 13 = cfgKey pid (SPW + 0x4C) 0 / 2 ^ 13 then some (m.region pid (e.1 % 2 ^ 13)) else none

/-- The region table in force (R239). -/
def PolCtx.regions (x : PolCtx) (p : Polder) : List Region :=
  if p.unrestored.contains 4 then [] else x.mod.active.regions x.pid.val

def PolCtx.region? (x : PolCtx) (p : Polder) (t o : Nat) : Option Region :=
  (x.regions p).find? fun r => r.holds t o

/-- A tier-3 window is enabled, and where it leads (R252). -/
def Polder.window (p : Polder) (o : Nat) : Option W64 :=
  let n := o / 2 ^ 30
  let v := p.pair (HTB + 0x44) (1 + n)
  if n < 64 && v.getLsbD 0 then some (v &&& 0xFFFFFFFFFFFFF000#64) else none

/-- The server bus address of a tier-3 offset (R252). -/
def Polder.busAddr (p : Polder) (o : Nat) : W64 :=
  ((p.window o).getD 0) + BitVec.ofNat 64 (o % 2 ^ 30)

/-- The offset decodes (R231, R233, R252). -/
def Polder.decodes (p : Polder) (t o : Nat) : Bool :=
  match t with
  | 1 => o < 2 ^ 39 && o % 2 ^ 36 < 0xC00000000
  | 2 => o < 2 ^ 40
  | 3 => (p.window o).isSome
  | _ => false

/-- Every byte from `o` on lies in some region of the tier (R239). -/
def covered (rs : List Region) : Nat → Nat → Nat → Nat → Bool
  | 0, _, o, stop => stop ≤ o
  | n + 1, t, o, stop =>
    stop ≤ o || match rs.find? fun r => r.holds t o with
      | none => false
      | some r => covered rs n t r.stop stop

/-- An own-polder access of tiers 1 to 3 reaches memory (R231, R233, R239, R252, R310). -/
def PolCtx.memOk (x : PolCtx) (p : Polder) (t o len : Nat) : Bool :=
  let rs := x.regions p
  0 < len && p.decodes t o && p.decodes t (o + len - 1) &&
    (t != 1 || o / 2 ^ 36 == (o + len - 1) / 2 ^ 36) && covered rs rs.length t o (o + len)

/-- The controller page that serves an offset (R231, R233, R255, R256). -/
def ctlPage (t o : Nat) : Nat := if t = 1 then HBC (o / 2 ^ 36 % 8) else LPC (o / 2 ^ 12 % 16)

/-- A byte of tier 1 or 2; a byte that nothing has written reads 0 (log 5). -/
def Mem.byte (m : Mem) (t o : Nat) : Byte := SMap.get (fun _ => 0) (if t = 1 then m.mem1 else m.mem2) o

/-- Store a byte of tier 1 or 2. -/
def Mem.setByte (m : Mem) (t o : Nat) (b : Byte) : Mem :=
  if t = 1 then { m with mem1 := SMap.set (fun _ => 0) m.mem1 o b }
  else { m with mem2 := SMap.set (fun _ => 0) m.mem2 o b }

def Mem.valid (m : Mem) (t g : Nat) : Bool := SMap.get (fun _ => false) (if t = 1 then m.valid1 else m.valid2) g

def Mem.setValid (m : Mem) (t g : Nat) (b : Bool) : Mem :=
  if t = 1 then { m with valid1 := SMap.set (fun _ => false) m.valid1 g b }
  else { m with valid2 := SMap.set (fun _ => false) m.valid2 g b }

/-- Bytes of tier 1 or 2, past every check. -/
def Mem.raw (m : Mem) (t o n : Nat) : List Byte := (List.range n).map fun i => m.byte t (o + i)

/-- Store bytes of tier 1 or 2, past every check; `none` leaves its byte. -/
def Mem.putRaw (m : Mem) (t o : Nat) : List (Option Byte) → Mem
  | [] => m
  | none :: r => Mem.putRaw m t (o + 1) r
  | some b :: r => Mem.putRaw (m.setByte t o b) t (o + 1) r

def Polder.onMem (p : Polder) (f : Mem → Mem) : Polder := { p with mem := f p.mem }

/-- The frame that holds a SPILL page (R247). -/
def Mem.frame? (m : Mem) (t o : Nat) : Option SpillFrame :=
  m.frames.find? fun f => f.tier == t && f.page == o / mib2

def Mem.setFrame (m : Mem) (f : SpillFrame) : Mem :=
  { m with frames := m.frames.map fun g => if g.tier = f.tier ∧ g.page = f.page then f else g }

/-- A tier-3 offset that the bridge must read: its page is in no frame that serves reads (R247). -/
def Mem.onHost (m : Mem) (off : Nat) : Bool :=
  match m.frame? 3 off with
  | some f => f.st = .filling
  | none => true

/-- Where reads of a byte are served: its home, or the frame of a page that is HIGH or EVICTING (R247). -/
def Mem.locate (m : Mem) (t o : Nat) : Nat × Nat :=
  match m.frame? t o with
  | some f => if f.st = .filling then (t, o) else (1, f.base + o % mib2)
  | none => (t, o)

/-- The pieces of an access by granule: start and length (R241). -/
def pieces : Nat → Nat → Nat → List (Nat × Nat)
  | 0, _, _ => []
  | n + 1, o, stop =>
    if stop ≤ o then []
    else
      let e := min stop ((o / granule + 1) * granule)
      (o, e - o) :: pieces n e stop

def granules (o len : Nat) : List (Nat × Nat) := pieces (len / granule + 2) o (o + len)

/-- A row of an HBM3E stack: 1 KiB of one pseudo-channel (R231, R237). -/
def hbmRow (o : Nat) : Nat := o / 2 ^ 15 * 32 + o / 512 % 32

/-- A row enters the repair log of its controller, of 32 rows (R237). -/
def Polder.logRow (p : Polder) (o : Nat) (hard : Bool) : Polder :=
  let s := o / 2 ^ 36
  let row := hbmRow o
  let mine := p.mem.ppr.filter fun r => r.1 == s
  if mine.any fun r => r.2.1 == row then p
  else if 32 ≤ mine.length then p
  else p.onMem fun m => { m with ppr := m.ppr ++ [(s, row, hard)] }

/-- A corrected error is counted; the fourth of a row logs it (R236, R237). -/
def Polder.noteCe (p : Polder) (t o : Nat) : Polder :=
  let p := (p.count (ctlPage t o + 0x50) 1).raise (ctlPage t o) 1
  if t = 1 then
    let n := SMap.get (fun _ => 0) p.mem.ces (hbmRow o) + 1
    let p := p.onMem fun m => { m with ces := SMap.insert m.ces (hbmRow o) n }
    if n = 4 then p.logRow o false else p
  else p

/-- A detected uncorrectable error is counted and recorded (R236, R256). -/
def Polder.noteUe (p : Polder) (x : PolCtx) (t o kind src : Nat) : Polder :=
  let pg := ctlPage t o
  let p := ((p.count (pg + 0x54) 1).raise pg 2).recordErr pg Status.dataUncorrectable 2 kind src (x.ga p t o)
  if t = 1 then p.logRow o true else p

/-- Who makes a memory access: the KIND and SOURCE of an error it meets (R509), its context, whether it
is an engine or a Pump (R242), and whether it is BACKGROUND traffic (R332). -/
structure MemBy where
  kind : Nat
  src : Nat
  ctx : BitVec 16
  scheduled : Bool
  background : Bool
  deriving DecidableEq, Repr

/-- What a memory access answers: replays of a read, units zero-filled by a write. -/
structure MemRes where
  p : Polder
  st : Status
  deferred : Bool
  data : List Byte
  extra : Nat
  deriving DecidableEq, Repr

/-- One burst of a read: its replays, and whether the data came (R236). -/
def Polder.readBurst (p : Polder) (x : PolCtx) (by_ : MemBy) (t b : Nat) : Polder × Nat × Bool :=
  match SMap.find? (if t = 1 then p.mem.bad1 else p.mem.bad2) b with
  | none => (p, 0, true)
  | some e =>
    let clear := fun (p : Polder) => p.onMem fun m =>
      if t = 1 then { m with bad1 := SMap.erase m.bad1 b } else { m with bad2 := SMap.erase m.bad2 b }
    match e with
    | .corrected => ((clear p).noteCe t (64 * b), 0, true)
    | .once => ((clear p).noteUe x t (64 * b) by_.kind by_.src, 1, true)
    | .twice => (p.noteUe x t (64 * b) by_.kind by_.src, 1, false)

/-- The bursts of one piece in turn; the first that fails twice ends the read (R236). -/
def Polder.readBursts (x : PolCtx) (by_ : MemBy) (t : Nat) : List Nat → Polder → Nat → Polder × Nat × Bool
  | [], p, n => (p, n, true)
  | b :: r, p, n =>
    let q := p.readBurst x by_ t b
    if q.2.2 then Polder.readBursts x by_ t r q.1 (n + q.2.1) else (q.1, n + q.2.1, false)

/-- The bursts from one offset of a tier to another. -/
def burstsOf (o len : Nat) : List Nat := (List.range ((o + len - 1) / 64 + 1 - o / 64)).map fun i => o / 64 + i

/-- One piece of a read: an invalid granule of a BITMAP region reads zeros without a DRAM access (R242). -/
def Polder.readPiece (p : Polder) (x : PolCtx) (by_ : MemBy) (t o len : Nat) : Polder × Nat × Option (List Byte) :=
  let bm := match x.region? p t o with
    | some r => r.bitmap
    | none => false
  if bm && !p.mem.valid t (o / granule) then (p, 0, some (List.replicate len 0))
  else
    let h := p.mem.locate t o
    let r := Polder.readBursts x by_ h.1 (burstsOf h.2 len) p 0
    (r.1, r.2.1, if r.2.2 then some (r.1.mem.raw h.1 h.2 len) else none)

def Polder.readPieces (x : PolCtx) (by_ : MemBy) (t : Nat) :
    List (Nat × Nat) → Polder → Nat → List Byte → Polder × Nat × Option (List Byte)
  | [], p, n, acc => (p, n, some acc)
  | q :: r, p, n, acc =>
    let a := p.readPiece x by_ t q.1 q.2
    match a.2.2 with
    | none => (a.1, n + a.2.1, none)
    | some d => Polder.readPieces x by_ t r a.1 (n + a.2.1) (acc ++ d)

/-- A frame's page is accessed now (R247). -/
def Polder.touch (p : Polder) (t o : Nat) : Polder :=
  match p.mem.frame? t o with
  | some f => p.onMem fun m => m.setFrame { f with lastTide := p.tide }
  | none => p

/-- Data of own tier 1 or 2, or of a tier-3 page in a frame, past admission (R236, R242, R247). -/
def Polder.fetchData (p : Polder) (x : PolCtx) (by_ : MemBy) (t o len : Nat) : MemRes :=
  let r := Polder.readPieces x by_ t (granules o len) (p.touch t o) 0 []
  match r.2.2 with
  | some d => ⟨r.1, Status.done, false, d, r.2.1⟩
  | none => ⟨r.1, Status.dataUncorrectable, false, [], r.2.1⟩

/-- The quota slot a context is bound to (R249). -/
def PolCtx.quotaSlot (x : PolCtx) (p : Polder) (ctx : BitVec 16) : Option Nat :=
  if ctx = 0xFFFF then none
  else (List.range 16).find? fun s => (x.cfg p (SPW + 0x68) s).toNat % 65536 == ctx.toNat

/-- The entry number of a slot's tier in the quota registers (R255). -/
def quotaIdx (slot tier : Nat) : Nat := slot + 256 * tier

/-- Bytes of one bandwidth unit in a window (R249). -/
def bwUnit (tier : Nat) : Nat := if tier = 2 then 4800 else 125

/-- A request meets REFUSED_QUOTA or REFUSED_BUSY at a slot (R250, R251, R255). -/
def Polder.refuse (p : Polder) (slot : Option Nat) (tier : Nat) (busy : Bool) : Polder :=
  let p := match slot with
    | some s => p.count (SPW + if busy then 0x84 else 0x80) 1 (place := 1 + quotaIdx s tier)
    | none => p
  p.raise SPW (if busy then 2 else 1)

/-- The demand rule on tier bandwidth: refused, or admitted with or without DEFERRED (R251, R332). -/
def Polder.admitBw (p : Polder) (x : PolCtx) (by_ : MemBy) (tier b : Nat) : Polder × Option Bool :=
  if tier = 1 || by_.background then (p, some false)
  else
    let slot := x.quotaSlot p by_.ctx
    let w := match slot with
      | some s => x.cfg p (SPW + 0x74) (quotaIdx s tier)
      | none => 0
    let key := (slot.getD 16) * 4 + tier
    let c := SMap.get (fun _ => 0) p.mem.used key + b
    if bitsN w 16 9 * bwUnit tier < c then (p.refuse slot tier false, none)
    else
      let elastic := decide (bitsN w 0 9 * bwUnit tier < c)
      let p := p.onMem fun m => { m with used := SMap.set (fun _ => 0) m.used key c }
      match slot with
      | some s => (if elastic then p.count (SPW + 0x7C) 1 (place := 1 + quotaIdx s tier) else p, some elastic)
      | none => (p, some elastic)

/-- A read of own tier 1 or 2 by any requester (R236, R239, R242, R251, R310). -/
def Polder.memRead (p : Polder) (x : PolCtx) (by_ : MemBy) (t o len : Nat) : MemRes :=
  if !((t == 1 || t == 2) && x.memOk p t o len) then ⟨p, Status.addressInvalid, false, [], 0⟩
  else match p.admitBw x by_ t len with
    | (p, none) => ⟨p, Status.refusedQuota, false, [], 0⟩
    | (p, some d) => { p.fetchData x by_ t o len with deferred := d }

/-- Units of 512 bytes of a granule that a write leaves untouched (R242). -/
def untouched (o : Nat) (bs : List (Option Byte)) (g : Nat) : Nat :=
  ((List.range 4).filter fun u =>
    !((List.range 512).any fun i =>
      let a := g * granule + 512 * u + i
      o ≤ a && ((bs[a - o]?).getD none).isSome)).length

/-- Bytes go out to server memory, in runs of those that are enabled (R252). -/
def Polder.sendHost (p : Polder) (o : Nat) (bs : List (Option Byte)) : Polder :=
  let go := (bs.zip (List.range bs.length)).foldl (fun (q : List (Nat × List Byte) × Bool) e =>
    match e.1 with
    | none => (q.1, false)
    | some b =>
      match q.2, q.1.getLast? with
      | true, some l => (q.1.dropLast ++ [(l.1, l.2 ++ [b])], true)
      | _, _ => (q.1 ++ [(o + e.2, [b])], true)) ([], false)
  { p with hostOut := p.hostOut ++ go.1.map fun l => (p.busAddr l.1, l.2) }

/-- Bytes land at their home (R244). -/
def Polder.landHome (p : Polder) (t o : Nat) (bs : List (Option Byte)) : Polder :=
  if t = 3 then p.sendHost o bs else p.onMem fun m => m.putRaw t o bs

/-- Bytes land in a SPILL page or at home: in the frame of a HIGH page, whose granule turns dirty, at the
bytes ahead of a page that still fills from tier 3, else at home (R247). -/
def Polder.landAt (p : Polder) (t o : Nat) (bs : List (Option Byte)) : Polder :=
  match p.mem.frame? t o with
  | none => p.landHome t o bs
  | some f =>
    match f.st with
    | .high => p.onMem fun m =>
        let g := o % mib2 / granule
        (m.setFrame { f with dirty := if f.dirty.contains g then f.dirty else f.dirty ++ [g] }).putRaw 1
          (f.base + o % mib2) bs
    | .evicting => p.landHome t o bs
    | .filling => p.onMem fun m => m.setFrame { f with
        ahead := (bs.zip (List.range bs.length)).foldl (fun a q =>
          match q.1 with
          | some b => SMap.insert a (o % mib2 + q.2) b
          | none => a) f.ahead }

/-- The errors of bursts written whole are gone (R236). -/
def Polder.scrub (p : Polder) (t o len : Nat) : Polder :=
  let f := fun b => !(decide (o ≤ 64 * b) && decide (64 * b + 64 ≤ o + len))
  p.onMem fun m => if t = 1 then { m with bad1 := SMap.keep f m.bad1 } else { m with bad2 := SMap.keep f m.bad2 }

/-- One granule's part of a write: an invalid granule is written whole, zeros where the write supplies
nothing (R242). -/
def Polder.writePiece (p : Polder) (x : PolCtx) (t o : Nat) (bs : List (Option Byte)) : Polder :=
  let bm := match x.region? p t o with
    | some r => r.bitmap
    | none => false
  let g := o / granule
  let h := p.mem.locate t o
  let p := p.scrub h.1 h.2 bs.length
  if !bs.any Option.isSome then p
  else if bm && !p.mem.valid t g then
    let p := p.onMem fun m => m.setValid t g true
    if bs.length = granule && bs.all Option.isSome then p.landAt t o bs
    else
      let full := (List.range granule).map fun i =>
        let a := g * granule + i
        some (if o ≤ a then (((bs[a - o]?).getD none).getD 0) else 0)
      let p := p.count (ctlPage t (g * granule) + 0x58) 1
      p.landAt t (g * granule) full
  else p.landAt t o bs

/-- A SPILL page of tier 2 whose copy is under way is copied: a write that waits for it lands after it
(R247). -/
def Polder.finishCopy (p : Polder) (f : SpillFrame) : Polder :=
  match f.st with
  | .filling =>
    if f.tier = 2 then
      let p := p.onMem fun m => (List.range 1024).foldl (fun m g =>
        if m.valid 2 (f.page * 1024 + g) then
          m.putRaw 1 (f.base + g * granule) ((m.raw 2 (f.page * mib2 + g * granule) granule).map some)
        else m) m
      p.onMem fun m => m.setFrame { f with st := .high }
    else if f.filled = mib2 then
      p.onMem fun m =>
        let m := f.ahead.foldl (fun m e => m.setByte 1 (f.base + e.1) e.2) m
        m.setFrame { f with
          st := .high, ahead := []
          dirty := f.ahead.foldl (fun l e => if l.contains (e.1 / granule) then l else l ++ [e.1 / granule]) f.dirty }
    else p
  | .evicting =>
    let p := f.dirty.foldl (fun p g =>
      let bs := p.mem.raw 1 (f.base + g * granule) granule
      p.landHome f.tier (f.page * mib2 + g * granule) (bs.map some)) p
    let p := p.count (SPW + 0xA4) f.dirty.length
    p.onMem fun m => { m with
      frames := m.frames.filter fun h => !(h.tier == f.tier && h.page == f.page)
      allocs := m.allocs.filter fun a => !(a.tier == 1 && a.base == f.base) }
  | .high => p

/-- A write finds a page whose copy must end first, and lets it end: the page's new state, and whether
the write waited (R247, R248). -/
def Polder.awaitPage (p : Polder) (t o : Nat) : Polder × Bool :=
  match p.mem.frame? t o with
  | none => (p, false)
  | some f => if f.st = .high then (p, false) else (p.finishCopy f, true)

/-- Invalid granules of BITMAP regions that a write touches: the units it leaves untouched in each (R242). -/
def Polder.zeroUnits (p : Polder) (x : PolCtx) (t o : Nat) (bs : List (Option Byte)) : Nat :=
  (granules o bs.length).foldl (fun n q =>
    let bm := match x.region? p t q.1 with
      | some r => r.bitmap
      | none => false
    if bm && !p.mem.valid t (q.1 / granule) then n + untouched o bs (q.1 / granule) else n) 0

/-- A write of tier 1, 2 or 3 by any requester; `none` is a byte that is not enabled. A memory error
never refuses it; tier 3 refuses while the host path is down (R236, R239, R242, R247, R251, R253, R310). -/
def Polder.memWrite (p : Polder) (x : PolCtx) (by_ : MemBy) (t o : Nat) (bs : List (Option Byte)) : MemRes :=
  if !(x.memOk p t o bs.length) then ⟨p, Status.addressInvalid, false, [], 0⟩
  else if t = 3 && (x.mod.keeper ≠ .ready || x.mod.perst == 0) && p.mem.onHost o then ⟨p, Status.refusedBusy, false, [], 0⟩
  else
    let fills := p.zeroUnits x t o bs
    match p.admitBw x by_ t (bs.length + if t = 2 && by_.scheduled then 512 * fills else 0) with
    | (p, none) => ⟨p, Status.refusedQuota, false, [], 0⟩
    | (p, some d) =>
      let w := p.awaitPage t o
      let p := w.1.touch t o
      let p := (granules o bs.length).foldl (fun p q => p.writePiece x t q.1 ((bs.drop (q.1 - o)).take q.2)) p
      ⟨p, Status.done, d || w.2, [], fills⟩

/-- Bytes a context holds from the pools of a tier (R250). -/
def Mem.usedOf (m : Mem) (tier : Nat) (ctx : BitVec 16) : Nat :=
  (m.allocs.filter fun a => a.tier == tier && a.ctx == ctx).foldl (fun n a => n + a.size) 0

/-- A capacity limit of a context, in bytes: 0x6C CAP_GUAR, 0x70 CAP_CEIL; zero for a context bound to
no slot (R249). -/
def PolCtx.capOf (x : PolCtx) (p : Polder) (off tier : Nat) (ctx : BitVec 16) : Nat :=
  match x.quotaSlot p ctx with
  | some s => 4096 * (x.cfg p (SPW + off) (quotaIdx s tier)).toNat
  | none => 0

/-- Space of a tier's pools held back for the other contexts (R250). -/
def PolCtx.heldBack (x : PolCtx) (p : Polder) (tier : Nat) (ctx : BitVec 16) : Nat :=
  (List.range 16).foldl (fun n s =>
    let c := bits (x.cfg p (SPW + 0x68) s) 0 16
    if c = 0xFFFF || c = ctx || x.quotaSlot p c ≠ some s then n
    else n + (x.capOf p 0x6C tier c - p.mem.usedOf tier c)) 0

/-- The lowest free place for a page in the pools a context may use (R239, R250; the order among free
places is the model's, log 10). -/
def PolCtx.fit (x : PolCtx) (p : Polder) (tier : Nat) (ctx : BitVec 16) (size align : Nat) : Option Nat :=
  let pools := (x.regions p).filter fun r => r.pool && r.tier == tier && (r.ctx = 0xFFFF || r.ctx = ctx)
  let mine := p.mem.allocs.filter fun a => a.tier == tier
  let starts := pools.map (·.base) ++ mine.map fun a => (a.base + a.size + align - 1) / align * align
  let ok := starts.filter fun a =>
    a % align == 0 && (pools.any fun r => r.base ≤ a && a + size ≤ r.stop) &&
      mine.all fun b => decide (b.base + b.size ≤ a) || decide (a + size ≤ b.base)
  ok.foldl (fun m a => some (match m with
    | none => a
    | some b => min a b)) none

/-- How an allocation turns out (R250). -/
inductive Alloced where
  | ok (base : Nat) | overCeil | busy
  deriving DecidableEq, Repr

/-- An allocation from a tier's pools (R250). -/
def Polder.alloc (p : Polder) (x : PolCtx) (tier : Nat) (ctx : BitVec 16) (size align : Nat) : Polder × Alloced :=
  let u := p.mem.usedOf tier ctx + size
  let pools := (x.regions p).filter fun r => r.pool && r.tier == tier
  let total := pools.foldl (fun n r => n + r.size) 0
  let taken := (p.mem.allocs.filter fun a => a.tier == tier).foldl (fun n a => n + a.size) 0
  if x.capOf p 0x70 tier ctx < u then (p, .overCeil)
  else if u ≤ x.capOf p 0x6C tier ctx || size + x.heldBack p tier ctx ≤ total - taken then
    match x.fit p tier ctx size align with
    | some a => (p.onMem fun m => { m with allocs := m.allocs ++ [⟨tier, a, size, ctx⟩] }, .ok a)
    | none => (p, .busy)
  else (p, .busy)

/-- A page's space returns to its pool. -/
def Mem.release (m : Mem) (tier base : Nat) : Mem :=
  { m with allocs := m.allocs.filter fun a => !(a.tier == tier && a.base == base) }

/-- One frame comes before another as a victim: older, then lower page address (R247). -/
def SpillFrame.before (a b : SpillFrame) : Bool :=
  a.lastTide < b.lastTide || (a.lastTide == b.lastTide && (a.tier < b.tier || (a.tier == b.tier && a.page < b.page)))

/-- The Spillway evicts the HIGH page of a context that was accessed earliest, where SPILL_EN allows it,
and journals the choice (R247, R420). -/
def Polder.evictFrame (p : Polder) (x : PolCtx) (ctx : BitVec 16) : Option Polder :=
  if !(x.cfg p (GAU + 0x40)).getLsbD 4 then none
  else
    let c := p.mem.frames.filter fun f => f.st = .high && f.ctx = ctx
    match c.foldl (fun m f => some (match m with
      | none => f
      | some g => if f.before g then f else g)) none with
    | none => none
    | some f =>
      let f := { f with st := .evicting }
      let p := (p.finishCopy f).raise SPW 3
      let addr := x.ga p f.tier (f.page * mib2)
      some (p.post x 5 2 ctx.toNat
        (BitVec.ofNat 32 (satAdd 32 (p.tide - f.lastTide) 0) ++ bits addr 21 32))

end Sys2Proof.Machine
end

