-- ==== Sys2Proof/Machine/Flits.lean ====
section
/-! DEFINITION. Flits and transactions as bits: link header, parity, CRC-32C, route word, transaction headers
(R297 to R300, R311 to R315). Readings and choices: log 12, 51. -/

namespace Sys2Proof.Machine

/-- One step of CRC-32C, least significant bit first (R299). -/
def crcBit (c : W32) : W32 := if c.getLsbD 0 then (c >>> 1) ^^^ 0x82F63B78 else c >>> 1

def crcByte (c : W32) (b : Byte) : W32 :=
  let x := c ^^^ b.setWidth 32
  crcBit (crcBit (crcBit (crcBit (crcBit (crcBit (crcBit (crcBit x)))))))

/-- CRC-32C of RFC 3720 (R299). -/
def crc32c (bs : List Byte) : W32 := ~~~(bs.foldl crcByte 0xFFFFFFFF)

/-- A word of a flit (R297). -/
def flitWord (f : BitVec 2048) (i : Nat) : W64 := bits f (64 * i) 64

/-- Even parity of a word: the bit that makes its count of ones even (R297). -/
def parityOf {n : Nat} (w : BitVec n) : Bool :=
  (List.range n).foldl (fun b i => b != w.getLsbD i) false

/-- The PARITY word of words 0 to 30 (R297). Bit 31, the parity of the CRC that covers it, is 0: the CRC
of every flit changes its parity with that bit, so bit 31 agrees with no CRC of odd parity (log 12). -/
def parityWord (low : BitVec 1984) : W32 :=
  BitVec.ofNat 32 ((List.range 31).foldl (fun n i => n + 2 ^ i * bit01 (parityOf (bits low (64 * i) 64))) 0)

/-- A flit formed from its link header and its payload words 1 to 30 (R297, R299). -/
def formFlit (hdr : W64) (pay : BitVec 1920) : BitVec 2048 :=
  let low : BitVec 1984 := pay ++ hdr
  let par := parityWord low
  crc32c (bytesOf (par ++ low) 252) ++ par ++ low

def flitPay (f : BitVec 2048) : BitVec 1920 := bits f 64 1920

/-- The CRC is right (R299). -/
def crcOk (f : BitVec 2048) : Bool := crc32c (bytesOf f 252) == bits f 2016 32

/-- Link-header fields (R298). -/
structure LinkHdr where
  type : Nat
  seq : BitVec 12
  aseq : BitVec 12
  ak : Nat
  cls : Nat
  credits : Nat
  cclass : Nat
  low : Nat
  deriving DecidableEq, Repr

def linkHdr (w : W64) : LinkHdr :=
  ⟨bitsN w 60 4, bits w 48 12, bits w 36 12, bitsN w 34 2, bitsN w 32 2, bitsN w 20 12, bitsN w 18 2, bitsN w 0 18⟩

def LinkHdr.word (h : LinkHdr) : W64 :=
  BitVec.ofNat 4 h.type ++ h.seq ++ h.aseq ++ BitVec.ofNat 2 h.ak ++ BitVec.ofNat 2 h.cls ++
    BitVec.ofNat 12 h.credits ++ BitVec.ofNat 2 h.cclass ++ BitVec.ofNat 18 h.low

/-- No reserved value stands in the header (R299). -/
def LinkHdr.ok (h : LinkHdr) : Bool := h.type ≤ 1 && h.ak ≠ 3 && h.cls ≠ 3 && h.low == 0

/-- PARITY bits 1 to 30, which every port checks (R300). -/
def parityOk (f : BitVec 2048) : Bool :=
  (parityWord (bits f 0 1984) ^^^ bits f 1984 32) &&& 0x7FFFFFFE#32 == 0

/-- The route word (R311). -/
structure Route where
  dest : Nat
  src : Nat
  used : Nat
  start : Nat
  fseq : BitVec 8
  deriving DecidableEq, Repr

def routeOf (w : W64) : Route := ⟨bitsN w 0 12, bitsN w 12 12, bitsN w 24 8, bitsN w 32 8, bits w 40 8⟩

def Route.word (r : Route) : W64 :=
  BitVec.ofNat 16 0 ++ r.fseq ++ BitVec.ofNat 8 r.start ++ BitVec.ofNat 8 r.used ++ BitVec.ofNat 12 r.src ++
    BitVec.ofNat 12 r.dest

/-- The data area's bytes in use (R311). -/
def flitData (f : BitVec 2048) (r : Route) : List Byte := bytesOf (bits f 128 1856) (min 232 r.used)

/-- The payload words of a flit (R311). -/
def formPay (r : Route) (data : List Byte) : BitVec 1920 := wordOf 1856 data ++ r.word

/-- Bytes of data that follow a header (R315): none follow a READ. -/
def dataLen (op len : Nat) : Nat := if op = 0x01 then 0 else len

/-- A length on an 8-byte boundary (R312). -/
def pad8 (n : Nat) : Nat := (n + 7) / 8 * 8

/-- A transaction as its stream carries it (R312, R314). -/
def Txn.bytes (t : Txn) : List Byte :=
  let w0 : W64 := t.status ++ BitVec.ofNat 1 (bit01 t.deferred) ++ BitVec.ofNat 1 (bit01 t.chk) ++ t.rinc ++
    t.epoch ++ t.len ++ t.tag ++ t.tinc ++ t.mod ++ t.op
  let h := bytesOf w0 8 ++ bytesOf t.addr 8 ++ bytesOf (t.ctx.setWidth 64) 8 ++ bytesOf t.opnd 8 ++ t.data
  h ++ List.replicate (pad8 h.length - h.length) 0

/-- The transaction whose header stands at the front, when all of it is there, with the bytes behind it
(R312, R314). -/
def parseTxn (src dst : Nat) (cls : TClass) (b : List Byte) : Option (Txn × List Byte) :=
  if b.length < 32 then none
  else
    let w0 : W64 := wordOf 64 (b.take 8)
    let w := fun i => (wordOf 64 ((b.drop (8 * i)).take 8) : W64)
    let n := dataLen (bitsN w0 0 8) (bitsN w0 32 10)
    if b.length < 32 + pad8 n then none
    else some (
      { op := bits w0 0 8, mod := bits w0 8 4, tinc := bits w0 12 4, tag := bits w0 16 16, len := bits w0 32 10
        epoch := bits w0 42 8, rinc := bits w0 50 4, chk := w0.getLsbD 54, deferred := w0.getLsbD 55
        status := bits w0 56 8, addr := w 1, ctx := bits (w 2) 0 16, opnd := w 3
        src := BitVec.ofNat 12 src, dst := BitVec.ofNat 12 dst, cls := cls, data := (b.drop 32).take n },
      b.drop (32 + pad8 n))

/-- Every whole transaction at the front of a stream's bytes, and what is left. -/
def parseTxns (src dst : Nat) (cls : TClass) : Nat → List Byte → List Txn × List Byte
  | 0, b => ([], b)
  | n + 1, b =>
    match parseTxn src dst cls b with
    | none => ([], b)
    | some (t, r) =>
      let q := parseTxns src dst cls n r
      (t :: q.1, q.2)

def TClass.ofNum (n : Nat) : TClass := if n = 0 then .guaranteed else if n = 1 then .elastic else .background

/-- Operations (R315). -/
abbrev opRead : Byte := 0x01
abbrev opWrite : Byte := 0x02
abbrev opReduce : Byte := 0x03
abbrev opAtomic : Byte := 0x04
abbrev opOpen : Byte := 0x05
abbrev opClose : Byte := 0x06
abbrev opFence : Byte := 0x07
abbrev opHeartbeat : Byte := 0x08
abbrev opNotice : Byte := 0x09

/-- It is a completion (R315). -/
def Txn.isCpl (t : Txn) : Bool := t.op.getLsbD 7

/-- OP and MOD of a request are listed (R315). -/
def Txn.known (t : Txn) : Bool :=
  let m := t.mod.toNat
  match t.op.toNat with
  | 0x01 | 0x02 | 0x06 => m == 0
  | 0x03 | 0x04 => m ≤ 1
  | 0x05 | 0x07 => m < 8
  | 0x08 => m < 4
  | 0x09 => 1 ≤ m && m ≤ 5
  | _ => false

end Sys2Proof.Machine
end

