-- ==== Sys2Proof/Machine/Links.lean ====
section
/-! DEFINITION. Fleavik ports: bring-up, retry and credits, flits in and out (R285 to R307, R337 to R339).
Readings and choices: log 4, 29, 30, 31, 36. -/

namespace Sys2Proof.Machine

def Polder.port (p : Polder) (i : Nat) : Port := SMap.get (fun _ => Port.reset) p.ports i
def Polder.setPort (p : Polder) (i : Nat) (v : Port) : Polder :=
  { p with ports := SMap.set (fun _ => Port.reset) p.ports i v }
def Polder.onFlx (p : Polder) (f : Flx → Flx) : Polder := { p with flx := f p.flx }

/-- A bit of a port's CTRL: 0 ENABLE, 2 FORCE_X4, 3 LOOP_OK (R307). -/
def Polder.portCtl (p : Polder) (i bit : Nat) : Bool := (p.rd (FLP i + 0x0C)).getLsbD bit

/-- Where a port of a running sluice die stands: an enabled port leaves DISABLED for LANE_CHECK (R288). -/
def Polder.portSt (p : Polder) (i : Nat) : PortSt :=
  let v := p.port i
  if !p.portCtl i 0 then .disabled else if v.st = .disabled then .laneCheck else v.st

def Polder.portUp (p : Polder) (i : Nat) : Bool := p.portSt i = .up

/-- A Fleavik or Twin port, which has cabled lanes and a lane group (R285). -/
def cabled (i : Nat) : Bool := i < 4 || i == 7

/-- The lane group of a cabled port (R285). -/
def groupOf (i : Nat) : Nat := if i = 7 then 4 else i

/-- The output a destination's flits take: none where the route is not VALID, `some none` where no output
of it is UP (R337, R338). -/
def PolCtx.output (x : PolCtx) (p : Polder) (dest : Nat) : Option (Option Nat) :=
  let r := x.cfg p (FLX1 + 0x44) dest
  if !r.getLsbD 7 then none
  else if p.portUp (bitsN r 0 3) then some (some (bitsN r 0 3))
  else if r.getLsbD 6 && p.portUp (bitsN r 3 3) then some (some (bitsN r 3 3))
  else some none

/-- Flits that no output takes are discarded and counted (R338). -/
def Polder.unroutable (p : Polder) (n : Nat) : Polder :=
  if n = 0 then p else (p.count (FLX0 + 0x7C) n).raise FLX0 5

/-- Flits an item would fill. -/
def TxItem.flits : TxItem → Nat
  | .flit _ _ => 1
  | .txn _ _ _ _ _ rest => (rest.length + 231) / 232

def TxItem.dest : TxItem → Nat
  | .flit _ pay => (routeOf (bits pay 0 64)).dest
  | .txn _ dst _ _ _ _ => dst

/-- An item joins the queue of the output its destination takes, or is discarded (R338). -/
def Polder.enqueue (p : Polder) (x : PolCtx) (i : TxItem) : Polder :=
  match x.output p i.dest with
  | some (some o) => p.setPort o { p.port o with queue := (p.port o).queue ++ [i] }
  | _ => p.unroutable i.flits

/-- The own ports go down, and what they held: flits sent and not acknowledged are handed back and
discarded; transactions whose header has left lose their rest; the others take another output
(R304, R338). -/
def Polder.handBack (p : Polder) (x : PolCtx) (v : Port) : Polder :=
  let p := p.unroutable v.replay.length
  v.queue.foldl (fun p q =>
    match q with
    | .txn _ _ _ _ true _ => p.unroutable q.flits
    | _ => p.enqueue x q) p

/-- What a port keeps of its last bring-up when it starts over at LANE_CHECK. -/
def Port.restart (v : Port) (cause : Nat) (idle : Bool) : Port :=
  { Port.reset with
    st := .laneCheck, cause := cause, idle := idle, peerKind := v.peerKind, peer := v.peer
    rxq := v.rxq, tx := v.tx, txShort := v.txShort }

/-- A link leaves UP: the transmitters idle for 1 ms, what it held goes back, and bring-up restarts; a
link that is not up only restarts (R293, R304). -/
def Polder.linkDown (p : Polder) (x : PolCtx) (i cause : Nat) : Polder :=
  let v := p.port i
  let up := p.portUp i
  let p := p.setPort i (v.restart cause up)
  if up then ((p.count (FLP i + 0x6C) 1).raise (FLP i) 1).handBack x v else p

/-- A write of a port's CTRL (R288, R307). -/
def Polder.portCtrl (p : Polder) (x : PolCtx) (i : Nat) (v : W32) : Polder :=
  let was := p.portCtl i 0
  let up := p.portUp i
  let o := p.port i
  let p := p.wr (FLP i + 0x0C) (v &&& 0xD#32)
  if !v.getLsbD 0 then
    let p := p.setPort i { Port.reset with peer := o.peer, peerKind := o.peerKind, rxq := o.rxq, tx := o.tx }
    if up then ((p.count (FLP i + 0x6C) 1).raise (FLP i) 1).handBack x o else p
  else if !was then p.setPort i (o.restart 0 false)
  else if v.getLsbD 1 then p.linkDown x i 10
  else p

/-- PORT_ENABLE_WRITE (R288). -/
def execPortEnableWrite (p : Pid) (port : Fin 8) (w : Who) (v : W32) (s : State) : Host.Outcome State Fault Refusal :=
  .next (s.writePage p (FLP port.val + 0x0C) w fun x q => q.portCtrl x port.val v)

/-- RETRAIN (R293, R307): it does nothing while the port is disabled. -/
def execRetrain (p : Pid) (port : Fin 8) (w : Who) (s : State) : Host.Outcome State Fault Refusal :=
  .next (s.writePage p (FLP port.val + 0x0C) w fun x q =>
    if q.portCtl port.val 0 then q.linkDown x port.val 10 else q)

/-- LANE_CHECK_DONE (R289): the lanes found shorted stay idle. -/
def execLaneCheckDone (p : Pid) (port : Fin 8) (shorted : BitVec 8) (s : State) : Host.Outcome State Fault Refusal :=
  .next (s.event p 5 fun _ q =>
    let i := port.val
    let v := q.port i
    if q.portSt i = .laneCheck && cabled i && !v.idle then
      let q := q.setPort i { v with
        st := .negotiate, txShort := shorted, returns := 0, failed := 0, rxOpen := 0, inverted := 0, trained := 0 }
      if shorted = 0 then q else q.raise (LNE (groupOf i)) 0
    else q)

/-- Peer records that arrived, with their receive lanes (R290). -/
def recordsOf (lanes : List LaneRx) : List (Nat × BitVec 128) :=
  (lanes.zip (List.range 8)).filterMap fun l =>
    match l.1 with
    | .record r => some (l.2, r)
    | _ => none

/-- A record without its LANE byte. -/
def noLane (r : BitVec 128) : BitVec 128 := r &&& 0xFFFFFFFFFFFFFFFFFFFFFFFF00FFFFFF#128

/-- The DEVICE of a module's identity records (R290). -/
def Module.device (m : Module) : W64 := wordOf 64 ((sha384 (bytesOf m.sensed.pubKey 97)).take 8)

/-- The code of R291 for a peer's records: CAUSE and PEER_KIND. CAUSE 0 proceeds; a record whose KIND is
reserved names no peer that may proceed. -/
def peerCheck (x : PolCtx) (port : Nat) (loopOk : Bool) (lanes : List LaneRx) : Nat × Nat :=
  match recordsOf lanes with
  | [] => if lanes.all (· == .nothing) then (1, 0) else (2, 3)
  | (_, r) :: rest =>
    let kind := bitsN r 0 8
    let pk := if kind ≤ 2 then kind else 0
    let own := bits r 64 64 == x.mod.device && bitsN r 16 8 == x.pid.val
    if rest.any fun q => noLane q.2 != noLane r then (5, pk)
    else if kind ≠ (if port = 7 then 2 else 1) then (2, pk)
    else if own && !loopOk then (4, pk)
    else if port = 7 && bitsN r 16 8 ≠ x.pid.val then (3, pk)
    else (0, pk)

/-- The lane order of records: straight, reversed, or none (R292). -/
def laneOrder (rs : List (Nat × BitVec 128)) : Option Bool :=
  if rs.all fun q => bitsN q.2 24 8 == q.1 then some false
  else if rs.all fun q => bitsN q.2 24 8 == 7 - q.1 then some true
  else none

/-- A set of lanes as a byte. -/
def laneMask (f : Nat → Bool) : BitVec 8 :=
  BitVec.ofNat 8 ((List.range 8).foldl (fun n i => n + 2 ^ i * bit01 (f i)) 0)

/-- Width and transmit lanes in use for G (R293). -/
def widthOf (g : BitVec 8) : Option (Nat × BitVec 8) :=
  if g = 0xFF then some (3, 0xFF)
  else if g &&& 0x0F#8 = 0x0F then some (1, 0x0F)
  else if g &&& 0xF0#8 = 0xF0 then some (2, 0xF0)
  else none

/-- A refused port waits 1 s (R291). -/
def Polder.refusePeer (p : Polder) (i cause kind : Nat) (v : Port) : Polder :=
  let p := p.setPort i { v with st := .wait, cause := cause, peerKind := kind }
  if cause = 1 then p else p.raise (FLP i) 2

/-- A negotiation round ends (R290 to R293). -/
def Polder.roundEnd (p : Polder) (x : PolCtx) (i : Nat) (lanes : List LaneRx) (peer : Option FinalPage) : Polder :=
  let rs := recordsOf lanes
  let opens := laneMask fun k => !(rs.any fun q => q.1 == k)
  let v := p.port i
  let v := { v with
    rxOpen := opens
    signal := laneMask fun k => (lanes[k]?).any (· != .nothing)
    laneOf := rs.foldl (fun m q => SMap.insert m q.1 (bitsN q.2 24 8)) []
    peer := (rs.head?).elim v.peer (·.2) }
  let p := if opens = 0 then p else p.raise (LNE (groupOf i)) 1
  let c := peerCheck x i (p.portCtl i 3) lanes
  if c.1 ≠ 0 then p.refusePeer i c.1 c.2 v
  else match laneOrder rs with
    | none => p.refusePeer i 5 c.2 v
    | some rev =>
      let good := laneMask (fun n => rs.any fun q => bitsN q.2 24 8 == n) &&& ~~~v.failed
      let pg := (peer.map (·.rxGood)).getD 0
      let g := good &&& pg
      let g := if p.portCtl i 2 || (peer.map (·.forceX4)).getD false then g &&& 0x0F#8 else g
      let v := { v with reversed := rev, rxGood := good, peerGood := pg, peerKind := c.2 }
      match widthOf g with
      | some (wd, l) => p.setPort i { v with st := .train, width := wd, lanes := l }
      | none => p.setPort i { v with st := .laneCheck, cause := 6, width := 0, lanes := 0 }

/-- NEGOTIATE_ROUND_END (R290 to R293). -/
def execNegotiateRoundEnd (p : Pid) (port : Fin 8) (lanes : List LaneRx) (peer : Option FinalPage) (s : State) :
    Host.Outcome State Fault Refusal :=
  if lanes.length ≠ 8 then .fault .illFormed
  else .next (s.event p 5 fun x q =>
    if q.portSt port.val = .negotiate then q.roundEnd x port.val lanes peer else q)

/-- The peer's transmit lane on a receive lane (R292). -/
def Port.peerLane (v : Port) (i : Nat) : Nat := if v.reversed then 7 - i else i

/-- Receive lanes that carry a transmit lane in use (R293). -/
def Port.rxUsed (v : Port) : BitVec 8 := laneMask fun i => v.lanes.getLsbD (v.peerLane i)

/-- TRAIN_DONE (R294): `failed` and `inverted` are receive lanes. -/
def execTrainDone (p : Pid) (port : Fin 8) (failed inverted : BitVec 8) (s : State) :
    Host.Outcome State Fault Refusal :=
  .next (s.event p 5 fun x q =>
    let i := port.val
    let v := q.port i
    if q.portSt i ≠ .train then q
    else
      let bad := failed &&& v.rxUsed
      let v : Port := { v with trained := v.rxUsed &&& ~~~bad, inverted := inverted &&& v.rxUsed }
      if bad = 0 then q.setPort i { v with st := .align }
      else
        let lost := laneMask fun n => (List.range 8).any fun k => bad.getLsbD k && v.peerLane k == n
        let v : Port := { v with failed := v.failed ||| lost, rxGood := v.rxGood &&& ~~~lost }
        if v.returns < 2 then q.setPort i { v with st := .negotiate, returns := v.returns + 1 }
        else (q.setPort i v).linkDown x i 7)

def Polder.onTwin (p : Polder) (f : Twin → Twin) : Polder := { p with twin := f p.twin }

/-- The twin's identifier from the identity records of the Twin port: none while it has no MODULE (R290,
R362). -/
def twinId (r : BitVec 128) : Option (BitVec 12) :=
  let m := bitsN r 32 16
  if 1024 ≤ m then none else some (BitVec.ofNat 12 (4 * m + bitsN r 16 2))

/-- The Twin link has come up (R362). -/
def Twin.linked (w : Twin) (r : BitVec 128) : Twin :=
  match twinId r with
  | none => w
  | some i => { w with peer := some i, up := w.up || w.peer != some i }

/-- A link enters UP: SEQ 0 and full credits at both ends (R293, R296, R303). -/
def Polder.linkUp (p : Polder) (i : Nat) : Polder :=
  let v := p.port i
  let p := p.setPort i { v with
    st := .up, seq := 0, expect := 0, replay := [], resend := 0, replayFrom := none, spent := [], peerFreed := []
    freed := [], cclass := 0, nakSent := false, nakDue := false, unacked := 0, nakRun := 0, nakAge := 0 }
  let p := p.raise (FLP i) 0
  let p := if i = 7 then p.onTwin fun w => w.linked v.peer else p
  if v.width = 3 then p else p.raise (FLP i) 3

/-- ALIGN_DONE (R296). -/
def execAlignDone (p : Pid) (port : Fin 8) (s : State) : Host.Outcome State Fault Refusal :=
  .next (s.event p 5 fun _ q => if q.portSt port.val = .align then q.linkUp port.val else q)

/-- ALIGN_TIMEOUT (R288): the spec names no cause for a port that fails here, so CAUSE is a free value (log 4). -/
def execAlignTimeout (p : Pid) (port : Fin 8) (s : State) : Host.Outcome State Fault Refusal :=
  .next (let i := port.val
    if s.live p 5 && (s.pol p).portSt i = .align then
      s.onPolFree p fun x q => q.setPort i ((q.port i).restart (bitsN (Config.freeWord x.free) 0 4) false)
    else s)

/-- WAIT_EXPIRY (R288). -/
def execWaitExpiry (p : Pid) (port : Fin 8) (s : State) : Host.Outcome State Fault Refusal :=
  .next (s.event p 5 fun _ q =>
    let v := q.port port.val
    if q.portSt port.val = .wait then q.setPort port.val (v.restart v.cause false) else q)

/-- LANE_LOST (R304). -/
def execLaneLost (p : Pid) (port : Fin 8) (s : State) : Host.Outcome State Fault Refusal :=
  .next (s.event p 5 fun x q => if q.portUp port.val then q.linkDown x port.val 8 else q)

/-- DOWN_IDLE_END (R304). -/
def execDownIdleEnd (p : Pid) (port : Fin 8) (s : State) : Host.Outcome State Fault Refusal :=
  .next (s.event p 5 fun _ q =>
    let v := q.port port.val
    if v.idle then q.setPort port.val { v with idle := false } else q)

/-- IN_PACKAGE_BRINGUP (R306): a far polder that gives no mask is down. -/
def execInPackageBringup (p : Pid) (port : Fin 8) (failed : BitVec 8) (peer : Option (BitVec 8)) (s : State) :
    Host.Outcome State Fault Refusal :=
  .next (s.event p 5 fun _ q =>
    let i := port.val
    let v := q.port i
    if q.portSt i = .laneCheck && !cabled i && !v.idle then
      match peer with
      | none => q.setPort i { v with st := .laneCheck, cause := 1 }
      | some pg =>
        let g := ~~~failed &&& pg
        let g := if q.portCtl i 2 then g &&& 0x0F#8 else g
        let v := { v with rxGood := ~~~failed, peerGood := pg, reversed := false }
        match widthOf g with
        | some (wd, l) => (q.setPort i { v with width := wd, lanes := l, trained := l }).linkUp i
        | none => q.setPort i { v with st := .laneCheck, cause := 6 }
    else q)

/-- Credits of a class that each end starts with (R303). -/
def initialCredit (c : Nat) : Nat := if c = 0 then 512 else 256

/-- A credit of a class is at hand (R303). -/
def Port.credit (v : Port) (c : Nat) : Bool :=
  let get := fun m => SMap.get (fun _ => 0) m c
  0 < (initialCredit c + get v.peerFreed + 4096 - get v.spent % 4096) % 4096

/-- The first item of a class that leaves: what has begun, then completions, then the rest in order
(R312, R324). -/
def pickItem (c : Nat) (q : List TxItem) : Option (TxItem × List TxItem) :=
  let ofCls := fun (i : TxItem) => match i with
    | .flit k _ => k == c
    | .txn k _ _ _ _ _ => k == c
  let begun := fun (i : TxItem) => ofCls i && (match i with
    | .txn _ _ _ _ b _ => b
    | .flit _ _ => false)
  let cpl := fun (i : TxItem) => ofCls i && (match i with
    | .txn _ _ b _ _ _ => b
    | .flit _ _ => false)
  match takeFirst begun q with
  | some r => some r
  | none => match takeFirst cpl q with
    | some r => some r
    | none => takeFirst ofCls q

/-- The next transaction of a stream. -/
def nextOf (c dst : Nat) (q : List TxItem) : Option (TxItem × List TxItem) :=
  let f := fun (want : Bool) (i : TxItem) => match i with
    | .txn k d b _ _ _ => k == c && d == dst && b == want
    | .flit _ _ => false
  match takeFirst (f true) q with
  | some r => some r
  | none => takeFirst (f false) q

/-- A data area filled from a stream, transactions back to back (R312): the bytes, where the first header
stands, and the queue left. -/
def fillArea (c dst : Nat) : Nat → List Byte → Option Nat → TxItem → List TxItem → List Byte × Option Nat × List TxItem
  | 0, acc, st, i, q => (acc, st, i :: q)
  | n + 1, acc, st, i, q =>
    match i with
    | .flit _ _ => (acc, st, i :: q)
    | .txn k d b t begun rest =>
      let st := if !begun && st.isNone then some acc.length else st
      let room := 232 - acc.length
      let acc' := acc ++ rest.take room
      if room < rest.length then (acc', st, .txn k d b t true (rest.drop room) :: q)
      else if acc'.length = 232 then (acc', st, q)
      else match nextOf c dst q with
        | none => (acc', st, q)
        | some (j, q') => fillArea c dst n acc' st j q'

/-- The payload of a port's next new flit, from the highest class that has one and a credit (R303, R312,
R331). -/
def Polder.nextFlit (p : Polder) (x : PolCtx) (i : Nat) : Option (Polder × Nat × BitVec 1920) :=
  let v := p.port i
  [0, 1, 2].findSome? fun c =>
    if !v.credit c then none
    else (pickItem c v.queue).map fun r =>
      match r.1 with
      | .flit _ pay => (p.setPort i { v with queue := r.2 }, c, pay)
      | .txn _ d _ _ _ _ =>
        let a := fillArea c d 9 [] none r.1 r.2
        let key := d * 4 + c
        let f := SMap.get (fun _ => 0) p.flx.txSeq key
        let rt : Route := ⟨d, x.ownId p, a.1.length, a.2.1.getD 0xFF, f⟩
        let p := p.setPort i { v with queue := a.2.2 }
        (p.onFlx fun g => { g with txSeq := SMap.set (fun _ => 0) g.txSeq key (f + 1) }, c, formPay rt a.1)

/-- The header a port sends now: acknowledgement and credits ride on it (R298, R302, R303). -/
def Port.header (v : Port) (type : Nat) (seq : BitVec 12) (cls : Nat) : LinkHdr :=
  { type := type, seq := seq, aseq := v.expect - 1
    ak := if v.nakDue then 2 else if v.unacked = 0 then 0 else 1
    cls := cls, credits := SMap.get (fun _ => 0) v.freed v.cclass % 4096, cclass := v.cclass, low := 0 }

/-- The port has sent a flit: what its header said is said (R302, R303). -/
def Port.sent (v : Port) (f : BitVec 2048) : Port :=
  let cyc := if v.width = 3 then 1 else 2
  { v with
    tx := some f, cclass := (v.cclass + 1) % 3, unacked := 0, nakDue := false
    nakSent := v.nakDue || (v.nakSent && v.nakAge + cyc < 512)
    nakAge := if v.nakDue then 0 else min 512 (v.nakAge + cyc) }

/-- One flit time of the sender: a replay, a new flit against a credit while the replay buffer has room, or
a NULL flit (R301 to R303). -/
def Polder.transmit (p : Polder) (x : PolCtx) (i : Nat) : Polder :=
  let v := p.port i
  let again := if v.resend = 0 then none else v.replay[v.replay.length - v.resend]?
  match again with
  | some (seq, c, pay) =>
    let f := formFlit (v.header 1 seq c).word pay
    p.setPort i { v.sent f with resend := v.resend - 1, replayFrom := if v.resend = 1 then none else v.replayFrom }
  | none =>
    match (if v.replay.length < 512 then p.nextFlit x i else none) with
    | some (p, c, pay) =>
      let v := p.port i
      let f := formFlit (v.header 1 v.seq c).word pay
      let v := { v.sent f with
        seq := v.seq + 1, replay := v.replay ++ [(v.seq, c, pay)]
        spent := SMap.set (fun _ => 0) v.spent c (SMap.get (fun _ => 0) v.spent c + 1) }
      let m := max (p.rdN (FLP i + 0x64)) v.replay.length
      (p.setPort i v).wr (FLP i + 0x64) (BitVec.ofNat 32 m)
    | none => p.setPort i (v.sent (formFlit (v.header 0 (v.seq - 1) 0).word 0))

/-- FLIT_TRANSMIT (R301). -/
def execFlitTransmit (p : Pid) (port : Fin 8) (s : State) : Host.Outcome State Fault Refusal :=
  .next (s.event p 5 fun x q => if q.portUp port.val then q.transmit x port.val else q)

/-- ACK_TIMER: a delivery not yet acknowledged is, with the next flit, which leaves now (R302). -/
def execAckTimer (p : Pid) (port : Fin 8) (s : State) : Host.Outcome State Fault Refusal :=
  .next (s.event p 5 fun x q =>
    if q.portUp port.val && 0 < (q.port port.val).unacked then q.transmit x port.val else q)

/-- A discarded flit asks for a NAK, at most one for an expected SEQ in 512 port cycles (R302). -/
def Port.askNak (v : Port) : Port := if v.nakSent then v else { v with nakDue := true }

/-- The NAK limit of a port (R304, R307). -/
def Polder.nakLimit (p : Polder) (i : Nat) : Nat := max 1 (bitsN (p.rd (FLP i + 0x74)) 0 4)

/-- What a header acknowledges (R301, R303): whether the link goes down for NAK_LIMIT (R304). -/
def Polder.acknowledged (p : Polder) (i : Nat) (h : LinkHdr) : Polder × Bool :=
  let v := p.port i
  let v := if h.cclass < 3 then { v with peerFreed := SMap.set (fun _ => 0) v.peerFreed h.cclass h.credits } else v
  if h.ak = 0 then (p.setPort i v, false)
  else
    let keep := v.replay.filter fun e => (h.aseq - e.1).toNat ≥ 2048
    let v := { v with replay := keep, resend := min v.resend keep.length }
    let v := if v.resend = 0 then { v with replayFrom := none } else v
    if h.ak = 1 then (p.setPort i v, false)
    else
      let run := if v.nakSeq = h.aseq && v.nakRun ≠ 0 then v.nakRun + 1 else 1
      let v := { v with nakSeq := h.aseq, nakRun := run }
      let old := match v.replayFrom with
        | some m => (m - h.aseq).toNat < 2048
        | none => false
      let lim := decide (p.nakLimit i ≤ run)
      if old || keep.isEmpty then (p.setPort i v, lim)
      else
        let p := p.setPort i { v with resend := keep.length, replayFrom := some h.aseq }
        ((p.count (FLP i + 0x60) 1).raise (FLP i) 4, lim)

/-- A request of the fabric is answered: its completion sets out, or completes the own request (R315,
R316). What a completion does not carry of its own it carries of the request. -/
def Polder.completion (p : Polder) (t : Txn) (st : Status) (deferred : Bool) (data : List Byte) : Txn :=
  { t with
    op := t.op ||| 0x80, tinc := p.wdn.polderInc, chk := false, deferred := deferred, status := st
    len := BitVec.ofNat 10 data.length, src := t.dst, dst := t.src, data := data }

/-- A completion leaves for another polder (R312, R324). -/
def Polder.sendCpl (p : Polder) (x : PolCtx) (t : Txn) : Polder :=
  (p.enqueue x (.txn t.cls.num t.dst.toNat true t.tag false (Txn.bytes t))).onFlx fun g => { g with sent := g.sent ++ [t] }

/-- A transaction that has arrived whole: a malformed request is counted and dropped, one that meets a full
queue is answered REFUSED_BUSY, the others wait to be executed (R315, R324). -/
def Polder.arrive (p : Polder) (x : PolCtx) (port : Nat) (t : Txn) : Polder :=
  if !Txn.isCpl t && !Txn.known t then p.count (FLX0 + 0x80) 1
  else if Txn.isCpl t || t.op = opHeartbeat || t.op = opNotice then
    p.onFlx fun g => { g with inbound := g.inbound ++ [(port, t)] }
  else if 2048 ≤ (p.flx.inbound.filter fun e => !Txn.isCpl e.2 && e.2.cls == t.cls).length then
    p.sendCpl x (p.completion t Status.refusedBusy false [])
  else p.onFlx fun g => { g with inbound := g.inbound ++ [(port, t)] }

/-- A flit of a stream is taken in FSEQ order (R313). -/
def Polder.reassemble (p : Polder) (x : PolCtx) (port cls : Nat) (f : BitVec 2048) : Polder :=
  let r := routeOf (flitWord f 1)
  let key := r.src * 4 + cls
  let s := SMap.get (fun _ => RxStream.mk 0 []) p.flx.rxs key
  let d := (r.fseq - s.expect).toNat
  if 128 ≤ d then p
  else
    let data := flitData f r
    let body := if d = 0 && !s.part.isEmpty then s.part ++ data
      else if r.start = 0xFF then [] else data.drop r.start
    let q := parseTxns r.src r.dest (TClass.ofNum cls) 30 body
    let rxs := SMap.set (fun _ => RxStream.mk 0 []) p.flx.rxs key ⟨r.fseq + 1, q.2⟩
    let p := p.onFlx fun g => { g with rxs := rxs }
    q.1.foldl (fun p t => p.arrive x port t) p

/-- An entry of the receive buffer is freed (R303). -/
def Port.free1 (v : Port) (cls : Nat) : Port :=
  { v with freed := SMap.set (fun _ => 0) v.freed cls (SMap.get (fun _ => 0) v.freed cls + 1) }

/-- A flit is delivered to the transaction engine: it is for this polder, or waits to be forwarded
(R309, R313, R339). -/
def Polder.deliver (p : Polder) (x : PolCtx) (i : Nat) (h : LinkHdr) (f : BitVec 2048) : Polder :=
  let v := p.port i
  if (x.module? p).isNone then p.setPort i (v.free1 h.cls)
  else if (routeOf (flitWord f 1)).dest = x.ownId p then
    (p.setPort i (v.free1 h.cls)).reassemble x i h.cls f
  else p.setPort i { v with rxq := v.rxq ++ [f] }

/-- A flit arrives at a port that is UP (R299, R300, R302, R303). -/
def Polder.receive (p : Polder) (x : PolCtx) (i : Nat) (f : BitVec 2048) : Polder :=
  let h := linkHdr (flitWord f 0)
  if !(crcOk f && h.ok) then
    let p := p.count (FLP i + 0x5C) 1
    p.setPort i (p.port i).askNak
  else
    let a := p.acknowledged i h
    if a.2 then a.1.linkDown x i 9
    else
      let p := a.1
      let v := p.port i
      if h.type = 0 then p
      else if h.seq = v.expect then
        let p := p.setPort i { v with expect := v.expect + 1, nakSent := false, nakDue := false, unacked := v.unacked + 1 }
        if parityOk f then p.deliver x i h f
        else
          let p := p.setPort i ((p.port i).free1 h.cls)
          (p.count (FLP i + 0x70) 1).raise (FLP i) 5
      else if (v.expect - h.seq).toNat < 2048 then p
      else p.setPort i v.askNak

/-- FLIT_RECEIVE (R302, R313). -/
def execFlitReceive (p : Pid) (port : Fin 8) (flit : BitVec 2048) (s : State) : Host.Outcome State Fault Refusal :=
  .next (s.event p 5 fun x q => if q.portUp port.val then q.receive x port.val flit else q)

/-- A flit passes through: in its class, its payload unchanged, on an output that is UP (R300, R338, R339). -/
def Polder.forward (p : Polder) (x : PolCtx) (i : Nat) (f : BitVec 2048) : Polder :=
  let cls := (linkHdr (flitWord f 0)).cls
  let dest := (routeOf (flitWord f 1)).dest
  let v := p.port i
  let p := match takeFirst (· == f) v.rxq with
    | some r => p.setPort i (Port.free1 { v with rxq := r.2 } cls)
    | none => p
  if !(p.rd (FLX0 + 0x0C)).getLsbD 2 then p.unroutable 1
  else match x.output p dest with
    | some (some o) =>
      if parityOk f then (p.enqueue x (.flit cls (flitPay f))).count (FLX0 + 0x88) 1
      else (p.count (FLP o + 0x70) 1).raise (FLP o) 5
    | _ => p.unroutable 1

/-- FLIT_FORWARD (R339): the polder of the flit is another one. -/
def execFlitForward (p : Pid) (port : Fin 8) (flit : BitVec 2048) (s : State) : Host.Outcome State Fault Refusal :=
  .next (s.event p 5 fun x q =>
    if (x.module? q).isSome && (routeOf (flitWord flit 1)).dest ≠ x.ownId q then q.forward x port.val flit else q)

end Sys2Proof.Machine
end

