-- ==== Sys2Proof/WellFormed.lean ====
section
/-! DEFINITION. Which commands can occur: the lengths of the payloads that a wire, a bus or a queue carries. A
command whose payload no wire can carry is ill-formed, and its meaning stops with the fault `illFormed`.
Operands with a type of their own (an index, a word) need no check. Readings and choices: log 8. -/

namespace Sys2Proof

/-- A transaction carries at most 512 data bytes (R308, R314). -/
def Txn.wf (t : Txn) : Bool := t.data.length ≤ 512

/-- A read of a memory request brings back at most 512 bytes (R185). -/
def ReadReply.wf (r : ReadReply) : Bool := r.data.length ≤ 512

/-- An access of the server is one PCIe access of 1 to 4,096 bytes. -/
def Access.wf : Access → Bool
  | .read n => 1 ≤ n && n ≤ 4096
  | .write bs => 1 ≤ bs.length && bs.length ≤ 4096

/-- A PCIe completion brings at most 4,096 bytes. -/
def PcieOutcome.wf : PcieOutcome → Bool
  | .ok d => d.length ≤ 4096
  | .ur | .ca | .poisoned | .timeout => true

/-- An Inlet frame's payload is at most 8,192 bytes (R448). -/
def Frame.wf (f : Frame) : Bool := f.payload.length ≤ 8192

/-- A window command that comes by the fabric carries a transaction. -/
def WinFrom.wf : WinFrom → Bool
  | .regPath => true
  | .fabric _ t => t.wf

/-- The payload check of a command. -/
def Instr.wf : Instr → Bool
  | .intakeDataLanded _ _ r => r.wf
  | .bar4Access _ _ a => a.wf
  | .tier3Completion _ _ o => o.wf
  | .negotiateRoundEnd _ _ lanes _ => lanes.length == 8
  | .txnRequestIssue _ t => t.wf
  | .fabricRead _ _ t => t.wf
  | .fabricWrite _ _ t => t.wf
  | .fabricReduceWrite _ _ t => t.wf
  | .fabricFetchAdd _ _ t => t.wf
  | .fabricCompareSwap _ _ t => t.wf
  | .windowOpen _ o => o.wf
  | .windowClose _ o => o.wf
  | .fabricFence _ _ t => t.wf
  | .txnCompletion _ t => t.wf
  | .heartbeatRx _ t => t.wf
  | .noticePeerLost _ t => t.wf
  | .noticePeerUp _ t => t.wf
  | .noticeRouteChange _ t => t.wf
  | .noticeDrain _ t => t.wf
  | .noticeUser _ t => t.wf
  | .mirrorRecordRx _ _ t => t.wf
  | .inletDataFrame _ f => f.wf
  | .inletCreditFrame _ f => f.wf
  | .inletNackFrame _ f => f.wf
  | .restore2408 _ _ _ q => q.length ≤ 65536
  | .fwLoad _ _ (some b) => b.length ≤ 67108864
  | _ => true

end Sys2Proof
end

