-- ==== Sys2Proof/Machine/FlxOps.lean ====
section
/-! DEFINITION. Requests of the polder's own requesters at the fabric transaction engine: views, tags, egress
admission, and how a request ends (R309, R316, R320 to R323, R330 to R335). Readings and choices: log 30, 31,
37. -/

namespace Sys2Proof.Machine

def Polder.view (p : Polder) (id : Nat) : PolderView := SMap.get (fun _ => PolderView.none) p.flx.views id
def Polder.setView (p : Polder) (id : Nat) (v : PolderView) : Polder :=
  p.onFlx fun g => { g with views := SMap.set (fun _ => PolderView.none) g.views id v }

/-- The quota slot of fabric egress a context is bound to (R333). -/
def PolCtx.egressSlot (x : PolCtx) (p : Polder) (ctx : BitVec 16) : Option Nat :=
  if ctx = 0xFFFF then none
  else (List.range 16).find? fun s => bits (x.cfg p (FLX0 + 0x58) s) 0 16 == ctx

/-- Count at a quota slot, if the context has one. -/
def Polder.countSlot (p : Polder) (off : Nat) (slot : Option Nat) : Polder :=
  match slot with
  | some s => p.count off 1 (place := 1 + s)
  | none => p

/-- Bytes a request counts in egress: its header and its data (R332). -/
def Txn.egressBytes (t : Txn) : Nat := 32 + t.data.length

/-- The demand rule on fabric egress (R332, R333): refused, or the class on the wire and whether the share
within the guarantee was passed. -/
def Polder.admitEgress (p : Polder) (x : PolCtx) (t : Txn) : Polder × Option (TClass × Bool) :=
  if t.cls = .background then (p, some (.background, false))
  else
    let slot := x.egressSlot p t.ctx
    let w := (slot.map fun s => x.cfg p (FLX0 + 0x5C) s).getD 0
    let key := slot.getD 16
    let c := SMap.get (fun _ => 0) p.flx.used key + Txn.egressBytes t
    if 3125 * bitsN w 16 9 < c then ((p.countSlot (FLX0 + 0x64) slot).raise FLX0 8, none)
    else
      let p := p.onFlx fun g => { g with used := SMap.set (fun _ => 0) g.used key c }
      if t.cls = .guaranteed && 3125 * bitsN w 0 9 < c then
        (p.countSlot (FLX0 + 0x60) slot, some (.elastic, true))
      else (p, some (t.cls, false))

/-- A tag no request holds and no timeout has retired (R321). -/
def Flx.freeTag (g : Flx) : BitVec 16 :=
  let rec go : Nat → BitVec 16 → BitVec 16
    | 0, t => t
    | n + 1, t => if (g.reqs.any fun r => r.txn.tag == t) || g.retired.contains t then go n (t + 1) else t
  go 65536 g.nextTag

/-- The output's queue holds other traffic: an ELASTIC transaction waits (R331, R333). -/
def PolCtx.waits (x : PolCtx) (p : Polder) (dest : Nat) : Bool :=
  match x.output p dest with
  | some (some o) => !(p.port o).queue.isEmpty
  | _ => false

/-- A request is issued to the polder its address names: the polder as it is then, and the tag it is
outstanding under or the code it completes with at once (R309, R310, R316, R320, R321, R333, R335, R337). -/
def Polder.request (p : Polder) (x : PolCtx) (t : Txn) (asker : Asker) : Polder × Except Status (BitVec 16) :=
  let dest := gaId t.addr
  let own := x.ownId p
  if (x.module? p).isNone || 5 ≤ gaTier t.addr then (p, .error Status.addressInvalid)
  else if dest ≠ own && (p.view dest).draining then (p, .error Status.refusedBusy)
  else if dest ≠ own && (x.output p dest).isNone then (p, .error Status.addressInvalid)
  else if 4096 ≤ p.flx.reqs.length then
    (p.countSlot (FLX0 + 0x68) (x.egressSlot p t.ctx), .error Status.refusedBusy)
  else match (if dest = own then (p, some (t.cls, false)) else p.admitEgress x t) with
    | (p, none) => (p, .error Status.refusedQuota)
    | (p, some (cls, above)) =>
      let v := p.view dest
      let tag := p.flx.freeTag
      let t := { t with
        tag := tag, rinc := p.wdn.polderInc, chk := v.known && dest != own, tinc := if v.known then v.inc else 0
        src := BitVec.ofNat 12 own, dst := BitVec.ofNat 12 dest, cls := cls, deferred := false, status := 0
        len := if t.op = opRead then t.len else BitVec.ofNat 10 t.data.length }
      let deferred := above || (cls = .elastic && x.waits p dest)
      let p := p.onFlx fun g => { g with
        reqs := g.reqs ++ [⟨t, asker, deferred⟩], nextTag := tag + 1, sent := g.sent ++ [t]
        inbound := if dest = own then g.inbound ++ [(8, t)] else g.inbound }
      (if dest = own then p else p.enqueue x (.txn cls.num dest false tag false (Txn.bytes t)), .ok tag)

/-- An answer reaches the engine whose request it is (R194, R199). -/
def Eng.answered (v : Eng) (tag : BitVec 16) (st : Status) (deferred : Bool) (data : List Byte) : Eng :=
  { v with
    reqs := v.reqs.map fun q => if q.tag = some tag then { q with answer := some ⟨st, deferred, data⟩ } else q
    txns := v.txns.map fun q => if q.tag = tag then { q with answer := some (st, deferred) } else q }

/-- An engine holds the request of a tag; if it does not, it has been reset since (R394). -/
def Eng.awaits (v : Eng) (tag : BitVec 16) : Bool :=
  (v.reqs.any fun q => q.tag == some tag) || v.txns.any fun q => q.tag == tag

/-- A Pump's request has failed: the update keeps its first code (R281). -/
def Chan.replied (v : Chan) (st : Status) : Chan :=
  if st = Status.done || v.bad ≠ 0 then v else { v with bad := st }

/-- The next unit of a transfer: the most that stays within 512-byte lines of both ends (R317, R372). -/
def Xfer.next (v : Xfer) : Nat :=
  min (v.len - v.done) (min (512 - (v.src + BitVec.ofNat 64 v.done).toNat % 512)
    (512 - (v.dst + BitVec.ofNat 64 v.done).toNat % 512))

/-- A request of the transfer engine: in class BACKGROUND (R372). -/
def xferTxn (op : BitVec 8) (a : W64) (len : Nat) (ctx : BitVec 16) (bs : List Byte) : Txn :=
  { op := op, mod := 0, tinc := 0, tag := 0, len := BitVec.ofNat 10 len, epoch := 0, rinc := 0, chk := false
    deferred := false, status := 0, addr := a, ctx := ctx, opnd := 0, src := 0, dst := 0, cls := .background, data := bs }

/-- The transfer engine issues a request; one that ends at once ends the transfer (R372). -/
def Polder.xferAsk (p : Polder) (x : PolCtx) (v : Xfer) (t : Txn) : Polder :=
  match p.request x t .xfer with
  | (p, .ok _) => p.onTwin fun w => { w with xf := some v }
  | (p, .error st) => p.onTwin fun w => { w with xf := some { v with code := some st } }

/-- The unit read, or zeros, goes out as a WRITE (R372). -/
def Polder.xferWrite (p : Polder) (x : PolCtx) (v : Xfer) (bs : List Byte) : Polder :=
  p.xferAsk x v (xferTxn opWrite (v.dst + BitVec.ofNat 64 v.done) bs.length v.ctx bs)

/-- The transfer goes on with its next unit, or has moved every byte (R372). -/
def Polder.xferGo (p : Polder) (x : PolCtx) (v : Xfer) : Polder :=
  if v.len ≤ v.done then p.onTwin fun w => { w with xf := some { v with code := some Status.done } }
  else
    let n := v.next
    let v := { v with unit := n }
    if v.zero then p.xferWrite x v (List.replicate n 0)
    else p.xferAsk x v (xferTxn opRead (v.src + BitVec.ofNat 64 v.done) n v.ctx [])

/-- Multiplication in GF(2^8) with the polynomial 0x11D (R369). -/
def gfMul (a b : Byte) : Byte :=
  let shl := fun (v : Byte) => if v.getLsbD 7 then (v <<< 1) ^^^ 0x1D#8 else v <<< 1
  ((List.range 8).foldl (fun (q : Byte × Byte) i =>
    (if b.getLsbD i then q.1 ^^^ q.2 else q.1, shl q.2)) (0, a)).1

/-- The answer of a transfer's request (R372). -/
def Polder.xferDone (p : Polder) (x : PolCtx) (op : BitVec 8) (st : Status) (data : List Byte) : Polder :=
  match p.twin.xf with
  | none => p
  | some v =>
    if v.code.isSome then p
    else if st ≠ Status.done then p.onTwin fun w => { w with xf := some { v with code := some st } }
    else if op = opRead then p.xferWrite x v (data.map (gfMul v.coef))
    else p.xferGo x { v with done := v.done + v.unit }

/-- A request ends at its requester (R320, R322, R323, R332): it leaves the outstanding ones and its asker
has the answer. -/
def Polder.finishReq (p : Polder) (x : PolCtx) (r : OutReq) (st : Status) (deferred : Bool) (data : List Byte) :
    Polder :=
  let d := deferred || r.deferred
  let tag := r.txn.tag
  let p := p.onFlx fun g => { g with reqs := g.reqs.filter fun q => q.txn.tag != tag }
  match r.asker with
  | .engine e =>
    let v := SMap.get (fun _ => Eng.reset) p.engines e
    if !v.awaits tag then p.count (WDN + 0x64) 1
    else { p with engines := SMap.set (fun _ => Eng.reset) p.engines e (v.answered tag st d data) }
  | .pump ch =>
    let v := SMap.get (fun _ => Chan.reset) p.chans ch.val
    { p with chans := SMap.set (fun _ => Chan.reset) p.chans ch.val (v.replied st) }
  | .relay =>
    match p.twin.relays.find? fun q => q.tag == tag with
    | none => p
    | some q =>
      if q.landed then
        (p.onTwin fun w => { w with relays := w.relays.filter fun a => a.tag != tag }).sendCpl x
          (p.completion q.txn st (q.deferred || d) [])
      else p.onTwin fun w => { w with
        relays := w.relays.map fun a => if a.tag = tag then { a with result := some (st, d) } else a }
  | .xfer => p.xferDone x r.txn.op st data
  | .norm _ | .mirror | .keeper => p

/-- A request is answered at its source: by a completion, or at once where the source is this polder (R315,
R316). -/
def Polder.answer (p : Polder) (x : PolCtx) (t : Txn) (st : Status) (deferred : Bool) (data : List Byte) : Polder :=
  if t.src.toNat = x.ownId p then
    match p.flx.reqs.find? fun r => r.txn.tag == t.tag with
    | some r => p.finishReq x r st deferred data
    | none => p
  else p.sendCpl x (p.completion t st deferred data)

/-- The outstanding request of a tag. -/
def Polder.reqOf (p : Polder) (tag : BitVec 16) : Option OutReq := p.flx.reqs.find? fun r => r.txn.tag == tag

/-- A request to a lost or returned polder completes with RESET_ABORT (R323). -/
def Polder.abortTo (p : Polder) (x : PolCtx) (id : Nat) : Polder :=
  (p.flx.reqs.filter fun r => r.txn.dst.toNat == id).foldl (fun p r => p.finishReq x r Status.resetAbort false []) p

/-- A transaction whose header has not left yet (R331). -/
def TxItem.unsent (i : TxItem) (tag : BitVec 16) : Bool :=
  match i with
  | .txn _ _ false t false _ => t == tag
  | _ => false

/-- ELASTIC_WAIT_EXPIRY (R331): an ELASTIC transaction still unsent is taken back. -/
def execElasticWaitExpiry (p : Pid) (tag : BitVec 16) (s : State) : Host.Outcome State Fault Refusal :=
  .next (s.event p 5 fun x q =>
    match q.reqOf tag with
    | none => q
    | some r =>
      let unsent := q.ports.any fun e => e.2.queue.any fun i => i.unsent tag
      if r.txn.cls = .elastic && unsent then
        let q := { q with ports := SMap.mapVals (fun _ v => { v with queue := v.queue.filter fun i => !i.unsent tag }) q.ports }
        (q.countSlot (FLX0 + 0x68) (x.egressSlot q r.txn.ctx)).finishReq x r Status.refusedBusy false []
      else q)

/-- REQUEST_TIMEOUT (R322): the tag is retired. -/
def execRequestTimeout (p : Pid) (tag : BitVec 16) (s : State) : Host.Outcome State Fault Refusal :=
  .next (s.event p 5 fun x q =>
    match q.reqOf tag with
    | none => q
    | some r =>
      let q := q.onFlx fun g => { g with retired := g.retired ++ [tag] }
      ((q.count (FLX0 + 0x74) 1).raise FLX0 4).finishReq x r Status.resetAbort false [])


/-- TXN_REQUEST_ISSUE (R312, R316, R333). -/
def execTxnRequestIssue (p : Pid) (t : Txn) (s : State) : Host.Outcome State Fault Refusal :=
  if !t.wf then .fault .illFormed
  else .next (s.event p 5 fun x q =>
    if Txn.isCpl t || !Txn.known t then q else (q.request x t .keeper).1)

end Sys2Proof.Machine
end

