-- ==== Sys2Proof/Machine/KvOps.lean ====
section
/-! DEFINITION. The cache manager: heads, images, reference counts, publication, pins, spill and prefetch
(R212 to R227). Readings and choices: log 10, 24. -/

namespace Sys2Proof.Machine

def Pte.size (e : Pte) : Nat := 2 ^ e.logSz
/-- LEN of an image: the sum of its page sizes (R214). -/
def ptesLen (l : List Pte) : Nat := l.foldl (fun n e => n + e.size) 0
/-- NREG (R214). -/
def nreg (len : Nat) : Nat := (len + mib2 - 1) / mib2

/-- The entries with their logical starts (R215). -/
def withStarts : Nat → List Pte → List (Nat × Pte)
  | _, [] => []
  | a, e :: r => (a, e) :: withStarts (a + e.size) r

/-- Directory entry `r`: the first entry whose logical start is at least r × 2 MiB (R214). -/
def dirEntry (l : List Pte) (r : Nat) : Nat :=
  ((withStarts 0 l).findIdx? fun e => r * mib2 ≤ e.1).getD l.length

/-- A page-table entry's bytes (R215). -/
def Pte.bytes (e : Pte) : List Byte :=
  bytesOf e.base 8 ++ [BitVec.ofNat 8 e.logSz,
    BitVec.ofNat 8 (1 + 2 * bit01 e.shared + 4 * bit01 e.spilled + 8 * bit01 e.resident), 0, 0] ++
    bytesOf (BitVec.ofNat 32 e.refIdx) 4

/-- An image's bytes (R214). -/
def KvImage.bytes (i : KvImage) : List Byte :=
  let len := ptesLen i.ptes
  let n := nreg len
  bytesOf i.ver 4 ++ bytesOf (BitVec.ofNat 32 i.ptes.length) 4 ++ bytesOf (BitVec.ofNat 64 len) 8 ++
    bytesOf (BitVec.ofNat 64 i.ringLen) 8 ++ bytesOf (BitVec.ofNat 32 n) 4 ++
    bytesOf (BitVec.ofNat 32 i.pins) 4 ++ List.replicate 32 0 ++
    (List.range (4 * ((n + 3) / 4))).flatMap (fun r =>
      bytesOf (BitVec.ofNat 32 (if r < n then dirEntry i.ptes r else 0)) 4) ++
    i.ptes.flatMap Pte.bytes

/-- Pool space of an image, in whole 4 KiB units (R214, R249). -/
def imageSpace (l : List Pte) : Nat := (64 + 16 * ((nreg (ptesLen l) + 3) / 4) + 16 * l.length + 4095) / 4096 * 4096

/-- A head's bytes (R213). -/
def headBytes (cur : W64) (ver : W32) (st : Nat) (ctx : BitVec 16) : List Byte :=
  bytesOf cur 8 ++ bytesOf ver 4 ++ [BitVec.ofNat 8 st, 0] ++ bytesOf ctx 2 ++ List.replicate 48 0

def Mem.image? (m : Mem) (a : Nat) : Option KvImage := m.images.find? fun i => i.addr == a
def Mem.setImage (m : Mem) (v : KvImage) : Mem :=
  { m with images := m.images.map fun i => if i.addr = v.addr then v else i }
/-- A head's current image. -/
def Mem.current? (m : Mem) (k : Nat) : Option KvImage := (SMap.find? m.heads k).bind fun h => m.image? h.cur

/-- The Spillway's words in memory follow its tables: a head (R213). -/
def Polder.writeHead (p : Polder) (x : PolCtx) (k : Nat) : Polder :=
  match SMap.find? p.mem.heads k with
  | none => p.onMem fun m => m.putRaw 1 (k + 12) [some 0]
  | some h => p.onMem fun m => m.putRaw 1 k
      ((headBytes (x.ga p 1 h.cur) h.ver (if h.st = .live then 1 else 2) h.ctx).map some)

/-- The PINS word of an image (R214). -/
def Polder.writePins (p : Polder) (i : KvImage) : Polder :=
  p.onMem fun m => m.putRaw 1 (i.addr + 28) ((bytesOf (BitVec.ofNat 32 i.pins) 4).map some)

/-- The base of the reference-count array in tier 1 (R217). -/
def Polder.refBase (p : Polder) : Nat := gaOff (p.pair (SPWKV + 0x6C))

/-- A reference-count entry changes, here and in memory; none frees it (R217). -/
def Polder.setRef (p : Polder) (i : Nat) (r : Option KvRef) : Polder :=
  let v : W64 := match r with
    | some r => r.lastTide ++ BitVec.ofNat 32 r.count
    | none => 0
  p.onMem fun m =>
    ({ m with refs := match r with
      | some r => SMap.insert m.refs i r
      | none => SMap.erase m.refs i }).putRaw 1 (p.refBase + 8 * i) ((bytesOf v 8).map some)

/-- An image counts its pages (R217). -/
def Polder.countUp (p : Polder) (l : List Pte) : Polder :=
  l.foldl (fun p e =>
    match SMap.find? p.mem.refs e.refIdx with
    | some r => p.setRef e.refIdx (some { r with count := r.count + 1 })
    | none => p) p

/-- A page's count falls; at zero the page and its entry are reclaimed. Below zero raises REF_UNDERFLOW
(R217). The answer says whether it was well. -/
def Polder.countDown (p : Polder) (e : Pte) : Polder × Bool :=
  match SMap.find? p.mem.refs e.refIdx with
  | none => (p.raise SPWKV 4, false)
  | some r =>
    if r.count = 0 then (p.raise SPWKV 4, false)
    else if r.count = 1 then
      (((p.setRef e.refIdx none).onMem fun m => m.release r.tier r.page).count (SPWKV + 0x8C) 1, true)
    else (p.setRef e.refIdx (some { r with count := r.count - 1 }), true)

/-- Old copies that no image names any more are freed (R224). -/
def Polder.sweepCopies (p : Polder) : Polder :=
  let named := fun q : Nat × Nat => p.mem.images.any fun i => i.ptes.any fun e =>
    gaTier e.base == q.1 && gaOff e.base == q.2
  p.onMem fun m =>
    let m' := (m.oldCopies.filter fun q => !named q).foldl (fun m q => m.release q.1 q.2) m
    { m' with oldCopies := m.oldCopies.filter named }

/-- An image is reclaimed (R219): whether no count fell below zero. -/
def Polder.reclaim (p : Polder) (i : KvImage) : Polder × Bool :=
  let q := i.ptes.foldl (fun (q : Polder × Bool) e =>
    let r := q.1.countDown e
    (r.1, q.2 && r.2)) (p, true)
  ((q.1.onMem fun m => { (m.release 1 i.addr) with images := m.images.filter fun j => j.addr != i.addr }).sweepCopies,
    q.2)

/-- Reclaim a superseded image that nothing pins (R219). -/
def Polder.retire (p : Polder) (a : Nat) : Polder × Bool :=
  match p.mem.image? a with
  | none => (p, true)
  | some i =>
    let p := p.onMem fun m => m.setImage { i with current := false }
    if i.pins = 0 then p.reclaim i else (p, true)

/-- A DESTROYING head becomes INVALID when no image of it is pinned (R218). -/
def Polder.endHead (p : Polder) (x : PolCtx) (k : Nat) : Polder :=
  match SMap.find? p.mem.heads k with
  | none => p
  | some h =>
    if h.st = .destroying && !(p.mem.images.any fun i => i.head == k && i.pins != 0) then
      let p := (p.retire h.cur).1
      (p.onMem fun m => { m with heads := SMap.erase m.heads k }).writeHead x k
    else p

/-- A page, image or entry of the context cannot be had: the polder as it is then, and the code. -/
abbrev KvTry (α : Type) := Except (Polder × Status) α

/-- Cache pages of tier 1 the Spillway may spill for a context: held by some current image, RESIDENT in
none (R224). -/
def Mem.eligible (m : Mem) (ctx : BitVec 16) : List (Nat × KvRef) :=
  m.refs.filter fun r => r.2.tier == 1 && r.2.ctx == ctx &&
    (m.images.any fun i => i.current && i.ptes.any fun e => e.refIdx == r.1) &&
    !(m.images.any fun i => i.current && i.ptes.any fun e => e.refIdx == r.1 && e.resident)

/-- The page with the oldest LAST_TIDE, of equal ages the lower REFIDX (R224). -/
def oldestPage (l : List (Nat × KvRef)) : Option (Nat × KvRef) :=
  l.foldl (fun m r => some (match m with
    | none => r
    | some b => if r.2.lastTide.toNat < b.2.lastTide.toNat then r else b)) none

/-- The heads whose current image holds a page. -/
def Mem.holders (m : Mem) (ref : Nat) : List Nat :=
  m.images.filterMap fun i => if i.current && i.ptes.any (fun e => e.refIdx == ref) then some i.head else none

/-- A new image of a head takes its place in memory at `a` (R219): the head's VER advances, wrapping from
0xFFFF_FFFF to 1 (R213), and the superseded image is retired. The answer says whether counts were well. -/
def Polder.placeImage (p : Polder) (x : PolCtx) (k a : Nat) (h : KvHead) (ring : Nat) (ptes : List Pte) (first : Bool) :
    Polder × Bool :=
  let ver : W32 := if first then 1 else if h.ver = 0xFFFFFFFF then 1 else h.ver + 1
  let i : KvImage := { addr := a, head := k, ver := ver, ringLen := ring, ptes := ptes, pins := 0, current := true }
  let p := p.countUp ptes
  let p := p.onMem fun m =>
    ({ m with
      images := m.images ++ [i]
      heads := SMap.insert m.heads k { h with cur := a, ver := ver } }).putRaw 1 a (i.bytes.map some)
  let p := p.writeHead x k
  if first then (p, true) else p.retire h.cur

/-- A page of the context is moved between tiers: its data is copied and every head that holds it
publishes an image with the new BASE (R224, R225). `room` gives the space of each new image. -/
def Polder.movePage (p : Polder) (x : PolCtx) (ref tier base : Nat) (data : List Byte)
    (room : Polder → BitVec 16 → Nat → KvTry (Polder × Nat)) : KvTry Polder := do
  match SMap.find? p.mem.refs ref with
  | none => pure p
  | some r =>
    let q := if tier = 3 then p.sendHost base (data.map some)
      else p.onMem fun m => m.putRaw tier base (data.map some)
    let q := q.setRef ref (some { r with tier := tier, page := base })
    let q := q.onMem fun m => { m with oldCopies := m.oldCopies ++ [(r.tier, r.page)] }
    (q.mem.holders ref).foldlM (fun q k => do
      match SMap.find? q.mem.heads k, q.mem.current? k with
      | some h, some i =>
        let f := fun (e : Pte) => if e.refIdx = ref then
          { e with base := x.ga q tier base, spilled := tier != 1 } else e
        let (q, a) ← room q h.ctx (imageSpace i.ptes)
        pure (q.placeImage x k a h i.ringLen (i.ptes.map f) false).1
      | _, _ => pure q) q

/-- Space for a republished image while room is being made: no further spill (R224). -/
def imageRoom (x : PolCtx) (p : Polder) (ctx : BitVec 16) (size : Nat) : KvTry (Polder × Nat) :=
  match p.alloc x 1 ctx size 4096 with
  | (p, .ok a) => .ok (p, a)
  | (p, _) => .error (p, Status.refusedQuota)

/-- The Spillway spills the context's oldest page, where SPILL_EN allows it, and journals the choice
(R224, R420). None when no page can be spilled. -/
def Polder.spillPage (p : Polder) (x : PolCtx) (ctx : BitVec 16) : Option (KvTry Polder) :=
  if !(x.cfg p (GAU + 0x40)).getLsbD 4 then none
  else match oldestPage (p.mem.eligible ctx) with
    | none => none
    | some (ref, r) =>
      let t := bitsN (p.rd (SPWKV + 0x94)) 0 2
      match p.alloc x t ctx r.size r.size with
      | (q, .ok a) =>
        let d := q.fetchData x (blockBy0 ctx) 1 r.page r.size
        if d.st ≠ Status.done then some (.error (d.p, d.st))
        else match d.p.movePage x ref t a d.data (imageRoom x) with
          | .error _ => none
          | .ok q =>
            let q := (q.sweepCopies.count (SPWKV + 0x80) 1).raise SPWKV 2
            some (.ok (q.post x 5 1 ctx.toNat
              (BitVec.ofNat 32 ((p.tide % 2 ^ 32 + 2 ^ 32 - r.lastTide.toNat) % 2 ^ 32) ++ BitVec.ofNat 32 ref)))
      | _ => none
where
  /-- The Spillway's own reads. -/
  blockBy0 (ctx : BitVec 16) : MemBy := ⟨2, 0, ctx, false, true⟩

/-- An allocation that may free space of its context first: cache pages, then frames (R224, R250). -/
def Polder.needRoom (x : PolCtx) : Nat → Polder → Nat → BitVec 16 → Nat → Nat → KvTry (Polder × Nat)
  | 0, p, tier, ctx, _, _ => .error (p.refuse (x.quotaSlot p ctx) tier false, Status.refusedQuota)
  | n + 1, p, tier, ctx, size, align =>
    match p.alloc x tier ctx size align with
    | (p, .ok a) => .ok (p, a)
    | (p, .busy) => .error (p.refuse (x.quotaSlot p ctx) tier true, Status.refusedBusy)
    | (p, .overCeil) =>
      let no : KvTry (Polder × Nat) := .error (p.refuse (x.quotaSlot p ctx) tier false, Status.refusedQuota)
      if tier ≠ 1 then no
      else match p.spillPage x ctx with
        | some (.ok q) => Polder.needRoom x n q tier ctx size align
        | some (.error e) => .error e
        | none =>
          match p.evictFrame x ctx with
          | some q => Polder.needRoom x n q tier ctx size align
          | none => no

/-- Room for a page or an image of a context. -/
def Polder.room (p : Polder) (x : PolCtx) (tier : Nat) (ctx : BitVec 16) (size align : Nat) : KvTry (Polder × Nat) :=
  Polder.needRoom x (p.mem.refs.length + p.mem.frames.length + 1) p tier ctx size align

/-- Publish a head's next image: `f` makes its entries from the current ones (R219). A count that would
pass 0xFF_FFFF refuses it (R217). -/
def Polder.publish (p : Polder) (x : PolCtx) (k : Nat) (f : List Pte → List Pte) : KvTry Polder := do
  match SMap.find? p.mem.heads k, p.mem.current? k with
  | some h0, some i0 =>
    let (p, a) ← p.room x 1 h0.ctx (imageSpace (f i0.ptes)) 4096
    match SMap.find? p.mem.heads k, p.mem.current? k with
    | some h, some i =>
      let l := f i.ptes
      if l.any fun e => match SMap.find? p.mem.refs e.refIdx with
        | some r => 0xFFFFFF ≤ r.count
        | none => false then .error (p.onMem fun m => m.release 1 a, Status.refusedQuota)
      else if 65536 < l.length then .error (p.onMem fun m => m.release 1 a, Status.refusedQuota)
      else
        let q := p.placeImage x k a h i.ringLen l false
        if q.2 then pure q.1 else .error (q.1, Status.internal)
    | _, _ => .error (p, Status.internal)
  | _, _ => .error (p, Status.internal)

/-- A free entry of the reference-count array, the lowest (R217; the order is the model's, log 10). -/
def Polder.freeRef (p : Polder) : Option Nat :=
  let used := p.mem.refs.map (·.1)
  ((List.range (used.length + 1)).find? fun i => !used.contains i).filter fun i =>
    i < bitsN (p.rd (SPWKV + 0x74)) 0 24

/-- The data of a cache page: from tier 1 or 2, or as it came back from tier 3 (R224, R225). -/
def Polder.pageData (p : Polder) (x : PolCtx) (ref : Nat) : KvTry (Polder × List Byte) :=
  match SMap.find? p.mem.refs ref with
  | none => .error (p, Status.internal)
  | some r =>
    if r.tier = 3 then
      match p.mem.staged.find? fun s => s.ref == ref with
      | some s => if s.code = Status.done then .ok (p, s.data) else .error (p, s.code)
      | none => .error (p, Status.internal)
    else
      let d := p.fetchData x ⟨2, 0, r.ctx, false, true⟩ r.tier r.page r.size
      if d.st = Status.done then .ok (d.p, d.data) else .error (d.p, d.st)

/-- Pages of tier 3 among these that have not come back in full yet. -/
def Mem.awaited (m : Mem) (refs : List Nat) : List Nat :=
  refs.filter fun i => match SMap.find? m.refs i with
    | some r => r.tier == 3 && !(m.staged.any fun s => s.ref == i && (s.code != Status.done || s.data.length == r.size))
    | none => false

/-- The bridge reads a page of tier 3 back, 4 KiB at a time (R224, R225). -/
def Polder.readBack (p : Polder) (ref : Nat) : Polder :=
  match SMap.find? p.mem.refs ref with
  | none => p
  | some r =>
    if p.mem.staged.any fun s => s.ref == ref then p
    else p.onMem fun m => { m with
      staged := m.staged ++ [⟨ref, Status.done, []⟩]
      tier3 := m.tier3 ++ [⟨r.page, 4096, .page ref, false, [], [], 0⟩] }

/-- A SPILLED page comes back to tier 1, LAST_TIDE becomes now, and SPW_KV_PREFETCH counts it (R225). -/
def Polder.bringBack (p : Polder) (x : PolCtx) (ref : Nat) : KvTry Polder := do
  match SMap.find? p.mem.refs ref with
  | none => pure p
  | some r =>
    if r.tier = 1 then pure p
    else
      let (p, a) ← p.room x 1 r.ctx r.size r.size
      let (p, d) ← p.pageData x ref
      let p := p.setRef ref (some { r with lastTide := BitVec.ofNat 32 p.tide })
      let p ← p.movePage x ref 1 a d fun p ctx n => p.room x 1 ctx n 4096
      pure ((p.sweepCopies.onMem fun m => { m with staged := m.staged.filter fun s => s.ref != ref }).count
        (SPWKV + 0x84) 1)

/-- An entry overlaps a logical range; on a ring the range wraps (R216, R222). -/
def entryIn (ring start size lo hi : Nat) : Bool :=
  if ring = 0 then start < hi && lo < start + size
  else if ring ≤ hi - lo then decide (lo < hi)
  else
    let a := lo % ring
    let b := a + (hi - lo)
    (start < b && a < start + size) || (start + ring < b && a < start + ring + size)

/-- The REFIDX of the entries of an image that overlap a range and pass, in logical order. -/
def KvImage.inRange (i : KvImage) (lo hi : Nat) (f : Pte → Bool) : List Nat :=
  (withStarts 0 i.ptes).filterMap fun e =>
    if entryIn i.ringLen e.1 e.2.size lo hi && f e.2 then some e.2.refIdx else none

/-- A walk pins the image current now, and a prefetch starts (R220, R225). -/
def Polder.pin (p : Polder) (k aux : Nat) : Option (Polder × Nat) :=
  match SMap.find? p.mem.heads k, p.mem.current? k with
  | some h, some i =>
    if h.st ≠ .live then none
    else
      let i := { i with pins := i.pins + 1 }
      let p := (p.onMem fun m => m.setImage i).writePins i
      let l := i.inRange aux (aux + 4096 * (p.rd (SPWKV + 0x90)).toNat) (·.spilled)
      let p := if l.isEmpty then p else p.onMem fun m => { m with prefetch := m.prefetch ++ [⟨k, l⟩] }
      let p := (l.filter fun r => match SMap.find? p.mem.refs r with
        | some e => e.tier == 3
        | none => false).foldl Polder.readBack p
      some (p, i.addr)
  | _, _ => none

/-- A pin is released; an unpinned superseded image is reclaimed (R219, R220). -/
def Polder.unpin (p : Polder) (x : PolCtx) (a : Nat) : Polder :=
  match p.mem.image? a with
  | none => p
  | some i =>
    let i := { i with pins := i.pins - 1 }
    let p := (p.onMem fun m => m.setImage i).writePins i
    let p := if i.pins = 0 && !i.current then (p.reclaim i).1 else p
    p.endHead x i.head

end Sys2Proof.Machine
end

