-- ==== Sys2Proof/Machine/Issue.lean ====
section
/-! DEFINITION. The issue unit: the record and the variant table, accumulator and region demand, setup, start
and completion (R126 to R148). Readings and choices: log 18, 25. -/

namespace Sys2Proof.Machine

/-- Word `k` of a record (R138). -/
def recWord (ws : List W32) (k : Nat) : W32 := (ws[k]?).getD 0

/-- The loops of the scratchpad, HBM and LPDDR5X level (0, 1, 2) of an order, outer to inner: 0 m, 1 n,
2 k; OUTPUT_INNER means n, k, m (R131, R132). -/
def levelLoops (order : W32) (lv : Nat) : List Nat :=
  if bitsN order 0 2 = 0 then [1, 2, 0]
  else [bitsN order (12 + 8 * lv) 2, bitsN order (10 + 8 * lv) 2, bitsN order (8 + 8 * lv) 2]

/-- The loop sequence with its trip counts, LPDDR5X level first (R131). -/
def loopSeq (order : W32) (trips : List (List Nat)) : List (Nat × Nat) :=
  [2, 1, 0].flatMap fun lv => (levelLoops order lv).map fun d =>
    (d, (((trips[lv]?).getD [])[d]?).getD 0)

/-- The loop-order word is well formed (R131, R132). -/
def orderOk (order : W32) : Bool :=
  if bitsN order 0 2 = 0 then order = 0
  else bitsN order 0 2 == 1 && order &&& 0xC0C0C0FC#32 == 0 &&
    [0, 1, 2].all fun lv => [0, 1, 2].all fun d => (levelLoops order lv).contains d

/-- The live tile count (R135). -/
def liveTiles (order : W32) (trips : List (List Nat)) : Nat :=
  match (loopSeq order trips).dropWhile fun l => !(l.1 == 2 && 2 ≤ l.2) with
  | [] => 1
  | _ :: r => r.foldl (fun n l => if l.1 = 2 then n else n * l.2) 1

/-- The footprint of the operand that does not depend on dimension `d` (R136). -/
def footprint (order : W32) (sp : List Nat) (d : Nat) : Nat :=
  match (levelLoops order 0).dropWhile fun l => !(l == d && 2 ≤ (sp[l]?).getD 0) with
  | [] => 1
  | _ :: r => r.foldl (fun n l => if l = d then n else n * (sp[l]?).getD 0) 1

/-- Block bytes of A and B in an MMA mode (R37). -/
def modeBlocks (mode : Nat) : Nat × Nat :=
  match mode with
  | 0 => (32, 32) | 1 | 2 => (64, 64) | 3 => (128, 64) | 4 => (64, 128) | _ => (128, 128)

/-- Bytes per element of OFMT (R33). -/
def ofmtBytes (f : Nat) : Nat := if f = 0 then 4 else if f ≤ 2 then 2 else 1

/-- A region of the record: base, size in bytes, depth, CLR (R138). -/
structure IssRegion where
  base : Nat
  size : Nat
  depth : Nat
  clr : Bool
  deriving DecidableEq, Repr

def issRegion (ws : List W32) (r : Nat) : IssRegion :=
  let a := recWord ws (8 + 2 * r)
  let b := recWord ws (9 + 2 * r)
  ⟨bitsN a 0 16, 16 * bitsN a 16 16, bitsN b 0 4, b.getLsbD 4⟩

/-- A region's declaration is well formed (R137, R138); AUX's DEPTH is ignored. -/
def issRegionOk (ws : List W32) (r : Nat) : Bool :=
  let g := issRegion ws r
  let al := match r with
    | 0 => (modeBlocks (bitsN (recWord ws 2) 0 4)).1
    | 1 => (modeBlocks (bitsN (recWord ws 2) 0 4)).2
    | _ => 16
  bitsN (recWord ws (9 + 2 * r)) 5 27 == 0 &&
  (if g.size = 0 then g.base == 0 && !g.clr && (r == 3 || g.depth == 0)
  else g.base + g.size ≤ 0x10000 && g.base % al == 0 && (r == 3 || g.depth != 0) &&
    (!g.clr || (g.base % 128 == 0 && g.size % 128 == 0)))

/-- Check 1: the record is well formed (R138). -/
def recordOk (ws : List W32) : Bool :=
  let w2 := recWord ws 2
  !Rect.malformed (recWord ws 0) && orderOk (recWord ws 1) && bitsN w2 0 4 ≤ 6 && bitsN w2 4 4 ≤ 4 &&
  bitsN w2 8 2 ≤ 3 && bitsN w2 16 4 ≤ 8 && bitsN w2 20 12 == 0 && (recWord ws 3).toNat % 16 == 0 &&
  bitsN (recWord ws 7) 16 16 == 0 && [0, 1, 2, 3].all (issRegionOk ws)

/-- The run-time extent of dimension `d` (R138). -/
def extentOf (ws : List W32) (d : Nat) : Nat :=
  match d with
  | 0 => bitsN (recWord ws 6) 0 16
  | 1 => bitsN (recWord ws 6) 16 16
  | _ => bitsN (recWord ws 7) 0 16

/-- The bucket sizes of a dimension in a table header; none where the header is malformed (R139). -/
def buckets (h : List Byte) (ndyn d : Nat) : Option (List Nat) :=
  let cnt := ((h[48 + d]?).getD 0).toNat
  let sz := (List.range 8).map fun i => natOfBytes ((h.drop (16 * d + 2 * i)).take 2)
  let head := sz.take cnt
  if (if d < ndyn then 1 ≤ cnt && cnt ≤ 8 else cnt == 0) &&
      head.all (· != 0) && (head.zip (head.drop 1)).all (fun q => decide (q.1 < q.2)) &&
      (sz.drop cnt).all (· == 0) then some head
  else none

/-- The bucket index of each dimension: the smallest bucket that holds the extent (R142). -/
def bucketIdx (ws : List W32) (bk : List (List Nat)) (d : Nat) : Option Nat :=
  if d < bitsN (recWord ws 2) 8 2 then ((bk[d]?).getD []).findIdx? fun s => extentOf ws d ≤ s else some 0

/-- What a valid entry of the variant table says (R139): start PC and the trip counts by level. -/
structure Variant where
  pc : BitVec 10
  trips : List (List Nat)
  deriving DecidableEq, Repr

/-- An entry with VALID = 1, if it is well formed (R130, R132, R139). -/
def variantOf (ws : List W32) (e : List Byte) : Option Variant :=
  let half := fun i => natOfBytes ((e.drop i).take 2)
  let byte := fun i => ((e[i]?).getD 0).toNat
  let ext := [half 2, half 4, half 6]
  let hbm := [byte 8, byte 9, byte 10]
  let lp := [byte 11, byte 12, byte 13]
  let mode := bitsN (recWord ws 2) 0 4
  if half 0 / 1024 % 32 == 0 && half 14 == 0 && ext.all (fun x => x != 0 && x % 8 == 0) &&
      ((mode != 0 && mode != 2) || half 6 % 32 == 0) && hbm.all (· != 0) && lp.all (· != 0) &&
      (bitsN (recWord ws 1) 0 2 != 0 || (byte 8 == 1 && byte 11 == 1)) then
    some ⟨BitVec.ofNat 10 (half 0), [ext.map (· / 8), hbm, lp]⟩
  else none

/-- The accumulator demand (R135). -/
def accDemand (ws : List W32) (v : Variant) : Nat :=
  bitsN (recWord ws 2) 10 6 + liveTiles (recWord ws 1) v.trips + bitsN (recWord ws 2) 16 4

/-- The bytes a region needs at a depth (R136). -/
def regionNeed (ws : List W32) (v : Variant) (r depth : Nat) : Nat :=
  let mode := bitsN (recWord ws 2) 0 4
  let s := if mode = 0 || mode = 2 then 2 else 0
  let sp := (v.trips[0]?).getD []
  match r with
  | 0 => footprint (recWord ws 1) sp 1 * ((modeBlocks mode).1 + s) * depth
  | 1 => footprint (recWord ws 1) sp 0 * ((modeBlocks mode).2 + s) * depth
  | 2 => liveTiles (recWord ws 1) v.trips * 64 * ofmtBytes (bitsN (recWord ws 2) 4 4) * depth
  | _ => 0

/-- Check 6: the region that fails, with its required bytes (R137, R148). -/
def regionFail (ws : List W32) (v : Variant) : Option (Nat × Nat) :=
  let size := [0, 1, 2, 3].findSome? fun r =>
    let g := issRegion ws r
    if g.size = 0 then (if r < 2 then some (r, regionNeed ws v r 1) else none)
    else if g.size < regionNeed ws v r g.depth then some (r, regionNeed ws v r g.depth) else none
  match size with
  | some q => some q
  | none => [1, 2, 3].findSome? fun r =>
    let g := issRegion ws r
    if g.size ≠ 0 && (List.range r).any (fun q =>
        let h := issRegion ws q
        h.size != 0 && g.base < h.base + h.size && h.base < g.base + g.size) then
      some (r, regionNeed ws v r g.depth)
    else none

/-- GRD_ISSUE_DEMAND (R148). -/
def demandWord (acc region need : Nat) : W32 :=
  fld 0 (satAdd 8 acc 0) ||| fld 8 region ||| fld 16 (satAdd 16 ((need + 15) / 16) 0)

/-- A dynamic extent is zero (R144). -/
def zeroExtent (ws : List W32) : Bool :=
  (List.range (bitsN (recWord ws 2) 8 2)).any fun d => extentOf ws d == 0

/-- The regions whose valid bits setup clears: base and bytes (R144, R145). -/
def clearedRegions (ws : List W32) : List (Nat × Nat) :=
  [0, 1, 2, 3].filterMap fun r =>
    let g := issRegion ws r
    if g.size ≠ 0 && (g.clr || (r == 2 && zeroExtent ws)) then some (g.base, g.size) else none

/-- The setup time (R145). -/
def setupCycles (ws : List W32) : Nat :=
  16 + (clearedRegions ws).foldl (fun n g => n + (g.2 + 127) / 128) 0

/-- The first tide that is a multiple of 16 and begins at a cycle or later (R145). -/
def tide16 (cycle : Nat) : Nat := (cycle + 1023) / 1024 * 16

/-- Valid bits of 16-byte units are cleared, and gather-buffer entries inside go (R50, R145). -/
def Cell.clearUnits (c : Cell) (base size : Nat) : Cell :=
  let out := fun u => !(decide (base / 16 ≤ u) && decide (u < (base + size + 15) / 16))
  { c with
    spad := SMap.keep out c.spad
    upset := SMap.keep (fun k => out k || decide (4096 ≤ k)) c.upset
    gather := c.gather.filter fun e => out e.unit }

/-- The setup of one cell (R143 to R145). -/
def Cell.setUp (c : Cell) (ws : List W32) (pc : BitVec 10) : Cell :=
  let c := (List.range 3).foldl (fun c d => c.wr (0x50 + 4 * d) (BitVec.ofNat 32 (extentOf ws d))) c
  let c := { c.wr 0x40 (pc.setWidth 32) with shadow := zeroExtent ws }
  (clearedRegions ws).foldl (fun c g => c.clearUnits g.1 g.2) c

/-- Change every cell of a rectangle. -/
def Polder.onCells (p : Polder) (r : Rect) (f : Cell → Cell) : Polder :=
  r.keys.foldl (fun p k => p.setCell k (f (p.cell k))) p

/-- The rectangle an issue runs on (R138). -/
def Issue.rect (i : Issue) : Rect := recWord i.words 0

/-- An engine's binding (R182, R203). -/
def Polder.bindOf (p : Polder) (e : Nat) : Rect := p.rd (ENGP e + 0x54)

def Polder.eng (p : Polder) (e : Nat) : Eng := SMap.get (fun _ => Eng.reset) p.engines e
def Polder.setEng (p : Polder) (e : Nat) (v : Eng) : Polder :=
  { p with engines := SMap.set (fun _ => Eng.reset) p.engines e v }

/-- The engines bound to a rectangle, among those that are not at reset. -/
def Polder.boundTo (p : Polder) (r : Rect) : List Nat :=
  p.engines.filterMap fun e => if p.bindOf e.1 = r then some e.1 else none

/-- Buffer bytes that no request and no datum takes (R184). -/
def Eng.space (v : Eng) : Nat :=
  0x40000 - v.buf.foldl (fun n c => n + c.data.length) 0 - v.reqs.foldl (fun n q => n + q.out) 0

/-- An engine's plot has completed (R182). -/
def Polder.endEngine (x : PolCtx) (p : Polder) (e : Nat) : Polder :=
  let v := p.eng e
  if v.st ≠ .running then p
  else
    let stay := v.descs.filter fun d => d.pos = .executing
    let n := v.descs.length - stay.length
    let v := { v with ending := true, rep := none, discarded := satAdd 8 v.discarded n, holdReq := false }
    let v := if e % 16 < 8 then { v with descs := [], buf := [] } else { v with descs := stay }
    let gone := (p.eng e).descs.filterMap fun d => if v.descs.contains d then none else d.pin
    let p := gone.foldl (fun p a => p.unpin x a) (p.setEng e { v with free := v.space })
    (if n = 0 then p else p.raise (ENGP e) 6).updateHold

/-- A plot has completed: the engines bound to it end (R146, R171, R182). -/
def Polder.plotEnded (p : Polder) (x : PolCtx) (r : Rect) : Polder := (p.boundTo r).foldl (Polder.endEngine x) p

/-- An issue ends: its code, its check and its status word (R140, R146, R148). -/
def Polder.finishIssue (p : Polder) (x : PolCtx) (i : Issue) (code : Status) (check : Nat) : Polder :=
  let started := i.phase = .running
  let p := p.onGrid fun g => { g with issues := g.issues.erase i }
  let p := if i.origin.isReg then
      p.wr (GRD + 0x88) (fld 0 code.toNat ||| fld 8 check ||| fld 11 (bit01 (i.zero && started)) ||| fld 16 i.variant)
    else p
  let p := if check = 0 then p else p.raise GRD 12
  let p := (p.raise GRD 11).endCmd i.origin code false 0
  if started then p.plotEnded x i.rect else p

/-- Accepted issues that have not started, a pipeline start among them (R147, R170). -/
def Polder.acceptedIssues (p : Polder) : Nat :=
  (p.grid.issues.filter fun i => i.phase = .pending).length + (match p.grid.pipe with
    | some r => bit01 (r.phase = .pending)
    | none => 0)

/-- Check 2: what the plot's state answers (R140, R147). -/
def Polder.plotState (p : Polder) (r : Rect) : Option Status :=
  if p.grid.cells.any fun e => r.hasKey e.1 && e.2.st = .faulted then some Status.internal
  else if !p.drained r || ((p.grid.recfg.busy || p.grid.recfg.opened) && p.grid.recfg.rect.overlaps r) ||
      8 ≤ p.acceptedIssues || p.issueAhead r then
    some Status.refusedBusy
  else none

/-- Checks 1 and 2 of an issue at the head of the unit; one that passes reads its variant table (R140). -/
def Polder.beginIssue (p : Polder) (x : PolCtx) (i : Issue) : Polder :=
  if !recordOk i.words then p.finishIssue x i Status.internal 1
  else match p.plotState i.rect with
    | some st => p.finishIssue x i st 2
    | none => p.onGrid fun g => { g with
        issues := g.issues.map fun j => if j = i then { j with phase := .reading } else j }

/-- The unit takes the next waiting issue while it reads no table (R138). -/
def Polder.nextIssue (x : PolCtx) : Nat → Polder → Polder
  | 0, p => p
  | n + 1, p =>
    if p.grid.issues.any fun i => i.phase = .reading then p
    else match p.grid.issues.find? fun i => i.phase = .waiting with
      | none => p
      | some i => Polder.nextIssue x n (p.beginIssue x i)

/-- An issue reaches the unit, by either path (R138, R140); a pending commit holds it (R443). -/
def Polder.submitIssue (p : Polder) (x : PolCtx) (ws : List W32) (o : Origin) : Polder :=
  if x.mod.commit.isSome && p.wdn.st = .running then { p with held := p.held ++ [.issue ws o] }
  else
    let i : Issue :=
      { words := ws, origin := o, phase := .waiting, variant := 0, startPc := 0, zero := false
        ready := 0, startTide := 0, fail := none }
    Polder.nextIssue x (p.grid.issues.length + 1) (p.onGrid fun g => { g with issues := g.issues ++ [i] })

/-- The register path's issue is being checked, pending or running (R148). -/
def Polder.issueBusy (p : Polder) : Bool :=
  (p.grid.issues.any fun i => i.origin.isReg) || p.held.any fun h => match h with
    | .issue _ o => o.isReg
    | _ => false

/-- The record in GRD_ISSUE_REC0 to 15 (R138). -/
def Polder.issueRec (p : Polder) : List W32 := (List.range 16).map fun k => p.rd (GRD + 0xC0 + 4 * k)

/-- ISSUE_GO (R138, R147). -/
def execIssueGo (p : Pid) (w : Who) (s : State) : Host.Outcome State Fault Refusal :=
  .next (s.writePage p (GRD + 0x84) w fun x q =>
    if q.issueBusy then q else q.submitIssue x q.issueRec (.reg w.ctx))

/-- The requester of a read that a block of the polder makes for a context (R251, R509). -/
def blockBy (ctx : BitVec 16) : MemBy := ⟨2, 0, ctx, false, false⟩

/-- Checks 5 to 7 and setup (R135, R137, R143 to R145). -/
def Polder.acceptIssue (p : Polder) (x : PolCtx) (i : Issue) (v : Variant) : Polder :=
  let acc := accDemand i.words v
  let p := p.wr (GRD + 0x8C) (demandWord acc 0 0)
  if 64 < acc then p.finishIssue x i Status.accOvercommit 5
  else match regionFail i.words v with
    | some (r, need) => (p.wr (GRD + 0x8C) (demandWord acc r need)).finishIssue x i Status.bufferOvercommit 6
    | none =>
      let ready := p.cycle + setupCycles i.words
      let named := (recWord i.words 3).toNat
      if named ≠ 0 && 64 * named < ready then p.finishIssue x i Status.steerLate 7
      else
        let i' := { i with
          phase := .pending, startPc := v.pc, zero := zeroExtent i.words, ready := ready
          startTide := if named = 0 then tide16 ready else named }
        let p := p.onCells i.rect fun c => c.setUp i.words v.pc
        p.onGrid fun g => { g with issues := g.issues.map fun j => if j = i then i' else j }

/-- Checks 3 to 7 (R139, R140, R142). -/
def Polder.checkIssue (p : Polder) (x : PolCtx) (i : Issue) : Polder :=
  let vtab : W64 := recWord i.words 5 ++ recWord i.words 4
  let t := gaTier vtab
  let by_ := blockBy i.origin.ctx
  if !(vtab.toNat % 64 == 0 && (t == 1 || t == 2) && x.isOwn p vtab) then
    p.finishIssue x i Status.addressInvalid 3
  else
    let h := p.memRead x by_ t (gaOff vtab) 64
    if h.st ≠ Status.done then h.p.finishIssue x i h.st 3
    else
      let bk := (List.range 3).map (buckets h.data (bitsN (recWord i.words 2) 8 2))
      if (bk.any Option.isNone) || (h.data.drop 51).any (· != 0) then h.p.finishIssue x i Status.internal 3
      else
        let bk := bk.map fun b => b.getD []
        match bucketIdx i.words bk 0, bucketIdx i.words bk 1, bucketIdx i.words bk 2 with
        | some b0, some b1, some b2 =>
          let n := b0 + 8 * b1 + 64 * b2
          let e := h.p.memRead x by_ t (gaOff vtab + 64 + 16 * n) 16
          let i' := { i with variant := n }
          let p := e.p.onGrid fun g => { g with issues := g.issues.map fun j => if j = i then i' else j }
          if e.st ≠ Status.done then p.finishIssue x i' e.st 3
          else if ((e.data[1]?).getD 0).toNat < 128 then p.finishIssue x i' Status.shapeExceedsBucket 4
          else match variantOf i.words e.data with
            | none => p.finishIssue x i' Status.internal 3
            | some v => p.acceptIssue x i' v
        | _, _, _ => h.p.finishIssue x i Status.shapeExceedsBucket 4

/-- VARIANT_TABLE_READ_DONE (R140): the reads of the issue at the head of the unit have completed. -/
def execVariantTableReadDone (p : Pid) (s : State) : Host.Outcome State Fault Refusal :=
  .next (s.event p 5 fun x q =>
    match q.grid.issues.find? fun i => i.phase = .reading with
    | none => q
    | some i => Polder.nextIssue x (q.grid.issues.length + 1) (q.checkIssue x i))

/-- The polder starts plots (R145, R399). -/
def Polder.mayStart (p : Polder) : Bool := p.wdn.st = .running || p.wdn.st = .probing

/-- STATUS.SCALES_BUSY of the Gauge (R416). -/
def Polder.scalesBusy (p : Polder) : Bool := !p.gauge.writes.isEmpty

/-- Of the engines bound to a rectangle, the first that has faulted (R384). -/
def Polder.faultedEngine (p : Polder) (r : Rect) : Option Nat :=
  (p.boundTo r).find? fun e => (p.eng e).st = .faulted

/-- The code a page's ERR_CODE holds. -/
def Polder.errOf (p : Polder) (page : Nat) : Status := bits (p.rd (page + 0x24)) 0 8

/-- Fields of a descriptor (R178). -/
def Desc.type (d : Desc) : Nat := bitsN d.bits 0 4
def Desc.circ (d : Desc) : Nat := bitsN d.bits 16 3
def Desc.len (d : Desc) : Nat := bitsN d.bits 128 32
def Desc.rows (d : Desc) : Nat := bitsN d.bits 160 32

/-- Outfall descriptors in the fetching position move on in ring order while their circuit is free, up to 8
at once (R177, R198). -/
def promote : List Desc → List Desc → List Desc
  | done, [] => done
  | done, d :: r =>
    if d.pos = .executing then promote (done ++ [d]) r
    else
      let busy := (done ++ r).filter fun e => e.pos = .executing && e.type != 0 && e.landed < e.rows * e.len
      if d.pos = .fetching && (d.type == 0 || (busy.length < 8 && busy.all fun e => e.circ != d.circ)) then
        promote (done ++ [{ d with pos := .executing }]) r
      else done ++ d :: r

/-- A running Outfall engine moves its descriptors on (R182, R198). -/
def Eng.advance (v : Eng) : Eng :=
  if v.st = .running && !v.ending && !v.stopping then { v with descs := promote [] v.descs } else v

/-- A plot starts at a tide: its cells, and the armed engines bound to it (R145, R182). -/
def Polder.startPlot (p : Polder) (r : Rect) (tide : Nat) : Polder :=
  let p := p.onCells r fun c => c.begin tide
  (p.boundTo r).foldl (fun p e =>
    let v := p.eng e
    if v.st = .armed then
      let v := { v with
        st := .running, base := some tide
        descs := v.descs.map fun d => if d.pos = .queued then d else { d with since := 64 * tide } }
      p.setEng e (if e % 16 < 8 then v else v.advance)
    else p) p

/-- The i-th issue of the unit's list starts (R145). -/
def Polder.startIssue (p : Polder) (x : PolCtx) (i : Issue) : Polder :=
  match p.faultedEngine i.rect with
  | some e => p.finishIssue x i (p.errOf (ENGP e)) 0
  | none =>
    let named := recWord i.words 3 ≠ 0
    let t := if named then i.startTide else max i.startTide (tide16 p.cycle)
    if named && 64 * t < p.cycle then p
    else
      let p := (p.reach (64 * t)).startPlot i.rect t
      let p := p.wr (GRD + 0x90) (BitVec.ofNat 32 t)
      let p := p.onGrid fun g => { g with issues := g.issues.map fun j =>
        if j = i then { j with phase := .running, startTide := t } else j }
      if i.zero then p.raise GRD 13 else p

/-- PLOT_START (R145, R384). -/
def execPlotStart (p : Pid) (i : Nat) (s : State) : Host.Outcome State Fault Refusal :=
  .next (s.event p 5 fun x q =>
    match q.grid.issues[i]? with
    | none => q
    | some j =>
      if j.phase = .pending && j.fail.isNone && q.mayStart && !q.scalesBusy && !q.grid.hold.frozen then q.startIssue x j
      else q)

/-- START_TIDE_MISSED (R145). -/
def execStartTideMissed (p : Pid) (i : Nat) (s : State) : Host.Outcome State Fault Refusal :=
  .next (s.event p 5 fun x q =>
    match q.grid.issues[i]? with
    | none => q
    | some j =>
      if j.phase = .pending && recWord j.words 3 ≠ 0 && !(q.mayStart && !q.scalesBusy) && !q.grid.hold.frozen then
        (q.reach (64 * j.startTide)).finishIssue x j Status.steerLate 7
      else q)

/-- The code a running plot ends with: of a halt or a reset, of its first faulted cell, or DONE once
every cell is HALTED (R146, R171, R385). -/
def Polder.plotCode (p : Polder) (r : Rect) (fail : Option Status) : Option Status :=
  match fail with
  | some c => some c
  | none =>
    match List.find? (fun e => r.hasKey e.1 && e.2.st = .faulted) p.grid.cells with
    | some e => some (bits (e.2.rd 0x24) 0 8)
    | none => if r.keys.all fun k => (p.cell k).st = .halted then some Status.done else none

/-- ISSUE_COMPLETE (R146). -/
def execIssueComplete (p : Pid) (i : Nat) (s : State) : Host.Outcome State Fault Refusal :=
  .next (s.event p 5 fun x q =>
    match q.grid.issues[i]? with
    | none => q
    | some j =>
      match j.phase, j.fail with
      | .running, f =>
        match q.plotCode j.rect f with
        | some c => q.finishIssue x j c 0
        | none => q
      | .pending, some c => q.finishIssue x j c 0
      | _, _ => q)

end Sys2Proof.Machine
end

