-- ==== Sys2Proof/Machine/Pipe.lean ====
section
/-! DEFINITION. Pipeline images: the table and its checks, the gate, passes, the stash and the hand-off
channels (R149 to R174). Readings and choices: log 4, 11, 19. -/

namespace Sys2Proof.Machine

/-- A little-endian field of a table. -/
def leN (b : List Byte) (at_ len : Nat) : Nat := natOfBytes ((b.drop at_).take len)

/-- 32-bit words of a record in memory. -/
def wordsOf (b : List Byte) (n : Nat) : List W32 := (List.range n).map fun k => wordOf 32 ((b.drop (4 * k)).take 4)

/-- D_j: the passes an entry of stage j is kept after the pass that made it (R152). -/
def depthOf (s j : Nat) : Nat := 2 * (s - j) - 1

/-- A run is over after this many passes (R152). -/
def PipeRun.total (r : PipeRun) : Nat := if r.fused then r.m + 2 * r.stages.length - 1 else r.m + r.stages.length - 1

/-- The forward microbatch of stage j in a pass (R152). -/
def PipeRun.fwd (r : PipeRun) (j pass : Nat) : Option Nat :=
  if j ≤ pass && pass - j < r.m then some (pass - j) else none

/-- The backward microbatch of stage j in a pass (R152). -/
def PipeRun.bwd (r : PipeRun) (j pass : Nat) : Option Nat :=
  let d := 2 * r.stages.length - 1 - j
  if r.fused && d ≤ pass && pass - d < r.m then some (pass - d) else none

/-- A hand-off channel meets a lead (R173). -/
def handMeets (seq done h : W32) (lead : W32) : Bool :=
  let d := (seq - h).toNat
  (1 ≤ d && d < 2 ^ 31) || (seq == h && lead.toNat ≤ done.toNat)

def Polder.handSeq (p : Polder) (n : Nat) : W32 := p.rd (GRD + 0x148 + 8 * n)
def Polder.handDone (p : Polder) (n : Nat) : W32 := p.rd (GRD + 0x14C + 8 * n)

/-- Every channel of the gate meets its lead (R173). -/
def Polder.gateOpen (p : Polder) (r : PipeRun) : Bool :=
  (List.range 4).all fun n =>
    !r.gateMask.getLsbD n || handMeets (p.handSeq n) (p.handDone n) r.handSeq ((r.leads[n]?).getD 0)

/-- A start from the register path is waiting, being checked or running (R174). -/
def Polder.pipeBusy (p : Polder) : Bool :=
  (match p.grid.pipe with
   | some r => r.origin.isReg
   | none => false) || p.held.any fun h => match h with
    | .pipe _ o => o.isReg
    | _ => false

/-- A start that fails a check: code, check, stage and stash record, 0xFF for none (R170, R174). -/
def Polder.refusePipe (p : Polder) (o : Origin) (code : Status) (check stage rec : Nat) : Polder :=
  let p := p.onGrid fun g => { g with pipe := match g.pipe with
    | some r => if r.origin = o then none else some r
    | none => none }
  let p := if o.isReg then
      p.wr (GRD + 0x12C) (fld 0 code.toNat ||| fld 8 check ||| fld 16 stage ||| fld 24 rec)
    else p
  (p.raise GRD 15).endCmd o code false 0

/-- A pipeline start reaches the polder, by either path: its header says what gate it waits for (R170,
R172); a pending commit holds it (R443). -/
def Polder.submitPipe (p : Polder) (x : PolCtx) (tab : W64) (o : Origin) : Polder :=
  if x.mod.commit.isSome && p.wdn.st = .running then { p with held := p.held ++ [.pipe tab o] }
  else if p.grid.pipe.isSome then p.refusePipe o Status.refusedBusy 2 0 0xFF
  else
    let t := gaTier tab
    if !(tab.toNat % 64 == 0 && (t == 1 || t == 2) && x.isOwn p tab) then p.refusePipe o Status.addressInvalid 3 0 0xFF
    else
      let h := p.memRead x (blockBy o.ctx) t (gaOff tab) 64
      if h.st ≠ Status.done then h.p.refusePipe o h.st 3 0 0xFF
      else
        let r : PipeRun :=
          { origin := o, phase := .gate, table := tab, fused := leN h.data 1 1 == 1, m := leN h.data 2 2
            period := leN h.data 4 4, gateMask := BitVec.ofNat 4 (leN h.data 10 1)
            handSeq := BitVec.ofNat 32 (leN h.data 12 4), leads := wordsOf (h.data.drop 16) 4
            stages := [], t0 := 0, pass := 0, entries := [], switched := [], fail := none }
        h.p.onGrid fun g => { g with pipe := some r }

/-- PIPE_GO (R170, R174). -/
def execPipeGo (p : Pid) (w : Who) (s : State) : Host.Outcome State Fault Refusal :=
  .next (s.writePage p (GRD + 0x128) w fun x q =>
    if q.pipeBusy then q
    else q.submitPipe x (q.pair (GRD + 0x120)) (.reg w.ctx))

/-- PIPE_GATE_OPEN (R173). -/
def execPipeGateOpen (p : Pid) (s : State) : Host.Outcome State Fault Refusal :=
  .next (s.event p 5 fun _ q =>
    match q.grid.pipe with
    | some r =>
      if r.phase = .gate && q.gateOpen r then q.onGrid fun g => { g with pipe := some { r with phase := .reading } }
      else q
    | none => q)

/-- A stash record as the table holds it (R161). -/
structure StashRaw where
  tensor : BitVec 16
  policy : Nat
  spill : Bool
  fallback : Bool
  base : Nat
  region : Nat
  word : Nat
  rowBytes : Nat
  rowDiv : Nat
  gran : Nat
  ok : Bool
  deriving DecidableEq, Repr

def stashRaw (b : List Byte) : StashRaw :=
  let f := leN b 2 1
  { tensor := BitVec.ofNat 16 (leN b 0 2), policy := f % 4, spill := f / 4 % 2 == 1, fallback := f / 8 % 2 == 1
    base := leN b 4 2, region := leN b 6 2, word := leN b 8 2, rowBytes := leN b 10 2, rowDiv := leN b 12 2
    gran := leN b 16 4
    ok := f % 4 != 3 && f / 16 == 0 && leN b 3 1 == 0 && leN b 14 2 == 0 && (b.drop 20).all (· == 0) &&
      leN b 4 2 % 128 == 0 && leN b 8 2 % 4 == 0 &&
      (f % 4 != 2 || (leN b 4 8 == 0 && leN b 12 8 == 0)) }

/-- A stage entry of the table with its stash records (R169). -/
structure StageRaw where
  words : List W32
  reserve : W64
  resGran : Nat
  first : Nat
  count : Nat
  ok : Bool
  deriving DecidableEq, Repr

def stageRaw (b : List Byte) : StageRaw :=
  { words := wordsOf b 16, reserve := wordOf 64 ((b.drop 64).take 8), resGran := leN b 72 4, first := leN b 76 2
    count := leN b 78 1, ok := (b.drop 79).all (· == 0) && leN b 78 1 ≤ 32 }

/-- A stage's reserve lies wholly inside one BITMAP region of own tier 1 (R169, R170). -/
def Polder.reserveOk (p : Polder) (x : PolCtx) (s : StageRaw) : Bool :=
  if s.resGran = 0 then s.reserve == 0
  else
    let o := gaOff s.reserve
    x.isOwn p s.reserve && gaTier s.reserve == 1 && o % granule == 0 &&
    match x.region? p 1 o with
    | some r => r.bitmap && o + granule * s.resGran ≤ r.stop
    | none => false

/-- What a table reading has brought: header, stages, records, or the code it failed with. -/
structure PipeTable where
  hdr : List Byte
  stages : List StageRaw
  recs : List StashRaw
  deriving DecidableEq, Repr

/-- Read `n` items of `len` bytes from `o` on. -/
def Polder.readItems (x : PolCtx) (by_ : MemBy) (t len : Nat) : Nat → Nat → Polder → List (List Byte) →
    Polder × Status × List (List Byte)
  | 0, _, p, acc => (p, Status.done, acc)
  | n + 1, o, p, acc =>
    let r := p.memRead x by_ t o len
    if r.st ≠ Status.done then (r.p, r.st, acc)
    else Polder.readItems x by_ t len n (o + len) r.p (acc ++ [r.data])

/-- The whole table (R169, R170). -/
def Polder.readTable (p : Polder) (x : PolCtx) (r : PipeRun) : Polder × Status × PipeTable :=
  let by_ := blockBy r.origin.ctx
  let t := gaTier r.table
  let o := gaOff r.table
  let h := p.memRead x by_ t o 64
  if h.st ≠ Status.done then (h.p, h.st, ⟨[], [], []⟩)
  else
    let n := leN h.data 0 1 % 128
    let a := Polder.readItems x by_ t 128 n (o + 64) h.p []
    if a.2.1 ≠ Status.done then (a.1, a.2.1, ⟨h.data, [], []⟩)
    else
      let b := Polder.readItems x by_ t 32 (leN h.data 8 2) (o + 64 + 128 * n) a.1 []
      (b.1, b.2.1, ⟨h.data, a.2.2.map stageRaw, b.2.2.map stashRaw⟩)

/-- The header is well formed (R149, R150, R153, R161, R169). -/
def PipeTable.headerOk (t : PipeTable) : Bool :=
  let s := leN t.hdr 0 1
  let m := leN t.hdr 2 2
  let mode := leN t.hdr 1 1
  let period := leN t.hdr 4 4
  1 ≤ s && s ≤ 64 && mode ≤ 1 && (if mode = 1 then 2 * s ≤ m else 1 ≤ m) && period % 16 == 0 && 256 ≤ period &&
  leN t.hdr 8 2 ≤ 512 && (mode == 1 || leN t.hdr 8 2 == 0) && leN t.hdr 10 1 < 16 && leN t.hdr 11 1 == 0 &&
  (t.hdr.drop 32).all (· == 0)

/-- Stage j of the table is well formed (R149, R153, R161, R169). -/
def PipeTable.stageOk (t : PipeTable) (p : Polder) (x : PolCtx) (j : Nat) : Bool :=
  match t.stages[j]? with
  | none => false
  | some s =>
    s.ok && recordOk s.words && recWord s.words 3 == 0 && bitsN (recWord s.words 2) 8 2 ≤ 1 && p.reserveOk x s &&
    s.first + s.count ≤ t.recs.length && (leN t.hdr 1 1 == 1 || s.count == 0) &&
    (t.stages.take j).all fun q => !(Rect.overlaps (recWord q.words 0) (recWord s.words 0))

/-- Entry size E in rows, for a run-time extent (R162). -/
def StashRaw.entry (s : StashRaw) (x0 : Nat) : Nat :=
  let rows := if s.rowDiv = 0 then s.rowBytes else s.rowBytes * ((x0 + s.rowDiv - 1) / s.rowDiv)
  (rows + 127) / 128

/-- Granule demand G (R162). -/
def StashRaw.demand (s : StashRaw) (x0 : Nat) : Nat := if s.rowDiv = 0 then s.gran else s.gran * x0

/-- Slot capacity C is at least `n`; an empty entry needs no room (R162). -/
def StashRaw.holds (s : StashRaw) (x0 n : Nat) : Bool := s.entry x0 = 0 || n ≤ s.region / s.entry x0

/-- A record's slot region lies inside AUX and overlaps no earlier one's (R162). -/
def slotOk (ws : List W32) (l : List StashRaw) (i : Nat) : Bool :=
  match l[i]? with
  | none => true
  | some s =>
    let g := issRegion ws 3
    s.policy == 2 || (g.base ≤ s.base && s.base + 128 * s.region ≤ g.base + g.size && (l.take i).all fun q =>
      q.policy == 2 || s.base + 128 * s.region ≤ q.base || q.base + 128 * q.region ≤ s.base)

/-- The policy a record runs under, or none where it fails (R162). -/
def StashRaw.policyIn (s : StashRaw) (x0 d : Nat) : Option Nat :=
  match s.policy with
  | 0 => if s.holds x0 (d + 1) then some 0 else if s.spill && s.holds x0 4 then some 1 else none
  | 1 => if s.holds x0 4 then some 1 else none
  | k => some k

/-- The stash checks of a stage: the records as they run, or the record that fails (R162). -/
def stashCheck (ws : List W32) (l : List StashRaw) (resGran d : Nat) : Except Nat (List StashRec) :=
  let x0 := extentOf ws 0
  match (List.range l.length).find? fun i =>
      !slotOk ws l i || (match l[i]? with
        | some s => (s.policyIn x0 d).isNone
        | none => false) with
  | some i => .error i
  | none =>
    let rs := l.map fun s =>
      { tensor := s.tensor, policy := (s.policyIn x0 d).getD 0, fallback := s.fallback, base := s.base
        word := s.word, size := s.entry x0, gran := s.demand x0 : StashRec }
    let roots := rs.foldl (fun n r => if r.policy = 1 && !r.fallback then n + r.gran * (d + 1) else n) 0
    if resGran < roots then .error 0xFF else .ok rs

/-- Checks 2 to 6 of one stage and its stash checks: the stage as it will run with its setup time, or
the code, the check and the stash record that fail (R140, R162, R170). -/
def Polder.checkStage (p : Polder) (x : PolCtx) (ctx : BitVec 16) (s : StageRaw) (l : List StashRaw) (d : Nat) :
    Polder × Except (Status × Nat × Nat) (Stage × Nat) :=
  let ws := s.words
  let rect := recWord ws 0
  match p.plotState rect with
  | some st => (p, .error (st, 2, 0xFF))
  | none =>
    let vtab : W64 := recWord ws 5 ++ recWord ws 4
    let t := gaTier vtab
    if !(vtab.toNat % 64 == 0 && (t == 1 || t == 2) && x.isOwn p vtab) then (p, .error (Status.addressInvalid, 3, 0xFF))
    else
      let h := p.memRead x (blockBy ctx) t (gaOff vtab) 64
      if h.st ≠ Status.done then (h.p, .error (h.st, 3, 0xFF))
      else
        let bk := (List.range 3).map (buckets h.data (bitsN (recWord ws 2) 8 2))
        if (bk.any Option.isNone) || (h.data.drop 51).any (· != 0) then (h.p, .error (Status.internal, 3, 0xFF))
        else match bucketIdx ws (bk.map fun b => b.getD []) 0 with
          | none => (h.p, .error (Status.shapeExceedsBucket, 4, 0xFF))
          | some n =>
            let e := h.p.memRead x (blockBy ctx) t (gaOff vtab + 64 + 16 * n) 16
            if e.st ≠ Status.done then (e.p, .error (e.st, 3, 0xFF))
            else if ((e.data[1]?).getD 0).toNat < 128 then (e.p, .error (Status.shapeExceedsBucket, 4, 0xFF))
            else match variantOf ws e.data with
              | none => (e.p, .error (Status.internal, 3, 0xFF))
              | some v =>
                let acc := accDemand ws v
                let q := e.p.wr (GRD + 0x8C) (demandWord acc 0 0)
                if 64 < acc then (q, .error (Status.accOvercommit, 5, 0xFF))
                else match regionFail ws v with
                  | some (r, need) => (q.wr (GRD + 0x8C) (demandWord acc r need), .error (Status.bufferOvercommit, 6, 0xFF))
                  | none =>
                    match stashCheck ws l s.resGran d with
                    | .error i => (q, .error (Status.bufferOvercommit, 6, i))
                    | .ok rs => (q, .ok ({ words := ws, rect := rect, startPc := v.pc, zero := zeroExtent ws
                                           x0 := extentOf ws 0, reserve := gaOff s.reserve, resGran := s.resGran
                                           first := s.first, recs := rs }, setupCycles ws))

/-- Every stage in turn; the first that fails ends the start (R170). -/
def Polder.checkStages (x : PolCtx) (ctx : BitVec 16) (t : PipeTable) (n : Nat) : Nat → Polder → List (Stage × Nat) →
    Polder × Except (Status × Nat × Nat × Nat) (List (Stage × Nat))
  | 0, p, acc => (p, .ok acc)
  | k + 1, p, acc =>
    let j := n - (k + 1)
    match t.stages[j]? with
    | none => (p, .ok acc)
    | some s =>
      match p.checkStage x ctx s ((t.recs.drop s.first).take s.count) (depthOf n j) with
      | (p, .error (c, ch, r)) => (p, .error (c, ch, j, r))
      | (p, .ok v) => Polder.checkStages x ctx t n k p (acc ++ [v])

/-- Setup of a stage's cells: the record's, with M in extent 1 and 0 in extent 2 (R145, R153, R170). -/
def Stage.setUp (s : Stage) (m : Nat) (c : Cell) : Cell :=
  ((c.setUp s.words s.startPc).wr 0x54 (BitVec.ofNat 32 m)).wr 0x58 0

/-- KEEP records that run as OFFLOAD (R162). -/
def spilledRecs (l : List StashRaw) (rs : List StashRec) : Nat :=
  ((l.zip rs).filter fun q => q.1.policy == 0 && q.2.policy == 1).length

/-- PIPE_TABLE_READ_DONE (R170). -/
def Polder.pipeRead (p : Polder) (x : PolCtx) (r : PipeRun) : Polder :=
  match p.readTable x r with
  | (p, st, t) =>
    if st ≠ Status.done then p.refusePipe r.origin st 3 0 0xFF
    else
      let n := t.stages.length
      if !t.headerOk then p.refusePipe r.origin Status.internal 1 0 0xFF
      else match (List.range n).find? fun j => !t.stageOk p x j with
        | some j => p.refusePipe r.origin Status.internal 1 j 0xFF
        | none =>
          match t.recs.findIdx? fun s => !s.ok with
          | some i =>
            let j := (t.stages.findIdx? fun s => s.first ≤ i && i < s.first + s.count).getD 0
            p.refusePipe r.origin Status.internal 1 j (i - ((t.stages[j]?).map (·.first)).getD 0)
          | none =>
            match Polder.checkStages x r.origin.ctx t n n p [] with
            | (p, .error (c, ch, j, k)) => p.refusePipe r.origin c ch j k
            | (p, .ok l) =>
              let smax := l.foldl (fun m q => max m q.2) 0
              let stages := l.map (·.1)
              let p := stages.foldl (fun p s => p.onCells s.rect (s.setUp (leN t.hdr 2 2))) p
              let k := (t.stages.zip stages).foldl (fun k q =>
                k + spilledRecs ((t.recs.drop q.1.first).take q.1.count) q.2.recs) 0
              let p := if k = 0 then p else (p.count (GRD + 0x138) k).raise GRD 16
              p.onGrid fun g => { g with pipe := some { r with
                phase := .pending, fused := leN t.hdr 1 1 == 1, m := leN t.hdr 2 2, period := leN t.hdr 4 4
                handSeq := BitVec.ofNat 32 (leN t.hdr 12 4), stages := stages, t0 := tide16 (p.cycle + smax) } }

def execPipeTableReadDone (p : Pid) (s : State) : Host.Outcome State Fault Refusal :=
  .next (s.event p 5 fun x q =>
    match q.grid.pipe with
    | some r => if r.phase = .reading then q.pipeRead x r else q
    | none => q)

/-- The base of a half in a record's stash word; a base for an absent half is undefined, so a free value
(R163, log 4). -/
def stashBase (r : StashRec) (d pass : Nat) (micro : Option Nat) (consume : Bool) (free : Nat) : Nat :=
  match micro with
  | none => (bits (Config.freeWord free) 0 16).toNat
  | some i =>
    if r.policy = 0 then r.base + 128 * r.size * (i % (d + 1))
    else r.base + 128 * r.size * ((if consume then 2 else 0) + pass % 2)

/-- The stash words of a pass are written in every cell of the image (R163). -/
def Polder.writeStash (p : Polder) (x : PolCtx) (r : PipeRun) (pass : Nat) : Polder :=
  (r.stages.zip (List.range r.stages.length)).foldl (fun p q =>
    let d := depthOf r.stages.length q.2
    (q.1.recs.zip (List.range q.1.recs.length)).foldl (fun p e =>
      if e.1.policy = 2 then p
      else
        let k := 2 * (64 * e.2 + q.2)
        let lo := stashBase e.1 d pass (r.fwd q.2 pass) false (x.free * 4096 + k)
        let hi := stashBase e.1 d pass (r.bwd q.2 pass) true (x.free * 4096 + k + 1)
        let w : W32 := BitVec.ofNat 16 hi ++ BitVec.ofNat 16 lo
        p.onCells q.1.rect fun c => (c.svcWrite e.1.word (bytesOf w 4)).1) p) p

/-- CEL_EXTENT2 of every cell of a stage. -/
def Polder.setExtent2 (p : Polder) (s : Stage) (v : Nat) : Polder :=
  p.onCells s.rect fun c => c.wr 0x58 (BitVec.ofNat 32 v)

/-- Extent 2 follows the switched microbatches from pass to pass (R167). -/
def Polder.passExtents (p : Polder) (r : PipeRun) (pass : Nat) : Polder :=
  (r.stages.zip (List.range r.stages.length)).foldl (fun p q =>
    let at_ := fun k => match r.bwd q.2 k with
      | some b => r.switched.contains (q.2, b)
      | none => false
    if at_ pass then p.setExtent2 q.1 q.1.x0
    else if 0 < pass && at_ (pass - 1) then p.setExtent2 q.1 0
    else p) p

/-- A run ends (R146, R171). -/
def Polder.endPipe (p : Polder) (x : PolCtx) (r : PipeRun) (code : Status) : Polder :=
  let p := p.onGrid fun g => { g with pipe := none }
  let p := if r.origin.isReg then p.wr (GRD + 0x12C) (fld 0 code.toNat ||| fld 24 0xFF) else p
  let p := (p.raise GRD 14).endCmd r.origin code false 0
  if r.phase = .running then r.stages.foldl (fun p s => p.plotEnded x s.rect) p else p

/-- PASS_BEGIN: pass 0 starts the image; a later pass follows after PERIOD tides (R150, R163, R165,
R167, R170, R384). -/
def Polder.passBegin (p : Polder) (x : PolCtx) (r : PipeRun) : Polder :=
  match r.phase with
  | .pending =>
    if !p.mayStart || p.scalesBusy then p
    else match r.stages.findSome? fun s => p.faultedEngine s.rect with
      | some e => p.endPipe x r (p.errOf (ENGP e))
      | none =>
        let t := max r.t0 (tide16 p.cycle)
        let r := { r with phase := .running, t0 := t }
        let p := (p.reach (64 * t)).writeStash x r 0
        let p := r.stages.foldl (fun p s => p.startPlot s.rect t) p
        let p := (p.wr (GRD + 0x130) (BitVec.ofNat 32 t)).wr (GRD + 0x134) 0
        p.onGrid fun g => { g with pipe := some r }
  | .running =>
    let k := r.pass + 1
    if r.total ≤ k then p
    else
      let p := (p.reach (64 * (r.t0 + k * r.period))).writeStash x r k
      let p := p.passExtents r k
      let r := { r with
        pass := k
        entries := r.entries.filter fun e => decide (r.bwd e.stage r.pass ≠ some e.micro) }
      (p.wr (GRD + 0x134) (BitVec.ofNat 32 k)).onGrid fun g => { g with pipe := some r }
  | _ => p

def execPassBegin (p : Pid) (s : State) : Host.Outcome State Fault Refusal :=
  .next (if s.live p 5 then s.onPolFree p fun x q =>
      match q.grid.pipe with
      | some r => if q.grid.hold.frozen then q else q.passBegin x r
      | none => q
    else s)

/-- Granules set aside for the roots of a stage (R162, R166). -/
def Stage.rootGran (s : Stage) (d : Nat) : Nat :=
  s.recs.foldl (fun n r => if r.policy = 1 && !r.fallback then n + r.gran * (d + 1) else n) 0

/-- Where a root record's entry lies: its own part, a place per microbatch kept (log 11). -/
def Stage.rootAt (s : Stage) (d k micro : Nat) : Nat :=
  (s.recs.take k).foldl (fun n r => if r.policy = 1 && !r.fallback then n + r.gran * (d + 1) else n) 0 +
    ((s.recs[k]?).map (·.gran)).getD 0 * (micro % (d + 1))

/-- The lowest free run of granules past the roots' part (R166, log 11). -/
def fallbackAt (es : List StashEntry) (lo top gran : Nat) : Option Nat :=
  let starts := lo :: es.map fun e => e.at_ / granule + e.gran
  (starts.filter fun a => lo ≤ a && a + gran ≤ top && es.all fun e =>
    decide (e.at_ / granule + e.gran ≤ a) || decide (a + gran ≤ e.at_ / granule)).foldl
      (fun m a => some (match m with
        | none => a
        | some b => min a b)) none

/-- The granules of a stage that no root and no FALLBACK entry takes. -/
def Stage.freeGran (s : Stage) (d : Nat) (es : List StashEntry) : Nat :=
  s.resGran - s.rootGran d - es.foldl (fun n e => n + e.gran) 0

/-- A stage is switched to RECOMPUTE for a microbatch (R166). -/
def Polder.switchStage (p : Polder) (x : PolCtx) (r : PipeRun) (j i : Nat) (rc : StashRec) : Polder :=
  let fb := fun (e : StashEntry) => match (r.stages[j]?).bind fun s => s.recs[e.recIdx]? with
    | some c => c.fallback
    | none => false
  let r := { r with
    switched := r.switched ++ [(j, i)]
    entries := r.entries.filter fun e => !(e.stage == j && e.micro == i && fb e) }
  let p := p.onGrid fun g => { g with pipe := some r }
  let p := ((p.count (GRD + 0x13C) 1).raise GRD 17).wr (GRD + 0x144) (fld 0 j ||| fld 16 i)
  p.post x 8 1 rc.tensor.toNat (BitVec.ofNat 64 (j + i * 2 ^ 16 + r.pass * 2 ^ 32))

/-- STASH_COPY_OUT: the entry a stage produced in the pass before takes its granules (R164, R166). -/
def Polder.copyOut (p : Polder) (x : PolCtx) (r : PipeRun) (j k : Nat) : Polder :=
  match r.stages[j]?, (if r.pass = 0 then none else r.fwd j (r.pass - 1)) with
  | some s, some i =>
    match s.recs[k]? with
    | none => p
    | some rc =>
      let d := depthOf r.stages.length j
      if rc.policy ≠ 1 || r.entries.any (fun e => e.stage == j && e.recIdx == k && e.micro == i) then p
      else if !rc.fallback then
        p.onGrid fun g => { g with pipe := some { r with
          entries := r.entries ++ [⟨j, k, i, granule * s.rootAt d k i, rc.gran, false⟩] } }
      else if r.switched.contains (j, i) then p
      else
        let es := r.entries.filter fun e => e.stage == j && (match s.recs[e.recIdx]? with
          | some c => c.fallback
          | none => false)
        match fallbackAt es (s.rootGran d) s.resGran rc.gran with
        | none => p.switchStage x r j i rc
        | some a =>
          let es' := es ++ [⟨j, k, i, granule * a, rc.gran, false⟩]
          let p := p.wr (GRD + 0x140) (BitVec.ofNat 32 (min (p.rdN (GRD + 0x140)) (s.freeGran d es')))
          p.onGrid fun g => { g with pipe := some { r with
            entries := r.entries ++ [⟨j, k, i, granule * a, rc.gran, false⟩] } }
  | _, _ => p

def execStashCopyOut (p : Pid) (stage : Fin 64) (rec : Fin 32) (s : State) : Host.Outcome State Fault Refusal :=
  .next (s.event p 5 fun x q =>
    match q.grid.pipe with
    | some r => if r.phase = .running then q.copyOut x r stage.val rec.val else q
    | none => q)

/-- STASH_RETURN: the entry that a stage consumes in the next pass is returned in this one (R164, R167). -/
def execStashReturn (p : Pid) (stage : Fin 64) (rec : Fin 32) (s : State) : Host.Outcome State Fault Refusal :=
  .next (s.event p 5 fun _ q =>
    match q.grid.pipe with
    | some r =>
      if r.phase = .running then
        let b := r.bwd stage.val (r.pass + 1)
        q.onGrid fun g => { g with pipe := some { r with entries := r.entries.map fun e =>
          if e.stage = stage.val ∧ e.recIdx = rec.val ∧ b = some e.micro then { e with returned := true } else e } }
      else q
    | none => q)

/-- Where a stash descriptor's entry lies in tier 1: that being copied out in a pass, or that being
returned; none where the pass has none (R201). `idx` is the record's index in the table. -/
def PipeRun.stashAt (r : PipeRun) (idx pass : Nat) (out : Bool) : Option Nat :=
  match (r.stages.zip (List.range r.stages.length)).find? fun q =>
      q.1.first ≤ idx && idx < q.1.first + q.1.recs.length with
  | none => none
  | some q =>
    let m := if out then (if pass = 0 then none else r.fwd q.2 (pass - 1)) else r.bwd q.2 (pass + 1)
    m.bind fun i => (r.entries.find? fun e => e.stage == q.2 && e.recIdx == idx - q.1.first && e.micro == i).map
      fun e => q.1.reserve + e.at_

/-- PIPE_RUN_COMPLETE (R171). -/
def execPipeRunComplete (p : Pid) (s : State) : Host.Outcome State Fault Refusal :=
  .next (s.event p 5 fun x q =>
    match q.grid.pipe with
    | some r =>
      if r.phase = .running then
        match r.fail with
        | some c => q.endPipe x r c
        | none =>
          let codes := r.stages.map fun st => q.plotCode st.rect none
          match codes.find? fun c => c.isSome && c != some Status.done with
          | some (some c) => q.endPipe x r c
          | _ => if codes.all (· == some Status.done) then q.endPipe x r Status.done else q
      else if r.phase = .pending then
        match r.fail with
        | some c => q.endPipe x r c
        | none => q
      else q
    | none => q)

/-- HANDOFF_REGISTER_WRITE (R172). -/
def execHandoffRegisterWrite (p : Pid) (w : Who) (n : Fin 4) (isDone : Bool) (v : W32) (s : State) :
    Host.Outcome State Fault Refusal :=
  let off := GRD + 0x148 + 8 * n.val + 4 * bit01 isDone
  .next (s.writePage p off w fun _ q => q.wr off v)

end Sys2Proof.Machine
end

