-- ==== Sys2Proof/Machine/EngOps.lean ====
section
/-! DEFINITION. Engines: descriptor fields and their checks, faults, semaphores, signals, scales, the access
tables and the translation of addresses (R175 to R203, R346 to R350). Readings and choices: log 25. -/

namespace Sys2Proof.Machine

/-- Fields of a descriptor (R178, R202). -/
def Desc.bit (d : Desc) (i : Nat) : Bool := d.bits.getLsbD i
def Desc.sigEn (d : Desc) : Bool := d.bit 4
def Desc.waitEn (d : Desc) : Bool := d.bit 5
def Desc.step (d : Desc) : Bool := d.bit 6
def Desc.stash (d : Desc) : Bool := d.bit 7
def Desc.conv (d : Desc) : Nat := bitsN d.bits 8 4
def Desc.rnd (d : Desc) : Nat := bitsN d.bits 12 2
def Desc.circ2 (d : Desc) : Nat := bitsN d.bits 19 3
def Desc.dual (d : Desc) : Bool := d.bit 22
def Desc.slot (d : Desc) : Nat := bitsN d.bits 24 6
def Desc.tide (d : Desc) : Nat := bitsN d.bits 32 32
def Desc.addr (d : Desc) : W64 := Sys2Proof.bits d.bits 64 64
def Desc.stride (d : Desc) : Nat := bitsN d.bits 192 64
def Desc.tensor (d : Desc) : BitVec 16 := Sys2Proof.bits d.bits 256 16
def Desc.hand (d : Desc) : Nat := bitsN d.bits 272 2
def Desc.handEn (d : Desc) : Bool := d.bit 274
def Desc.map (d : Desc) : Bool := d.bit 275
def Desc.src32 (d : Desc) : Bool := d.bit 276
def Desc.chunk (d : Desc) : Nat := bitsN d.bits 288 32
def Desc.sig (d : Desc) : W32 := Sys2Proof.bits d.bits 320 32
def Desc.waitSem (d : Desc) : Nat := bitsN d.bits 352 4
def Desc.waitN (d : Desc) : Nat := bitsN d.bits 356 8
def Desc.aux (d : Desc) : Nat := bitsN d.bits 384 64
/-- Source bytes of an Intake descriptor, delivered bytes of an Outfall one. -/
def Desc.total (d : Desc) : Nat := d.rows * d.len
/-- Source bytes for one delivered byte (R180). -/
def Desc.ratio (d : Desc) : Nat := if d.conv = 0 then 1 else 2
/-- Delivered size (R181). -/
def Desc.delivered (d : Desc) : Nat := d.total / d.ratio

/-- Bit fields a type uses, as (first, width); the others must be zero (R178, R179, R190, R198, R201,
R346). TENSOR has a check of its own. -/
def usedFields (type : Nat) : List (Nat × Nat) :=
  let move := [(0, 4), (4, 2), (6, 1), (16, 3), (64, 64), (128, 32), (160, 32), (256, 16), (320, 29), (352, 12)]
  let read := move ++ [(8, 6), (19, 4), (24, 6), (32, 32)]
  match type with
  | 0x0 => [(0, 5), (256, 16), (320, 29)]
  | 0x1 => read ++ [(7, 1), (192, 64), (272, 4), (288, 32)]
  | 0x2 => read ++ [(192, 64), (272, 4), (288, 32)]
  | 0x3 => read ++ [(384, 64)]
  | 0x8 => move ++ [(192, 64)]
  | 0x9 => move ++ [(192, 64), (275, 2)]
  | 0xA => move ++ [(7, 1), (192, 64)]
  | _ => []

/-- Every field a type does not use is zero (R178). -/
def Desc.unusedZero (d : Desc) : Bool :=
  (usedFields d.type).foldl (fun n f =>
    n - bitsN d.bits f.1 f.2 * 2 ^ f.1) d.bits.toNat == 0

/-- SIG names a target that exists and n is not zero (R178, R181). -/
def Desc.sigOk (d : Desc) : Bool :=
  !d.sigEn || (bitsN d.sig 20 8 != 0 && (if d.sig.getLsbD 28 then bitsN d.sig 0 8 ≤ 63 else bitsN d.sig 8 8 ≤ 159))

/-- A REPEAT is well formed, its re-run descriptors apart (R202). -/
def Desc.repeatOk (d : Desc) : Bool :=
  bitsN d.bits 4 4 == 0 && bitsN d.bits 8 24 == 0 && bitsN d.bits 176 336 == 0 && bitsN d.bits 128 32 != 0 &&
  1 ≤ bitsN d.bits 160 16 && bitsN d.bits 160 16 ≤ 255

/-- A type is allowed at an engine (R179). -/
def typeAllowed (out : Bool) (t : Nat) : Bool :=
  t == 0 || t == 0xF || (if out then 8 ≤ t && t ≤ 0xA else 1 ≤ t && t ≤ 3)

/-- Well-formedness of a descriptor that moves data (R178 to R181, R189, R190, R346). -/
def Desc.moveOk (d : Desc) (own : Bool) (out : Bool) : Bool :=
  d.conv ≤ 3 && d.rnd % 2 == 0 && (d.stash || d.addr.toNat % 64 == 0) &&
  64 ≤ d.len && d.len ≤ 2 ^ 20 && d.len % 64 == 0 && 1 ≤ d.rows && d.rows ≤ 65535 && d.delivered % 32 == 0 &&
  (d.stash || d.map || !(own && gaTier d.addr == 0)) && (!d.map || bitsN d.addr 48 13 == 0) &&
  !(d.stash && d.map) && (!out || d.conv == 0) &&
  (d.type != 0x2 || (d.conv != 3 && d.len % (if d.conv = 0 then 64 else 128) == 0))

/-- A descriptor is well formed at an engine (R178 to R181, R188 to R190, R202). -/
def Desc.ok (d : Desc) (own out : Bool) : Bool :=
  if d.type = 0xF then d.repeatOk
  else typeAllowed out d.type && d.unusedZero && (d.conv != 0 || d.tensor == 0xFFFF) && d.sigOk &&
    (d.type == 0 || d.moveOk own out)

/-- An engine as it stands after a change: the free bytes of its buffer follow (R184). -/
def Polder.putEng (p : Polder) (e : Nat) (v : Eng) : Polder := p.setEng e { v with free := v.space }

/-- An engine faults (R181, R184, R194, R199, R203): the event that says more, if there is one, stands
beside DESC_FAULT, and a HOLD it requests ends. -/
def Polder.engFault (p : Polder) (e : Nat) (code : Status) (ev : Nat) (index : W32) (addr : W64 := 0) : Polder :=
  let v := p.eng e
  if v.st = .faulted then p
  else
    let pg := ENGP e
    let p := p.raise pg 0
    let p := if ev = 0 then p else p.raise pg ev
    let p := (p.recordErr pg code ev 1 0 addr).wr (pg + 0x8C) index
    (p.putEng e { v with st := .faulted, holdReq := false, outHold := false, ending := false, stopping := false }).updateHold

/-- The ring index a fault that no descriptor caused names: the oldest descriptor's. -/
def Eng.oldest (v : Eng) : W32 := (v.descs.head?).elim v.head (·.index)

/-- The engine works: it is ARMED or RUNNING and neither ends nor stops. -/
def Eng.works (v : Eng) : Bool := (v.st = .armed || v.st = .running) && !v.ending && !v.stopping
/-- It executes (R182). -/
def Eng.runs (v : Eng) : Bool := v.st = .running && !v.ending && !v.stopping

/-- An event of an engine: it happens only where the engine is up (R393). -/
def State.onEng (s : State) (e : EngId) (f : PolCtx → Polder → Polder) : State :=
  if s.mod.powered e.p && !(s.pol e.p).engDown e.key then s.onPol e.p f else s

/-- A register write that reaches an engine's page. -/
def State.writeEng (s : State) (e : EngId) (off : Nat) (w : Who) (f : PolCtx → Polder → Polder) : State :=
  s.writePage e.p (ENGP e.key + off) w f

/-- A context has touched an engine (R400). -/
def Eng.touchedBy (v : Eng) (ctx : BitVec 16) : Eng :=
  let n := v.users.foldl (fun m u => max m u.2) 0 + 1
  { v with
    users := if v.users.any fun u => u.1 == ctx then v.users.map fun u => if u.1 = ctx then (ctx, n) else u
      else v.users ++ [(ctx, n)] }

/-- The context that published a ring entry (R400). -/
def Eng.publisher (v : Eng) (i : W32) : BitVec 16 :=
  ((v.published.find? fun q => let d := (q.1 - i).toNat; 1 ≤ d && d < 2 ^ 31).map (·.2)).getD v.ctx

def Eng.sem (v : Eng) (k : Nat) : Nat := (SMap.get (fun _ => (0 : Byte)) v.sems k).toNat
def Eng.setSem (v : Eng) (k n : Nat) : Eng := { v with sems := SMap.set (fun _ => (0 : Byte)) v.sems k (BitVec.ofNat 8 n) }

/-- The signal of a descriptor enters the sync net in cycle `t` (R110, R187). -/
def Polder.signal (p : Polder) (e t : Nat) (d : Desc) : Polder :=
  let s := d.sig
  let eng := s.getLsbD 28
  let target := if eng then bitsN s 0 8 else bitsN s 0 8 * 160 + bitsN s 8 8
  let at_ := if eng then engCell target else target
  let vis := t + linkTime (engCell e) at_ + 6 + (if eng then 2 else 0)
  p.onGrid fun g => { g with incrs := g.incrs ++ [⟨eng, target, bitsN s 16 4, bitsN s 20 8, vis⟩] }

/-- A descriptor retires (R187, R203). -/
def Polder.retireDesc (p : Polder) (e num : Nat) : Polder :=
  let v := p.eng e
  let v := { v with descs := v.descs.filter fun d => d.num != num, retired := v.retired + 1 }
  p.putEng e (if e % 16 < 8 then v else v.advance)

/-- The Gauge's exponent of a tensor (R84, R180, R415): none where it holds no scale. -/
def PolCtx.scaleOf (x : PolCtx) (p : Polder) (tensor : BitVec 16) : Option Int :=
  if tensor = 0xFFFF then some 0
  else if tensor = 0xFFFE then some p.gauge.k.toNat
  else if p.unrestored.contains 5 then none
  else
    let base := cfgKey x.pid.val (GAU + 0x50) 0
    (List.find? (fun q : Nat × W32 => q.1 / 2 ^ 13 == base / 2 ^ 13 && bits q.2 0 16 == tensor) x.mod.active.vals).map fun q =>
      ((SMap.get (fun _ => ScaleEnt.reset) p.gauge.scales (q.1 - base)).t).toInt

/-- Source bytes become delivered bytes (R74, R180, R197). -/
def convertBytes (conv rnd : Nat) (t : Int) (bs : List Byte) : List Byte :=
  let r := if rnd = 2 then Rnd.rtz else Rnd.rne
  let go := fun (src dst : Fmt) =>
    (List.range (bs.length / src.bytes)).flatMap fun i =>
      let c := natOfBytes ((bs.drop (src.bytes * i)).take src.bytes)
      bytesOf (BitVec.ofNat 64 (dst.encode r ((src.decode c).scale t))) dst.bytes
  match conv with
  | 1 => go .bf16 .e4m3
  | 2 => go .bf16 .e5m2
  | 3 => go .fp32 .bf16
  | _ => bs

/-- An entry of an access table (R191). -/
def Polder.access (p : Polder) (stack slot : Nat) : W32 := p.rd (HBC stack + 0x44) (1 + slot)

/-- Slots of a controller that grant a requester. -/
def Polder.grants (p : Polder) (stack req : Nat) : List Nat :=
  (List.range 64).filter fun k => let w := p.access stack k; w.getLsbD 15 && bitsN w 10 5 == req

/-- The access tables of a field die are valid (R191). -/
def Polder.accessOk (p : Polder) (die : Nat) : Bool :=
  ([2 * die, 2 * die + 1] : List Nat).all (fun c =>
    4 ≤ (p.grants c 31).length && ((List.range 13).all fun r => (p.grants c (18 + r)).isEmpty)) &&
  (List.range 16).all fun r =>
    let l := (p.grants (2 * die) r).map (fun k => (0, k)) ++ (p.grants (2 * die + 1) r).map fun k => (1, k)
    l.all fun a => l.all fun b =>
      a == b || (let d := (a.2 + 64 - b.2) % 64; decide (8 ≤ d) && decide (d ≤ 56))

/-- A tier-1 access of an engine or a Pump stays within the stacks of its field die (R232). -/
def stackOk (die o len : Nat) : Bool := o / 2 ^ 36 / 2 == die && (o + len - 1) / 2 ^ 36 / 2 == die

/-- An engine's own-polder memory requests (R251, R509). -/
def engBy (ctx : BitVec 16) : MemBy := ⟨2, 0, ctx, true, false⟩

/-- The map slots (R346, R351). -/
def Polder.mapSlot (p : Polder) (s : Nat) : MapSlot := SMap.get (fun _ => MapSlot.reset) p.flx.maps s
def Polder.setMapSlot (p : Polder) (s : Nat) (v : MapSlot) : Polder :=
  p.onFlx fun g => { g with maps := SMap.set (fun _ => MapSlot.reset) g.maps s v }

/-- The map of a slot that bears an epoch (R350, R351). -/
def MapSlot.ofEpoch (v : MapSlot) (ep : BitVec 8) : Option ShardMap :=
  [v.cur, v.prev, v.stg].findSome? fun m => m.bind fun m => if m.epoch = ep then some m else none

/-- The entry whose range holds a block (R349). -/
def ShardMap.entry? (m : ShardMap) (b : Nat) : Option MapEntry :=
  m.entries.find? fun e => e.first ≤ b && b < e.first + e.count

/-- A gradient's target with the bytes left in its range (R349). -/
def ShardMap.grad (m : ShardMap) (loff : Nat) : Option (W64 × Nat) :=
  (m.entry? (loff / 1024)).map fun e =>
    (e.grad + BitVec.ofNat 64 (loff - 1024 * e.first), 1024 * (e.first + e.count) - loff)

/-- A high half's address with the bytes left in its range; none where non-owners never read it (R348,
R349). -/
def ShardMap.high (m : ShardMap) (loff : Nat) : Option (W64 × Nat) :=
  (m.entry? (loff / 512)).bind fun e =>
    if e.high = 0 then none
    else some (e.high + BitVec.ofNat 64 (loff - 512 * e.first), 512 * (e.first + e.count) - loff)

/-- The epoch a REDUCE_WRITE descriptor carries when its first beat arrives (R199, R350). -/
def Polder.epochFor (p : Polder) (d : Desc) : BitVec 8 :=
  ((p.mapSlot (if d.map then bitsN d.addr 61 3 else 0)).cur.map (·.epoch)).getD 0

/-- REDUCE_WRITEs outstanding under an epoch of a slot (R353, R359). -/
def Polder.countPend (p : Polder) (slot : Nat) (ep : BitVec 8) (up : Bool) : Polder :=
  let v := p.mapSlot slot
  let n := SMap.get (fun _ => 0) v.pend ep.toNat
  p.setMapSlot slot { v with pend := SMap.set (fun _ => 0) v.pend ep.toNat (if up then n + 1 else n - 1) }

/-- A stash descriptor's place in tier 1 (R201): none where its pass has no entry. -/
def Polder.stashPlace (p : Polder) (d : Desc) (pass : Nat) (out : Bool) : Option Nat :=
  match p.grid.pipe with
  | none => none
  | some r => (r.stashAt (bitsN d.addr 0 9) pass out).map fun a => a + bitsN d.addr 16 32

/-- The walk of a descriptor pins its image (R216, R220): the descriptor with its pin, or the fault. -/
def Polder.startWalk (p : Polder) (x : PolCtx) (d : Desc) : Option (Polder × Desc) :=
  if !(x.isOwn p d.addr && gaTier d.addr == 1) then none
  else match p.pin (gaOff d.addr) d.aux with
    | none => none
    | some (q, a) =>
      match q.mem.image? a with
      | none => none
      | some i =>
        let n := d.total
        let len := ptesLen i.ptes
        let good := if i.ringLen = 0 then d.aux + n ≤ len else n ≤ i.ringLen && len == i.ringLen
        if good then some (q, { d with pin := some a }) else none

/-- The entry and the place in its page of a logical byte (R216). -/
def KvImage.find (i : KvImage) (o : Nat) : Option (Pte × Nat) :=
  let o := if i.ringLen = 0 then o else o % i.ringLen
  ((withStarts 0 i.ptes).find? fun e => e.1 ≤ o && o < e.1 + e.2.size).map fun e => (e.2, o - e.1)

/-- A walk reads a page from a lower tier, or touches it (R217, R225). -/
def Polder.walkPage (p : Polder) (e : Pte) : Polder :=
  let p := match SMap.find? p.mem.refs e.refIdx with
    | some r => p.setRef e.refIdx (some { r with lastTide := BitVec.ofNat 32 p.tide })
    | none => p
  if e.spilled then (p.count (SPWKV + 0x88) 1).raise SPWKV 3 else p

end Sys2Proof.Machine
end

