-- ==== Sys2Proof/Machine/Intake.lean ====
section
/-! DEFINITION. Rings, the descriptor queue, arming and stopping, and the Intake engines (R175 to R197).
Readings and choices: log 19, 25, 26. -/

namespace Sys2Proof.Machine

/-- RING_TAIL_WRITE (R175, R400). -/
def execRingTailWrite (e : EngId) (w : Who) (v : W32) (s : State) : Host.Outcome State Fault Refusal :=
  .next (s.writeEng e 0x50 w fun _ p =>
    let g := p.eng e.key
    (p.wr (ENGP e.key + 0x50) v).setEng e.key ({ g with published := g.published ++ [(v, w.ctx)] }.touchedBy w.ctx))

/-- The address of ring entry `i` (R175). -/
def Polder.ringAddr (p : Polder) (e : Nat) (i : W32) : W64 :=
  let base := p.pair (ENGP e + 0x40) &&& 0xFFFFFFFFFFFFFE00#64
  base + BitVec.ofNat 64 (64 * (i.toNat % 2 ^ bitsN (p.rd (ENGP e + 0x48)) 0 5))

/-- A ring entry lies where the engine may read it (R175, R176, R232). -/
def Polder.ringOk (p : Polder) (x : PolCtx) (e : Nat) (i : W32) : Bool :=
  let a := p.ringAddr e i
  x.isOwn p a && (gaTier a == 2 || (gaTier a == 1 && stackOk (e / 16) (gaOff a) 64))

/-- A burst of up to 8 descriptors starts (R176, R177). -/
def Polder.fetchBurst (p : Polder) (x : PolCtx) (e : Nat) : Polder :=
  let v := p.eng e
  let n := min 8 (min (p.rd (ENGP e + 0x50) - v.head).toNat (256 - v.descs.length))
  if !v.works || v.burst.isSome || 64 ≤ v.reqs.length || n = 0 then p
  else if (List.range n).all fun k => p.ringOk x e (v.head + BitVec.ofNat 32 k) then
    p.setEng e { v with burst := some (v.head, n), head := v.head + BitVec.ofNat 32 n }
  else p.engFault e Status.addressInvalid 0 v.head

/-- DESC_BURST_FETCH (R176). -/
def execDescBurstFetch (e : EngId) (s : State) : Host.Outcome State Fault Refusal :=
  .next (s.onEng e fun x p => p.fetchBurst x e.key)

/-- What a read of an engine met is counted, and one that failed faults it (R194): whether it is well. -/
def Polder.noteRead (p : Polder) (e : Nat) (st : Status) (deferred : Bool) (replays : Nat) (twice : Bool)
    (index : W32) (addr : W64) : Polder × Bool :=
  let intake := e % 16 < 8
  let pg := ENGP e
  let p := if intake && replays ≠ 0 then (p.count (pg + 0x7C) replays 0 16).raise pg 2 else p
  let p := if intake && deferred then p.count (pg + 0x84) 1 else p
  if st = Status.done then (p, true)
  else if intake && twice then ((p.count (pg + 0x7C) 1 16 16).engFault e st 3 index addr, false)
  else (p.engFault e st 0 index addr, false)

/-- The descriptors of a burst in turn; the first read that fails faults the engine. -/
def Polder.landBurst (x : PolCtx) (e : Nat) : Nat → W32 → Polder → Polder
  | 0, _, p => p
  | n + 1, i, p =>
    let v := p.eng e
    let a := p.ringAddr e i
    let r := p.memRead x (engBy v.ctx) (gaTier a) (gaOff a) 64
    match r.p.noteRead e r.st r.deferred r.extra (r.st = Status.dataUncorrectable) i a with
    | (p, false) => p
    | (p, true) =>
      let v := p.eng e
      let d : Desc :=
        { num := v.next, index := i, bits := wordOf 512 r.data, pos := .queued, ctx := v.publisher i
          asked := 0, landed := 0, sent0 := 0, sent1 := 0, done := 0, pend := 0, waited := false
          signalled := false, epoch := 0, pin := none, walked := false, since := 0 }
      Polder.landBurst x e n (i + 1) (p.setEng e { v with descs := v.descs ++ [d], next := v.next + 1 })

/-- DESC_BURST_LANDED (R177): descriptors that land while the engine ends or stops are dropped. -/
def execDescBurstLanded (e : EngId) (s : State) : Host.Outcome State Fault Refusal :=
  .next (s.onEng e fun x p =>
    let v := p.eng e.key
    match v.burst with
    | none => p
    | some (i, n) =>
      let p := p.setEng e.key { v with burst := none }
      if v.works then
        let p := Polder.landBurst x e.key n i p
        let v := p.eng e.key
        p.setEng e.key { v with published := v.published.filter fun q =>
          let d := (q.1 - v.head).toNat
          1 ≤ d && d < 2 ^ 31 }
      else p)

/-- A field of a descriptor's bits replaced. -/
def putBits (b : BitVec 512) (lo w v : Nat) : BitVec 512 :=
  (b &&& ~~~(BitVec.ofNat 512 ((2 ^ w - 1) <<< lo))) ||| BitVec.ofNat 512 ((v % 2 ^ w) <<< lo)

/-- The bits of a re-run descriptor (R202); an Outfall descriptor has no TIDE to advance (R198). -/
def Rep.bits (r : Rep) (out : Bool) (b : BitVec 512) : BitVec 512 :=
  let b := if out then b else putBits b 32 32 ((Sys2Proof.bits b 32 32).toNat + r.iter * r.tideStep.toNat)
  if b.getLsbD 6 then putBits b 64 64 ((Sys2Proof.bits b 64 64).toNat + r.iter * r.addrStep.toNat) else b

/-- The next re-run descriptor of a REPEAT, and how the REPEAT stands then (R202). -/
def Rep.next (r : Rep) (out : Bool) : Option (W32 × BitVec 512 × Option Rep) :=
  (r.descs[r.place]?).map fun q =>
    let place := r.place + 1
    let r' := if place < r.descs.length then some { r with place := place }
      else if r.iter < r.count then some { r with place := 0, iter := r.iter + 1 }
      else none
    (q.1, r.bits out q.2, r')

/-- A descriptor takes its place behind those that have left the queued position. -/
def insertDesc (d : Desc) (l : List Desc) : List Desc :=
  (l.filter fun c => c.pos ≠ .queued) ++ d :: l.filter fun c => c.pos = .queued

/-- A REPEAT begins: its descriptors are those before it in the ring, and none may be a REPEAT (R202). -/
def Polder.startRepeat (p : Polder) (e : Nat) (d : Desc) : Polder :=
  let v := p.eng e
  let back := bitsN d.bits 160 16
  let l := v.past.drop (v.past.length - back)
  if v.past.length < back || l.any fun q => bitsN q.2 0 4 == 0xF then p.engFault e Status.internal 0 d.index
  else
    let r : Rep :=
      { descs := l, tideStep := Sys2Proof.bits d.bits 32 32, addrStep := d.addr, count := d.len, iter := 1
        place := 0, index := d.index, ctx := d.ctx }
    p.setEng e { v with descs := v.descs.filter fun c => c.num != d.num, rep := some r
                        past := (v.past ++ [(d.index, d.bits)]).drop (v.past.length + 1 - 255) }

/-- Every row of an OFFLOAD is whole granules of one BITMAP region of own tier 1 or 2 (R200). -/
def Polder.offloadOk (p : Polder) (x : PolCtx) (d : Desc) : Bool :=
  let t := gaTier d.addr
  x.isOwn p d.addr && (t == 1 || t == 2) && d.len % granule == 0 &&
  (List.range d.rows).all fun r =>
    let o := gaOff d.addr + r * d.stride
    o % granule == 0 && (match x.region? p t o with
      | some g => g.bitmap && o + d.len ≤ g.stop
      | none => false)

/-- A descriptor that is in the queue and well formed enters the fetching position (R177, R180, R190, R200,
R220). -/
def Polder.enterDesc (p : Polder) (x : PolCtx) (e : Nat) (d : Desc) (rerun : Bool) : Polder :=
  let out := 8 ≤ e % 16
  let v := p.eng e
  let v := if rerun then v else { v with past := (v.past ++ [(d.index, d.bits)]).drop (v.past.length + 1 - 255) }
  let p := p.setEng e v
  let since := if v.st = .running then p.cycle else 0
  let enter := fun (p : Polder) (d : Desc) =>
    let v := p.eng e
    let d := { d with pos := .fetching, since := since }
    let v := { v with descs := v.descs.map fun c => if c.num = d.num then d else c }
    p.setEng e (if out then v.advance else v)
  if d.conv ≠ 0 && (x.scaleOf p d.tensor).isNone then p.engFault e Status.internal 4 d.index
  else if d.type = 0x3 then
    match p.startWalk x d with
    | some (p, d) => enter p d
    | none => p.engFault e Status.addressInvalid 0 d.index
  else if d.type = 0xA && !d.stash && !p.offloadOk x d then p.engFault e Status.addressInvalid 0 d.index
  else enter p d

/-- The next descriptor in ring order enters the fetching position, once the requests of those before it
have issued (R177, R181, R202). -/
def Polder.enterNext (p : Polder) (x : PolCtx) (e : Nat) : Polder :=
  let out := 8 ≤ e % 16
  let v := p.eng e
  let clear := v.descs.all fun d => d.pos = .queued || out || d.type == 0 || d.asked == d.total
  if !v.works || !clear then p
  else match v.rep with
    | some r =>
      if 256 ≤ v.descs.length then p
      else match r.next out with
        | none => p.setEng e { v with rep := none }
        | some (i, b, r') =>
          let d : Desc :=
            { num := v.next, index := i, bits := b, pos := .queued, ctx := r.ctx, asked := 0, landed := 0, sent0 := 0
              sent1 := 0, done := 0, pend := 0, waited := false, signalled := false, epoch := 0, pin := none
              walked := false, since := 0 }
          let v := { v with
            descs := insertDesc d v.descs, next := v.next + 1, rep := r'
            retired := if r'.isNone then v.retired + 1 else v.retired }
          let p := p.setEng e v
          if d.ok (x.isOwn p d.addr) out then p.enterDesc x e d true else p.engFault e Status.internal 0 i
    | none =>
      match v.descs.find? fun d => d.pos = .queued with
      | none => p
      | some d =>
        if !d.ok (x.isOwn p d.addr) out then p.engFault e Status.internal 0 d.index
        else if d.type = 0xF then p.startRepeat e d
        else p.enterDesc x e d false

/-- DESC_ENTER_FETCHING (R181). -/
def execDescEnterFetching (e : EngId) (s : State) : Host.Outcome State Fault Refusal :=
  .next (s.onEng e fun x p => p.enterNext x e.key)

/-- The probe holds an engine back: an ARM of it is refused (R402). -/
def Polder.probedEngine (p : Polder) (e : Nat) : Bool := p.wdn.probe.st = 1 && p.wdn.probe.eng = e

/-- ARM (R182, R183, R400, R402, R430). -/
def Polder.arm (p : Polder) (e : Nat) (ctx : BitVec 16) : Polder :=
  let v := (p.eng e).touchedBy ctx
  let p := p.setEng e v
  if v.st ≠ .idle || !p.accessOk (e / 16) || p.probedEngine e then p.raise (ENGP e) 5
  else p.setEng e { v with st := .armed, ctx := ctx }

/-- ENGINE_ARM (R182). -/
def execEngineArm (e : EngId) (w : Who) (s : State) : Host.Outcome State Fault Refusal :=
  .next (s.writeEng e 0x0C w fun _ p => p.arm e.key w.ctx)

/-- Pins of descriptors that leave the queue are released. -/
def Polder.unpinAll (p : Polder) (x : PolCtx) (l : List Desc) : Polder :=
  (l.filterMap (·.pin)).foldl (fun p a => p.unpin x a) p

/-- An Outfall engine's free space has changed: it asks the Intake engine of its index to assert HOLD, or
asks no more (R195). -/
def Polder.askHold (p : Polder) (e : Nat) : Polder :=
  if e % 16 < 8 then p
  else
    let i := e - 8
    let f := (p.eng e).free
    let v := p.eng i
    if f < 2048 && !v.outHold then (p.setEng i { v with outHold := true }).raise (ENGP e) 1
    else if 4096 ≤ f && v.outHold then p.setEng i { v with outHold := false }
    else p

/-- STOP (R183, R203): a FAULTED engine stays as it is. -/
def Polder.stopEngine (p : Polder) (x : PolCtx) (e : Nat) : Polder :=
  let v := p.eng e
  if v.st = .faulted || v.st = .stopped then p
  else
    let gone := v.descs
    let p := p.putEng e { v with
      descs := [], rep := none, stopping := true, holdReq := false
      buf := if 8 ≤ e % 16 then [] else v.buf }
    ((p.unpinAll x gone).askHold e).updateHold

/-- ENGINE_STOP (R203). -/
def execEngineStop (e : EngId) (w : Who) (s : State) : Host.Outcome State Fault Refusal :=
  .next (s.writeEng e 0x0C w fun x p => p.stopEngine x e.key)

/-- Nothing of an engine is in flight. -/
def Eng.quiet (v : Eng) : Bool := v.reqs.isEmpty && v.burst.isNone && v.txns.isEmpty

/-- ENGINE_STOPPED (R203). -/
def execEngineStopped (e : EngId) (s : State) : Host.Outcome State Fault Refusal :=
  .next (s.onEng e fun _ p =>
    let v := p.eng e.key
    if v.stopping && v.quiet then
      (p.putEng e.key { v with st := .stopped, stopping := false, ending := false, buf := [] }).askHold e.key
    else p)

/-- ENGINE_IDLE (R182). -/
def execEngineIdle (e : EngId) (s : State) : Host.Outcome State Fault Refusal :=
  .next (s.onEng e fun x p =>
    let v := p.eng e.key
    if v.ending && v.st = .running && v.quiet && (!e.out || v.buf.isEmpty) then
      let p := p.putEng e.key { v with
        st := .idle, ending := false, descs := [], buf := [], base := none, users := [], holdReq := false, last := [] }
      ((p.unpinAll x v.descs).askHold e.key).updateHold
    else p)

/-- ENGINE_SEM_INCREMENT (R110, R186): increments arrive during HOLD too. -/
def execEngineSemIncrement (e : EngId) (sem : Fin 16) (n : Byte) (s : State) : Host.Outcome State Fault Refusal :=
  .next (if !s.mod.powered e.p then s
  else if (s.pol e.p).engDown e.key then s.standIn e.p
  else s.onPol e.p fun _ p =>
    let p := match takeIncr true e.key sem.val n.toNat p.grid.incrs with
      | some (i, rest) =>
        let p := p.onGrid fun g => { g with incrs := rest }
        if p.grid.hold.frozen then p else p.reach i.visible
      | none => p
    let v := p.eng e.key
    let t := v.sem sem.val + n.toNat
    if 255 < t then (p.setEng e.key (v.setSem sem.val 255)).engFault e.key Status.internal 0 v.oldest
    else p.setEng e.key (v.setSem sem.val t))

/-- Slots an injection table reserves for a circuit (R101, R188). -/
def Polder.injEntry (p : Polder) (e slot : Nat) : BitVec 16 :=
  Sys2Proof.bits (p.rd (ENGP e + 0x100 + 4 * (slot / 2))) (16 * (slot % 2)) 16

def Polder.injSlots (p : Polder) (e circ : Nat) : List Nat :=
  (List.range 64).filter fun k => reserves (p.injEntry e k) circ

/-- The cycle in which beat `k` of an emission on a circuit leaves (R188). -/
def Polder.dueOf (p : Polder) (e : Nat) (v : Eng) (d : Desc) (circ k : Nat) : Option Nat :=
  match v.base with
  | none => none
  | some b =>
    let l := p.injSlots e circ
    let i := (l.filter (· < d.slot)).length + k
    (l[i % l.length]?).map fun s => 64 * (b + d.tide + i / l.length) + s

/-- Delivered bytes of a descriptor from one place on, if they are in the buffer. -/
def Eng.bytesAt (v : Eng) (num at_ len : Nat) : Option (List Byte) :=
  (v.buf.find? fun c => c.desc == num && c.at_ ≤ at_ && at_ + len ≤ c.at_ + c.data.length).map fun c =>
    (c.data.drop (at_ - c.at_)).take len

/-- An 8 × 8 block of bytes transposed (R189). -/
def transposeBlock (b : List Byte) : List Byte :=
  (List.range 64).map fun i => (b[8 * (i % 8) + i / 8]?).getD 0

/-- Beat `k` of an emission: the first of a READ_TRANSPOSE is transposed (R189). -/
def Eng.beat (v : Eng) (d : Desc) (second : Bool) (k : Nat) : Option (List Byte) :=
  if d.type = 0x2 && !second then
    match v.bytesAt d.num (64 * (k / 2)) 32, v.bytesAt d.num (64 * (k / 2) + 32) 32 with
    | some a, some b => some (((transposeBlock (a ++ b)).drop (32 * (k % 2))).take 32)
    | _, _ => none
  else v.bytesAt d.num (32 * k) 32

/-- The emissions of a descriptor: circuit, whether it is the second, beats sent (R188). -/
def Desc.emissions (d : Desc) : List (Nat × Bool × Nat) :=
  (d.circ, false, d.sent0) :: if d.dual then [(d.circ2, true, d.sent1)] else []

/-- Beats of each emission (R181). -/
def Desc.beats (d : Desc) : Nat := d.delivered / 32

/-- A beat that its schedule injects within 42 cycles is not in the buffer (R195). -/
def Polder.missing (p : Polder) (e : Nat) : Bool :=
  let v := p.eng e
  v.runs && v.descs.any fun d =>
    1 ≤ d.type && d.type ≤ 3 && d.emissions.any fun m =>
      (List.range (min 43 (d.beats - m.2.2))).any fun j =>
        let k := m.2.2 + j
        (match p.dueOf e v d m.1 k with
          | some t => decide (t ≤ p.cycle + 42)
          | none => false) && (v.beat d m.2.1 k).isNone

/-- The HOLD request of an Intake engine in this cycle (R195). -/
def Polder.holdTest (p : Polder) (e : Nat) : Polder :=
  let v := p.eng e
  let want := v.outHold || p.missing e
  if want then
    let p := if v.holdReq then p else (p.count (ENGP e + 0x74) 1).raise (ENGP e) 1
    ((p.count (ENGP e + 0x78) 1).setEng e { v with holdReq := true }).updateHold
  else if v.holdReq then (p.setEng e { v with holdReq := false }).updateHold
  else p

/-- INTAKE_HOLD_REQUEST (R195). -/
def execIntakeHoldRequest (e : EngId) (s : State) : Host.Outcome State Fault Refusal :=
  .next (s.onEng e fun _ p => if e.out then p else p.holdTest e.key)

/-- A request withdrawn: what it waited for has come. -/
def Polder.holdEnds (p : Polder) (e : Nat) : Polder :=
  let v := p.eng e
  if v.holdReq && !v.outHold && !p.missing e then (p.setEng e { v with holdReq := false }).updateHold else p

/-- The weight gate of a descriptor is open (R173, R197). -/
def Polder.handOpen (p : Polder) (d : Desc) : Bool :=
  !d.handEn || match p.grid.pipe with
    | none => true
    | some r => handMeets (p.handSeq d.hand) (p.handDone d.hand) r.handSeq (BitVec.ofNat 32 (d.chunk + 1))

/-- Where a request reads: own tier 1, 2 or 3 by tier and offset, the fabric by address, a walk by its
logical offset, or nothing but zeros (R190, R197, R201). -/
inductive Source where
  | own (tier off : Nat)
  | fabric (a : W64)
  | walk (image at_ : Nat)
  | zeros
  | bad
  deriving DecidableEq, Repr

/-- The source of an address (R229). -/
def PolCtx.source (x : PolCtx) (p : Polder) (a : W64) : Source :=
  let t := gaTier a
  if 5 ≤ t then .bad
  else if !x.isOwn p a || t = 4 then .fabric a
  else if t = 0 then .bad
  else .own t (gaOff a)

/-- The next request of a descriptor: where it reads and how many source bytes (R185, R190, R201, R216, R317,
R349, R350). -/
def Polder.nextSource (p : Polder) (x : PolCtx) (d : Desc) : Source × Nat :=
  let row := d.asked / d.len
  let o := d.asked % d.len
  let n := min 512 (d.len - o)
  let rel := row * d.stride + o
  if d.stash then
    let pass := match p.grid.pipe with
      | some r => d.tide / r.period
      | none => 0
    (match p.stashPlace d pass false with
      | some a => .own 1 (a + rel)
      | none => .zeros, n)
  else if d.type = 0x3 then
    match d.pin.bind p.mem.image? with
    | none => (.bad, n)
    | some i =>
      let at_ := d.aux + d.asked
      match i.find at_ with
      | none => (.bad, n)
      | some (e, k) =>
        let left := (e.size - k) / 64 * 64
        (.walk i.addr at_, min (min 512 (d.total - d.asked)) (if left = 0 then 64 else left))
  else
    let cut := fun (a : W64) (n : Nat) =>
      match x.source p a with
      | .fabric a => (Source.fabric a, min n (512 - a.toNat % 512))
      | r => (r, n)
    if d.map then
      match (p.mapSlot (bitsN d.addr 61 3)).cur.bind fun m => m.high ((bitsN d.addr 0 48 + rel) % 2 ^ 48) with
      | some (a, left) => cut a (min n left)
      | none => (.bad, n)
    else cut (d.addr + BitVec.ofNat 64 rel) n

/-- The parts of a walk's bytes by page: tier, offset, length (R216). -/
def KvImage.parts (i : KvImage) : Nat → Nat → Nat → List (Pte × Nat × Nat)
  | 0, _, _ => []
  | n + 1, o, stop =>
    if stop ≤ o then []
    else match i.find o with
      | none => []
      | some (e, k) =>
        let m := min (stop - o) (e.size - k)
        (e, k, m) :: KvImage.parts i n (o + m) stop

/-- The bridge takes a read of own tier 3: it waits there, or is answered at once while the host path is
down (R252, R253, R486). -/
def Polder.askHost (p : Polder) (x : PolCtx) (off len : Nat) (who : T3For) (deferred : Bool) : Polder × Option ReadReply :=
  if x.mod.keeper = .ready && x.mod.perst != 0 then (p.onMem fun m => { m with tier3 := m.tier3 ++ [⟨off, len, who, deferred, [], [], 0⟩] }, none)
  else (p, some ⟨Status.refusedBusy, false, []⟩)

/-- A read of own tier 1 to 3 is admitted: the code it ends with at once, or whether it is DEFERRED (R232,
R239, R251). -/
def Polder.admitRead (p : Polder) (x : PolCtx) (ctx : BitVec 16) (die t o n : Nat) : Polder × Except Status Bool :=
  if !x.memOk p t o n || (t == 1 && !stackOk die o n) then (p, .error Status.addressInvalid)
  else match p.admitBw x (engBy ctx) t n with
    | (p, none) => (p, .error Status.refusedQuota)
    | (p, some d) => (p, .ok d)

/-- The READ an Intake engine sends (R185, R333). -/
def readTxn (a : W64) (len : Nat) (ctx : BitVec 16) : Txn :=
  { op := opRead, mod := 0, tinc := 0, tag := 0, len := BitVec.ofNat 10 len, epoch := 0, rinc := 0, chk := false
    deferred := false, status := 0, addr := a, ctx := ctx, opnd := 0, src := 0, dst := 0, cls := .guaranteed
    data := [] }

/-- A request goes to its tier; one that cannot names the code the engine faults with (R185, R190, R194). -/
def Polder.sendReq (p : Polder) (x : PolCtx) (e : Nat) (q : EngReq) (src : Source) : Polder × Except Status EngReq :=
  let ctx := (p.eng e).ctx
  let own := fun (p : Polder) (t o n : Nat) =>
    match p.admitRead x ctx (e / 16) t o n with
    | (p, .error st) => (p, Except.error st)
    | (p, .ok d) =>
      if t = 3 && p.mem.onHost o then
        match p.askHost x o n (.engine e q.desc q.at_) d with
        | (p, a) => (p, .ok { q with deferred := d, answer := a })
      else (p, .ok { q with deferred := d })
  match src with
  | .own t o => own p t o q.len
  | .fabric a =>
    match p.request x (readTxn a q.len ctx) (.engine e) with
    | (p, .ok tag) => (p, .ok { q with tag := some tag })
    | (p, .error st) => (p, .ok { q with answer := some ⟨st, false, []⟩ })
  | .walk a at_ =>
    match p.mem.image? a with
    | none => (p, .error Status.addressInvalid)
    | some i =>
      (i.parts 17 at_ (at_ + q.len)).foldl (fun r c =>
        match r with
        | (p, .error st) => (p, .error st)
        | (p, .ok q') =>
          let p := if c.2.1 = 0 || at_ = 0 || q.at_ = 0 then p.walkPage c.1 else p
          match own p (gaTier c.1.base) (gaOff c.1.base + c.2.1) c.2.2 with
          | (p, .error st) => (p, .error st)
          | (p, .ok q'') => (p, .ok { q' with
              deferred := q'.deferred || q''.deferred, answer := if q'.answer.isSome then q'.answer else q''.answer }))
        (p, .ok q)
  | .zeros => (p, .ok q)
  | .bad => (p, .error Status.addressInvalid)

/-- The kind of source a request bears: 0 a walk, else its tier (R185). -/
def Source.tier : Source → Nat
  | .own t _ => t
  | .fabric _ => 4
  | .walk _ _ => 0
  | .zeros | .bad => 5

/-- Its address: a tier offset, a global address, or a logical offset with the image above it. -/
def Source.addr : Source → W64
  | .own _ o => BitVec.ofNat 64 o
  | .fabric a => a
  | .walk i o => BitVec.ofNat 64 (i * 2 ^ 24 + o % 2 ^ 24)
  | .zeros | .bad => 0

/-- The fetch side issues the next request of the descriptor that fetches (R177, R184, R185). -/
def Polder.issueReq (p : Polder) (x : PolCtx) (e : Nat) (d : Desc) : Polder :=
  let s := p.nextSource x d
  let v := p.eng e
  let at_ := d.asked / d.ratio
  let out := (d.asked + s.2) / d.ratio - at_
  let d' := { d with asked := d.asked + s.2 }
  let put := fun (v : Eng) (d : Desc) => { v with descs := v.descs.map fun c => if c.num = d.num then d else c }
  if 64 ≤ v.reqs.length + bit01 v.burst.isSome || v.space < out then p
  else if s.1 = .zeros then
    p.putEng e (put { v with buf := v.buf ++ [⟨d.num, at_, List.replicate out 0⟩] } { d' with landed := d.landed + out })
  else
    let q : EngReq :=
      { desc := d.num, at_ := at_, out := out, tier := s.1.tier, addr := s.1.addr, len := s.2, retry := false
        deferred := false, tag := none, answer := none }
    match p.sendReq x e q s.1 with
    | (p, .error st) => p.engFault e st 0 d.index
    | (p, .ok q) =>
      let v := p.eng e
      p.putEng e (put { v with reqs := v.reqs ++ [q] } d')

/-- The descriptor whose requests issue next. -/
def Eng.fetching (v : Eng) : Option Desc :=
  v.descs.find? fun d => d.pos ≠ .queued && d.type != 0 && d.asked < d.total

/-- INTAKE_REQUEST_ISSUE (R185). -/
def execIntakeRequestIssue (e : EngId) (s : State) : Host.Outcome State Fault Refusal :=
  .next (s.onEng e fun x p =>
    let v := p.eng e.key
    if e.out || !v.works then p
    else match v.fetching with
      | some d => if d.asked ≠ 0 || p.handOpen d then p.issueReq x e.key d else p
      | none => p)

/-- HAND_GATE_WAIT_END: a descriptor that waited under R173 issues its first request (R197). -/
def execHandGateWaitEnd (e : EngId) (s : State) : Host.Outcome State Fault Refusal :=
  .next (s.onEng e fun x p =>
    let v := p.eng e.key
    if e.out || !v.works then p
    else match v.fetching with
      | some d => if d.handEn && d.asked = 0 && p.handOpen d then p.issueReq x e.key d else p
      | none => p)

/-- Data of own tiers, part by part: the first part that fails ends the read; parts that the bridge has read
take its bytes in turn. -/
def Polder.readParts (x : PolCtx) (by_ : MemBy) : List (Nat × Nat × Nat) → Polder → List Byte → List Byte → Nat → MemRes
  | [], p, _, acc, n => ⟨p, Status.done, false, acc, n⟩
  | (t, o, len) :: r, p, host, acc, n =>
    if t = 3 && p.mem.onHost o then Polder.readParts x by_ r p (host.drop len) (acc ++ host.take len) n
    else
      let m := p.fetchData x by_ t o len
      if m.st ≠ Status.done then { m with extra := n + m.extra }
      else Polder.readParts x by_ r m.p host (acc ++ m.data) (n + m.extra)

/-- The own-polder parts of a request. -/
def Polder.reqParts (p : Polder) (q : EngReq) : List (Nat × Nat × Nat) :=
  if q.tier = 0 then
    match p.mem.image? (q.addr.toNat / 2 ^ 24) with
    | some i =>
      let at_ := q.addr.toNat % 2 ^ 24
      (i.parts 17 at_ (at_ + q.len)).map fun c => (gaTier c.1.base, gaOff c.1.base + c.2.1, c.2.2)
    | none => []
  else if q.tier ≤ 3 then [(q.tier, q.addr.toNat, q.len)] else []

/-- A request waits for an answer of the bridge or of the fabric engine. -/
def Polder.reqWaits (p : Polder) (q : EngReq) : Bool :=
  q.tier = 4 || q.answer.isSome || (p.reqParts q).any fun c => c.1 == 3 && p.mem.onHost c.2.1

/-- A request's data lands (R194, R197). -/
def Polder.landReq (p : Polder) (x : PolCtx) (e i : Nat) (q : EngReq) (r : ReadReply) : Polder :=
  let v := p.eng e
  let gone := { v with reqs := v.reqs.eraseIdx i }
  match v.works, v.descs.find? fun d => d.num == q.desc with
  | true, some d =>
    let waits := p.reqWaits q
    if waits && q.answer ≠ some r then p
    else if waits && r.status = Status.refusedBusy then
      (p.count (ENGP e + 0x80) 1).setEng e { v with reqs := v.reqs.set i { q with retry := true, answer := none, tag := none } }
    else
      let m : MemRes :=
        if waits && r.status ≠ Status.done then ⟨p, r.status, r.deferred, [], 0⟩
        else if q.tier = 4 then ⟨p, Status.done, r.deferred, r.data, 0⟩
        else { Polder.readParts x (engBy v.ctx) (p.reqParts q) p r.data [] 0 with deferred := q.deferred || r.deferred }
      let twice := !waits && m.st = Status.dataUncorrectable
      let p := m.p.setEng e gone
      match p.noteRead e m.st m.deferred m.extra twice d.index q.addr with
      | (p, false) => p
      | (p, true) =>
        match x.scaleOf p (if d.conv = 0 then 0xFFFF else d.tensor) with
        | none => p.engFault e Status.internal 4 d.index
        | some t =>
          let raw := m.data ++ List.replicate (q.len - m.data.length) 0
          let data := (convertBytes d.conv d.rnd t (raw.take q.len)).take q.out
          let data := data ++ List.replicate (q.out - data.length) 0
          let v := p.eng e
          let n := d.landed + q.out
          let d' := { d with landed := n, walked := d.pin.isSome && d.delivered ≤ n }
          (p.putEng e { v with
            buf := v.buf ++ [⟨d.num, q.at_, data⟩]
            descs := v.descs.map fun c => if c.num = d.num then d' else c }).holdEnds e
  | _, _ => p.putEng e gone

/-- INTAKE_DATA_LANDED (R193, R194): data of own tiers 1 and 2 is what memory holds; data of tiers 3 and 4 is
what the bridge or the fabric engine has handed over. -/
def execIntakeDataLanded (e : EngId) (i : Nat) (r : ReadReply) (s : State) : Host.Outcome State Fault Refusal :=
  if 512 < r.data.length then .fault .illFormed
  else .next (s.onEng e fun x p =>
    match (p.eng e.key).reqs[i]? with
    | some q => if e.out || q.retry || (p.eng e.key).probing then p else p.landReq x e.key i q r
    | none => p)

/-- INTAKE_RETRY_TIMER (R194). -/
def execIntakeRetryTimer (e : EngId) (i : Nat) (s : State) : Host.Outcome State Fault Refusal :=
  .next (s.onEng e fun x p =>
    let v := p.eng e.key
    match v.reqs[i]? with
    | some q =>
      if e.out || !q.retry then p
      else if !v.works then p.putEng e.key { v with reqs := v.reqs.eraseIdx i }
      else
        let src := if q.tier = 4 then Source.fabric q.addr
          else if q.tier = 0 then .walk (q.addr.toNat / 2 ^ 24) (q.addr.toNat % 2 ^ 24)
          else .own q.tier q.addr.toNat
        match p.sendReq x e.key { q with retry := false } src with
        | (p, .error st) =>
          let index := ((v.descs.find? fun d => d.num == q.desc).map (·.index)).getD v.head
          p.engFault e.key st 0 index
        | (p, .ok q) => p.setEng e.key { p.eng e.key with reqs := v.reqs.set i q }
    | none => p)

/-- Space whose beats have all left is freed (R184). -/
def Eng.release (v : Eng) (d : Desc) : Eng :=
  let a := if d.type = 0x2 then d.sent0 / 2 * 2 else d.sent0
  let c := 32 * (if d.dual then min a d.sent1 else a)
  { v with buf := v.buf.filter fun b => b.desc != d.num || c < b.at_ + b.data.length }

/-- The test of a first beat: its slot has not passed, nothing emits on its circuit, its credit is there
(R186, R188). The answer is the engine with the credit taken. -/
def Eng.firstBeat (v : Eng) (d : Desc) (circ due : Nat) : Option (Eng × Desc) :=
  if due < d.since || due < SMap.get (fun _ => 0) v.last circ then none
  else if d.waitEn && !d.waited then
    if v.sem d.waitSem < d.waitN then none
    else some (v.setSem d.waitSem (v.sem d.waitSem - d.waitN), { d with waited := true })
  else some (v, d)

/-- A beat leaves in its slot and enters its router two slots on (R99, R100, R188). -/
def Polder.emitBeat (p : Polder) (e circ : Nat) : Polder :=
  let v := p.eng e
  let want := fun (d : Desc) => d.pos ≠ .queued && d.type != 0 &&
    d.emissions.any fun m => m.1 == circ && m.2.2 < d.beats
  match v.descs.find? want with
  | none => p
  | some d =>
    match d.emissions.find? fun m => m.1 == circ && m.2.2 < d.beats with
    | none => p
    | some (_, second, k) =>
      match p.dueOf e v d circ k, v.beat d second k with
      | some due, some bs =>
        match (if k = 0 then v.firstBeat d circ due else some (v, d)) with
        | none => p.engFault e Status.steerLate 0 d.index
        | some (v, d) =>
          let d := if second then { d with pos := .executing, sent1 := k + 1 }
            else { d with pos := .executing, sent0 := k + 1 }
          let v : Eng := { v with
            descs := v.descs.map fun (c : Desc) => if c.num = d.num then d else c
            last := SMap.insert v.last circ (due + 1) }
          let p := (p.putEng e (v.release d)).reach due
          p.onGrid fun g => { g with beats := g.beats ++
            [{ cell := engCell e, inp := 5, circ := circ, cls := bitsN (p.injEntry e (due % 64)) 10 2
               data := wordOf 256 bs, arrive := due + 2 }] }
      | _, _ => p

/-- INTAKE_BEAT_EMIT (R188). -/
def execIntakeBeatEmit (e : EngId) (circ : Fin 8) (s : State) : Host.Outcome State Fault Refusal :=
  .next (s.onEng e fun _ p =>
    if e.out || !(p.eng e.key).runs || p.grid.hold.frozen then p else p.emitBeat e.key circ.val)

end Sys2Proof.Machine
end

