-- ==== Sys2Proof/Machine/Outfall.lean ====
section
/-! DEFINITION. Retirement, the Outfall engines and the HBM access schedule (R186, R187, R191, R192, R198 to
R201). Readings and choices: log 19, 26. -/

namespace Sys2Proof.Machine

/-- A descriptor's last beat has moved and its writes are done (R179, R187). -/
def Eng.retirable (v : Eng) (out : Bool) (d : Desc) : Bool :=
  if d.type = 0 then
    v.runs && (if out then d.pos = .executing else
      d.pos ≠ .queued && (v.descs.takeWhile fun c => c.num != d.num).all fun c => c.pos = .executing)
  else if out then d.pos = .executing && d.landed == d.total && d.done == d.total && d.pend == 0
  else d.pos = .executing && d.sent0 == d.beats && (!d.dual || d.sent1 == d.beats)

/-- DESC_RETIRE (R187, R203): the first descriptor in ring order that can. -/
def execDescRetire (e : EngId) (s : State) : Host.Outcome State Fault Refusal :=
  .next (s.onEng e fun x p =>
    let v := p.eng e.key
    if v.st ≠ .running || v.stopping then p
    else match v.descs.find? (v.retirable e.out) with
      | none => p
      | some d =>
        let p := if d.sigEn && !d.signalled then p.signal e.key p.cycle d else p
        (p.retireDesc e.key d.num).unpinAll x [d])

/-- A descriptor replaced by its new self. -/
def Eng.putDesc (v : Eng) (d : Desc) : Eng :=
  { v with descs := v.descs.map fun c => if c.num = d.num then d else c }

/-- The pass under way (R153). -/
def Polder.passNow (p : Polder) : Nat := (p.grid.pipe.map (·.pass)).getD 0

/-- A beat goes to the oldest executing descriptor of its circuit, or is an orphan (R184, R195, R198). -/
def Polder.takeBeat (p : Polder) (e : Nat) (b : EdgeBeat) : Polder :=
  let v := p.eng e
  let want := fun (d : Desc) => d.pos = .executing && d.type != 0 && d.circ == b.circ && d.landed < d.total
  match (if v.runs then v.descs.find? want else none) with
  | none =>
    if v.ending || v.stopping then p
    else (p.count (ENGP e + 0x90) 1).engFault e Status.internal 3 v.oldest
  | some d =>
    let d := if d.landed = 0 then { d with epoch := p.epochFor d, asked := p.passNow } else d
    let v := { v with buf := v.buf ++ [Chunk.mk d.num d.landed (bytesOf b.data 32)] }
    let v := v.putDesc { d with landed := d.landed + 32 }
    (p.putEng e v.advance).askHold e

/-- OUTFALL_BEAT_TAKE (R198). -/
def execOutfallBeatTake (e : EngId) (s : State) : Host.Outcome State Fault Refusal :=
  .next (s.onEng e fun _ p =>
    if !e.out then p
    else match takeFirst (fun (b : EdgeBeat) => b.eng == e.key) p.grid.edge with
      | none => p
      | some (b, rest) => (p.onGrid fun g => { g with edge := rest }).takeBeat e.key b)

/-- OUTFALL_WAIT_RELEASE (R186). -/
def execOutfallWaitRelease (e : EngId) (s : State) : Host.Outcome State Fault Refusal :=
  .next (s.onEng e fun _ p =>
    let v := p.eng e.key
    let want := fun (d : Desc) => d.pos = .executing && d.type != 0 && d.waitEn && !d.waited && d.waitN ≤ v.sem d.waitSem
    if !e.out || v.st ≠ .running || v.stopping then p
    else match v.descs.find? want with
      | none => p
      | some d => p.setEng e.key ((v.setSem d.waitSem (v.sem d.waitSem - d.waitN)).putDesc { d with waited := true }))

/-- Where a piece of an Outfall descriptor goes (R198 to R201, R229). -/
inductive Sink where
  | own (tier off : Nat)
  | fabric (a : W64)
  /-- a stash descriptor without an entry discards its beats (R201) -/
  | drop
  | bad
  deriving DecidableEq, Repr

/-- Target bytes of a REDUCE_WRITE for each byte of its source (R199, R317). -/
def Desc.widen (d : Desc) : Nat := if d.type = 0x9 && !d.src32 then 2 else 1

/-- Where the next piece of a descriptor goes, and how long it may be (R198 to R201, R317, R349, R350). -/
def Polder.nextSink (p : Polder) (x : PolCtx) (d : Desc) : Sink × Nat :=
  let o := d.done % d.len
  let left := d.len - o
  let rel := d.done / d.len * d.stride + d.widen * o
  let a := d.addr + BitVec.ofNat 64 rel
  if d.type = 0xA && d.stash then
    (match p.stashPlace d d.asked true with
      | some k => .own 1 (k + rel)
      | none => .drop, min granule left)
  else if d.type = 0xA then (.own (gaTier a) (gaOff a), min granule left)
  else if d.type = 0x9 then
    let cut := fun (t : W64) (n : Nat) => (Sink.fabric t, min (min 512 left) (min n (1024 - t.toNat % 1024) / d.widen))
    if d.map then
      match ((p.mapSlot (bitsN d.addr 61 3)).ofEpoch d.epoch).bind fun m =>
          m.grad ((bitsN d.addr 0 48 + rel) % 2 ^ 48) with
      | some (t, n) => cut t n
      | none => (.bad, left)
    else cut a 1024
  else match x.source p a with
    | .own t k => (.own t k, min 512 left)
    | .fabric t => (.fabric t, min (min 512 left) (512 - t.toNat % 512))
    | _ => (.bad, left)

/-- The bytes of the next piece, once they have all been taken; those there are once the engine ends (R182,
R198). -/
def Eng.piece (v : Eng) (d : Desc) (n : Nat) : Option (List Byte) :=
  let have_ := d.landed - d.done
  let n := if v.ending then min n have_ else n
  if n = 0 || have_ < n then none
  else some ((v.buf.filter fun b => b.desc == d.num && d.done ≤ b.at_ && b.at_ < d.done + n).flatMap (·.data))

/-- The oldest executing descriptor of a kind with a piece to go, its sink and the piece (R186). -/
def Polder.nextPiece (p : Polder) (x : PolCtx) (e : Nat) (kind : Desc → Bool) :
    Option (Desc × Sink × List Byte) :=
  let v := p.eng e
  if v.st ≠ .running || v.stopping then none
  else v.descs.findSome? fun d =>
    if d.pos = .executing && d.type != 0 && kind d && (!d.waitEn || d.waited) then
      let s := p.nextSink x d
      (v.piece d s.2).map fun bs => (d, s.1, bs)
    else none

/-- A piece has left the buffer (R184, R195). -/
def Polder.freePiece (p : Polder) (e : Nat) (d : Desc) (n : Nat) (pend : Nat) : Polder :=
  let v := p.eng e
  let v := { v with buf := v.buf.filter fun b => b.desc != d.num || d.done + n ≤ b.at_ }
  (p.putEng e (v.putDesc { d with done := d.done + n, pend := d.pend + pend })).askHold e

/-- The request of an Outfall engine (R199, R333). -/
def outTxn (d : Desc) (a : W64) (ctx : BitVec 16) (bs : List Byte) : Txn :=
  { op := if d.type = 0x9 then opReduce else opWrite, mod := if d.type = 0x9 && d.src32 then 1 else 0
    tinc := 0, tag := 0, len := 0, epoch := if d.type = 0x9 then d.epoch else 0, rinc := 0, chk := false
    deferred := false, status := 0, addr := a, ctx := ctx, opnd := 0, src := 0, dst := 0, cls := .guaranteed
    data := bs }

/-- OUT_REJECT's field for a code that ends a contribution (R199, R203). -/
def rejectField (st : Status) : Option Nat :=
  if st = Status.epochStale then some 0
  else if st = Status.windowClosed then some 8
  else if st = Status.resetAbort || st = Status.incarnationStale then some 16
  else if st = Status.dataUncorrectable then some 24
  else none

/-- A transaction of an Outfall engine ends: it retires, waits for its reissue, is rejected, or faults the
engine (R199). -/
def Polder.endTxn (p : Polder) (e : Nat) (q : EngTxn) (st : Status) (deferred : Bool) : Polder :=
  let pg := ENGP e
  let v := p.eng e
  if st = Status.refusedBusy then
    (p.count (pg + 0x7C) 1).setEng e { v with txns := v.txns ++ [{ q with retry := true, answer := none }] }
  else
    let p := match q.slot with
      | some k => p.countPend k q.txn.epoch false
      | none => p
    let p := p.setEng e { v with
      descs := v.descs.map fun c => if c.num = q.desc then { c with pend := c.pend - 1 } else c }
    let index := ((v.descs.find? fun d => d.num == q.desc).map (·.index)).getD v.oldest
    if st = Status.done then if deferred then p.count (pg + 0x78) 1 else p
    else match (if q.slot.isSome then rejectField st else none) with
      | some k =>
        let p := p.onTwin fun w => { w with rejects := w.rejects + 1 }
        ((p.count (pg + 0x80) 1 k 8).raise pg 2).recordErr pg st 2 3 (gaId q.txn.addr) q.txn.addr
      | none => p.engFault e st 0 index q.txn.addr

/-- A transaction is handed to the fabric transaction engine (R187, R199). -/
def Polder.sendTxn (p : Polder) (x : PolCtx) (e : Nat) (q : EngTxn) : Polder :=
  match p.request x q.txn (.engine e) with
  | (p, .ok tag) =>
    let v := p.eng e
    p.setEng e { v with txns := v.txns ++ [{ q with tag := tag, retry := false, answer := none }] }
  | (p, .error st) => p.endTxn e { q with tag := p.flx.nextTag } st false

/-- A piece goes to memory of the polder (R199, R200, R232, R242, R251). A write that tier 3 refuses with
REFUSED_BUSY stays in the buffer. -/
def Polder.putPiece (p : Polder) (x : PolCtx) (e : Nat) (d : Desc) (t o : Nat) (bs : List Byte) : Polder :=
  let whole := o % granule == 0 && bs.length == granule
  if d.type = 0xA && whole && (bs.all (· == 0)) then
    let p := p.onMem fun m => m.setValid t (o / granule) false
    (p.count (ENGP e + 0x84) 1).freePiece e d bs.length 0
  else if t = 1 && !stackOk (e / 16) o bs.length then p.engFault e Status.addressInvalid 0 d.index
  else
    let r := p.memWrite x (engBy (p.eng e).ctx) t o (bs.map some)
    if r.st = Status.refusedBusy then r.p.count (ENGP e + 0x7C) 1
    else if r.st ≠ Status.done then r.p.engFault e r.st 0 d.index (x.ga p t o)
    else
      let p := if r.deferred then r.p.count (ENGP e + 0x78) 1 else r.p
      p.freePiece e d bs.length 0

/-- A piece leaves the buffer for its sink. -/
def Polder.sinkPiece (p : Polder) (x : PolCtx) (e : Nat) (d : Desc) (s : Sink) (bs : List Byte) : Polder :=
  match s with
  | .own t o => p.putPiece x e d t o bs
  | .drop => p.freePiece e d bs.length 0
  | .bad => p.engFault e Status.addressInvalid 0 d.index d.addr
  | .fabric a =>
    let slot := if d.type = 0x9 then some (if d.map then bitsN d.addr 61 3 else 0) else none
    let q : EngTxn :=
      { tag := 0, desc := d.num, txn := outTxn d a (p.eng e).ctx bs, slot := slot, retry := false, answer := none }
    let last := d.type = 0x9 && d.done + bs.length == d.total && d.sigEn
    let p := p.freePiece e { d with signalled := d.signalled || last } bs.length 1
    let p := if last then p.signal e p.cycle d else p
    let p := match slot with
      | some k => p.countPend k d.epoch true
      | none => p
    p.sendTxn x e q

/-- OUTFALL_WRITE (R199, R200). -/
def execOutfallWrite (e : EngId) (s : State) : Host.Outcome State Fault Refusal :=
  .next (s.onEng e fun x p =>
    if !e.out then p
    else match p.nextPiece x e.key fun d => d.type != 0x9 with
      | some (d, k, bs) => p.sinkPiece x e.key d k bs
      | none => p)

/-- REDUCE_WRITE_SEND (R199). -/
def execReduceWriteSend (e : EngId) (s : State) : Host.Outcome State Fault Refusal :=
  .next (s.onEng e fun x p =>
    if !e.out then p
    else match p.nextPiece x e.key fun d => d.type == 0x9 with
      | some (d, k, bs) => p.sinkPiece x e.key d k bs
      | none => p)

/-- REDUCE_WRITE_COMPLETION (R199): the completion that the fabric transaction engine has handed over. -/
def execReduceWriteCompletion (e : EngId) (tag : BitVec 16) (status : Status) (deferred : Bool) (s : State) :
    Host.Outcome State Fault Refusal :=
  .next (s.onEng e fun _ p =>
    let v := p.eng e.key
    match takeFirst (fun (q : EngTxn) => q.tag == tag && !q.retry && q.answer == some (status, deferred)) v.txns with
    | none => p
    | some (q, rest) => (p.setEng e.key { v with txns := rest }).endTxn e.key q status deferred)

/-- OUTFALL_REISSUE_TIMER (R199). -/
def execOutfallReissueTimer (e : EngId) (tag : BitVec 16) (s : State) : Host.Outcome State Fault Refusal :=
  .next (s.onEng e fun x p =>
    let v := p.eng e.key
    match takeFirst (fun (q : EngTxn) => q.tag == tag && q.retry) v.txns with
    | none => p
    | some (q, rest) =>
      let p := p.setEng e.key { v with txns := rest }
      if v.st = .running && !v.stopping then p.sendTxn x e.key q
      else match q.slot with
        | some k => p.countPend k q.txn.epoch false
        | none => p)

/-- The requester an access slot is granted to (R191). -/
def Polder.grantOf (p : Polder) (stack : Nat) : Option Nat :=
  let w := p.access stack (p.field % 64)
  if w.getLsbD 15 then some (bitsN w 10 5) else none

/-- HBM_ACCESS_GRANT (R191, R192): the grant of an engine moves its next request of that stack. A Pump, the
refresh and unscheduled traffic move in the commands of their own. -/
def execHbmAccessGrant (p : Pid) (die : Fin 4) (ctrl : Fin 2) (s : State) : Host.Outcome State Fault Refusal :=
  let stack := 2 * die.val + ctrl.val
  .next (if !s.live p die.val then s
  else match (s.pol p).grantOf stack with
    | none => s
    | some r =>
      if 16 ≤ r then s
      else
        let e := 16 * die.val + r
        if (s.pol p).engDown e then s
        else s.onPol p fun x q =>
          if r < 8 then
            let v := q.eng e
            match (if v.works then v.fetching else none) with
            | none => q
            | some d =>
              match (q.nextSource x d).1 with
              | .own 1 o => if o / 2 ^ 36 = stack && (d.asked ≠ 0 || q.handOpen d) then q.issueReq x e d else q
              | _ => q
          else
            match q.nextPiece x e fun d => d.type != 0x9 with
            | some (d, .own 1 o, bs) => if o / 2 ^ 36 = stack then q.putPiece x e d 1 o bs else q
            | _ => q)

/-- ACCESS_TABLE_WRITE (R191). -/
def execAccessTableWrite (p : Pid) (die : Fin 4) (ctrl : Fin 2) (w : Who) (v : W32) (s : State) :
    Host.Outcome State Fault Refusal :=
  let page := HBC (2 * die.val + ctrl.val)
  .next (s.writePage p (page + 0x44) w fun _ q =>
    let idle := (List.range 16).all fun k => (q.eng (16 * die.val + k)).st = .idle
    if idle then q.wr (page + 0x44) (v &&& 0xFFFF#32) (1 + q.sel (page + 0x40) w % 64) else q.raise page 0)

end Sys2Proof.Machine
end

