-- ==== Sys2Proof/Machine/Tiers.lean ====
section
/-! DEFINITION. The range engine, bandwidth windows, the host-tier bridge and the server's window (R243, R247,
R251 to R255). Readings and choices: log 23. -/

namespace Sys2Proof.Machine

/-- The bytes a range names: tier offset and length (R255); the range engine takes it when it is accepted. -/
def Polder.rangeOf (p : Polder) : W64 × Nat := (p.pair (SPW + 0x8C), granule * p.rdN (SPW + 0x94))

/-- The region a range lies in, if the range is one the operation may have (R255). -/
def Polder.rangeRegion (p : Polder) (x : PolCtx) (op : Nat) : Option Region :=
  let r := p.rangeOf
  let o := gaOff r.1
  if !x.isOwn p r.1 || o % granule ≠ 0 then none
  else match x.region? p (gaTier r.1) o with
    | none => none
    | some g => if o + r.2 ≤ g.stop && (if op = 0 then g.bitmap else g.spill) then some g else none

/-- A range operation ends (R255). -/
def Polder.endRange (p : Polder) (st : Status) : Polder :=
  ((p.onMem fun m => { m with range := none }).wr (SPW + 0x9C) (st.setWidth 32)).raise SPW 0

/-- Pages of a range. -/
def pagesOf (o len : Nat) : List Nat :=
  if len = 0 then [] else (List.range ((o + len - 1) / mib2 + 1 - o / mib2)).map fun k => o / mib2 + k

/-- The range operation under way meets its first failing code. -/
def Polder.rangeFails (p : Polder) (st : Status) : Polder :=
  p.onMem fun m => { m with range := m.range.map fun r => if r.code = Status.done then { r with code := st } else r }

/-- The copy of a page from tier 3 cannot go on: the page is LOW again, and what was written lands at home
(R247). -/
def Polder.dropFill (p : Polder) (page : Nat) (st : Status) : Polder :=
  match p.mem.frame? 3 (page * mib2) with
  | none => p
  | some f =>
    let p := p.onMem fun m =>
      ({ m with frames := m.frames.filter fun g => !(g.tier == 3 && g.page == page) }).release 1 f.base
    (f.ahead.foldl (fun p e => p.sendHost (page * mib2 + e.1) [some e.2]) p).rangeFails st

/-- The bridge reads the next 4 KiB of a page that fills (R247, R252). -/
def Polder.fillNext (p : Polder) (x : PolCtx) (page at_ : Nat) : Polder :=
  match p.askHost x (page * mib2 + at_) 4096 (.fill page) false with
  | (p, none) => p
  | (p, some r) => p.dropFill page r.status

/-- A LOW page of a SPILL region starts to fill a frame (R247, R250). -/
def Polder.startFill (p : Polder) (x : PolCtx) (g : Region) (page : Nat) : Polder :=
  if (p.mem.frame? g.tier (page * mib2)).isSome || (p.mem.range.any fun r => r.code ≠ Status.done) then p
  else match p.room x 1 g.ctx mib2 mib2 with
    | .error (p, st) => p.rangeFails st
    | .ok (p, a) =>
      let f : SpillFrame :=
        { tier := g.tier, page := page, base := a, st := .filling, dirty := [], lastTide := p.tide, ctx := g.ctx
          filled := 0, ahead := [] }
      let p := p.onMem fun m => { m with frames := m.frames ++ [f] }
      if g.tier = 3 then p.fillNext x page 0 else p

/-- A range operation begins (R243, R247, R255). -/
def Polder.startRange (p : Polder) (x : PolCtx) (op : Nat) : Polder :=
  match p.rangeRegion x op with
  | none => p.endRange Status.addressInvalid
  | some g =>
    let r := p.rangeOf
    let o := gaOff r.1
    let p := p.onMem fun m => { m with range := some ⟨op, g.tier, o, r.2, Status.done⟩ }
    match op with
    | 0 => p.onMem fun m => (List.range (r.2 / granule)).foldl (fun m k => m.setValid g.tier (o / granule + k) false) m
    | 1 => (pagesOf o r.2).foldl (fun p k => p.startFill x g k) p
    | _ => p.onMem fun m => { m with frames := m.frames.map fun f =>
        if f.tier = g.tier ∧ (pagesOf o r.2).contains f.page ∧ f.st = .high then { f with st := .evicting } else f }

/-- SPW_RANGE_CTRL.BUSY: an operation is in progress or held. -/
def Polder.rangeBusy (p : Polder) : Bool :=
  p.mem.range.isSome || p.held.any fun h => match h with
    | .range _ => true
    | _ => false

/-- A GO of the range engine; a pending commit holds it (R255, R443). -/
def Polder.rangeGo (p : Polder) (x : PolCtx) (op : Nat) : Polder :=
  let busy := p.rangeBusy
  let p := p.wr (SPW + 0x98) (fld 2 op)
  if busy then p
  else if op = 3 then p.endRange Status.internal
  else if x.mod.commit.isSome && p.wdn.st = .running then { p with held := p.held ++ [.range op] }
  else p.startRange x op

/-- RANGE_CLEAR (R243). -/
def execRangeClear (p : Pid) (w : Who) (s : State) : Host.Outcome State Fault Refusal :=
  .next (s.writePage p (SPW + 0x98) w fun x q => q.rangeGo x 0)

/-- RANGE_FETCH (R247). -/
def execRangeFetch (p : Pid) (w : Who) (s : State) : Host.Outcome State Fault Refusal :=
  .next (s.writePage p (SPW + 0x98) w fun x q => q.rangeGo x 1)

/-- RANGE_EVICT (R247). -/
def execRangeEvict (p : Pid) (w : Who) (s : State) : Host.Outcome State Fault Refusal :=
  .next (s.writePage p (SPW + 0x98) w fun x q => q.rangeGo x 2)

/-- RANGE_RESERVED_OP (R255). -/
def execRangeReservedOp (p : Pid) (w : Who) (s : State) : Host.Outcome State Fault Refusal :=
  .next (s.writePage p (SPW + 0x98) w fun x q => q.rangeGo x 3)

/-- The copies of a range operation are all at their end. -/
def Mem.copied (m : Mem) (r : RangeOp) : Bool :=
  m.frames.all fun f => !(f.tier == r.tier && (pagesOf r.off r.len).contains f.page) || f.st ≠ .filling ||
    f.tier = 2 || f.filled = mib2

/-- RANGE_DONE (R247, R255): pages that fill turn HIGH, pages that are evicted turn LOW. -/
def execRangeDone (p : Pid) (s : State) : Host.Outcome State Fault Refusal :=
  .next (s.event p 4 fun _ q =>
    match q.mem.range with
    | none => q
    | some r =>
      if q.mem.copied r then
        let mine := q.mem.frames.filter fun f => f.tier == r.tier && (pagesOf r.off r.len).contains f.page
        (mine.foldl Polder.finishCopy q).endRange r.code
      else q)

/-- The windows of the Inlet's streams begin anew (R454). -/
def Inlet.newWindow (i : Inlet) : Inlet :=
  { i with streams := (List.range 16).foldl (fun (m : SMap Stream) k =>
      let d : Nat → Stream := fun _ => Stream.reset
      SMap.set d m k { SMap.get d m k with used := 0 }) i.streams }

/-- BW_WINDOW_EXPIRY (R251, R333, R454): the windows of the tiers, of fabric egress and of the Inlet. -/
def execBwWindowExpiry (p : Pid) (s : State) : Host.Outcome State Fault Refusal :=
  .next (if s.mod.powered p then s.onPol p fun _ q =>
      let q := (q.onMem fun m => { m with used := [] }).onFlx fun g => { g with used := [] }
      { q with inlet := q.inlet.newWindow }
    else s)

/-- A BAR4 access by 64-byte units: start and length (R254). -/
def bar4Pieces : Nat → Nat → Nat → List (Nat × Nat)
  | 0, _, _ => []
  | n + 1, o, stop =>
    if stop ≤ o then []
    else
      let e := min stop ((o / 64 + 1) * 64)
      (o, e - o) :: bar4Pieces n e stop

/-- Where an aperture leads (R254, R257). -/
def Polder.aperture (p : Polder) (o : Nat) : Option (Nat × Nat) :=
  let v := p.rd (HTB + 0x54) (1 + o / 2 ^ 30)
  if v.getLsbD 0 then some (1 + bit01 (v.getLsbD 1), bitsN v 12 10 * 2 ^ 30 + o % 2 ^ 30) else none

/-- A BAR4 access is refused (R254). -/
def Polder.abortBar4 (p : Polder) : Polder := (p.count (HTB + 0x58) 1).raise HTB 3

/-- Requests of the server through BAR4 (R254, R430). -/
def bar4By : MemBy := ⟨4, 0, 0, false, false⟩

/-- A BAR4 read, unit by unit (R254). -/
def Polder.bar4Read (x : PolCtx) : List (Nat × Nat) → Polder → List Byte → Polder × HostReply
  | [], p, acc => (p, .data acc)
  | (o, n) :: r, p, acc =>
    match p.aperture o with
    | none => (p.abortBar4, .abort)
    | some (t, k) =>
      let m := p.memRead x bar4By t k n
      if m.st = Status.done then Polder.bar4Read x r m.p (acc ++ m.data)
      else if m.st = Status.dataUncorrectable then (m.p, .poisoned)
      else (m.p.abortBar4, .abort)

/-- A BAR4 write, unit by unit; it is refused at the first unit that is (R254). -/
def Polder.bar4Write (x : PolCtx) : List (Nat × Nat) → Polder → List (Option Byte) → Polder
  | [], p, _ => p
  | (o, n) :: r, p, bs =>
    match p.aperture o with
    | none => p.abortBar4
    | some (t, k) =>
      let m := p.memWrite x bar4By t k (bs.take n)
      if m.st = Status.done then Polder.bar4Write x r m.p (bs.drop n) else m.p.abortBar4

/-- The server has its answer. -/
def Polder.reply (p : Polder) (r : HostReply) : Polder := p.onMem fun m => { m with replies := m.replies ++ [r] }

/-- BAR4_ACCESS (R254, R393, R439, R464). -/
def execBar4Access (p : Pid) (off : BitVec 36) (a : Access) (s : State) : Host.Outcome State Fault Refusal :=
  if !a.wf then .fault .illFormed
  else
    let w := Who.server
    let len := match a with
      | .read n => n
      | .write bs => bs.length
    let write := match a with
      | .read _ => false
      | .write _ => true
    let ps := bar4Pieces (len / 64 + 2) off.toNat (off.toNat + len)
    let answer := fun (s : State) (r : HostReply) =>
      if write then s else { s with pols := s.pols.set p ((s.pol p).reply r) }
    .next (
      if s.mod.denied w.req .memory write then
        let s := s.onMod fun m => m.deny w.req off.toNat
        let s := if s.live p 4 then s.onPol p fun _ q => q.abortBar4 else s
        answer s .abort
      else if s.mod.serverShut w.req then answer s (.data (List.replicate len 0xFF))
      else if !s.live p 4 then answer (s.standIn p) (.data (List.replicate len 0xFF))
      else match a with
        | .read _ => s.onPol p fun x q => (fun r => r.1.reply r.2) (Polder.bar4Read x ps q [])
        | .write bs => s.onPol p fun x q => Polder.bar4Write x ps q bs)

/-- The code and data of a PCIe outcome (R253). -/
def pcieReply (o : PcieOutcome) (len : Nat) : Status × List Byte :=
  match o with
  | .ok d => (Status.done, (d ++ List.replicate len 0).take len)
  | .ur | .ca => (Status.addressInvalid, [])
  | .poisoned | .timeout => (Status.dataUncorrectable, [])

/-- The bridge counts what went wrong (R257). -/
def Polder.notePcie (p : Polder) (o : PcieOutcome) : Polder :=
  match o with
  | .ok _ => p
  | .timeout => (p.count (HTB + 0x4C) 1 0 8).raise HTB 0
  | .poisoned => (p.count (HTB + 0x4C) 1 8 8).raise HTB 1
  | .ur | .ca => (p.count (HTB + 0x4C) 1 16 8).raise HTB 2

/-- Two reads belong to one request of an engine. -/
def Tier3Req.mate (a b : Tier3Req) : Bool :=
  match a.who, b.who with
  | .engine e n k, .engine f m l => e == f && n == m && k == l
  | _, _ => false

/-- The first read of the same request, with what one that has ended brought (R216). -/
def joinMate (q : Tier3Req) (st : Status) (data : List Byte) (before : Bool) : List Tier3Req → List Tier3Req
  | [] => []
  | r :: l =>
    if r.mate q then
      { r with
        bad := if r.bad = Status.done then st else r.bad
        deferred := r.deferred || q.deferred
        pre := if before then r.pre ++ data else r.pre
        post := if before then r.post else data ++ r.post } :: l
    else r :: joinMate q st data before l

/-- A tier-3 read ends: its asker has what it brought (R194, R224, R225, R247, R253). -/
def Polder.t3Done (p : Polder) (x : PolCtx) (i : Nat) (q : Tier3Req) (st : Status) (data : List Byte) : Polder :=
  let l := p.mem.tier3
  let rest := l.eraseIdx i
  let st := if q.bad = Status.done then st else q.bad
  let data := q.pre ++ data ++ q.post
  let p := p.onMem fun m => { m with tier3 := rest }
  match q.who with
  | .engine e n at_ =>
    if rest.any q.mate then
      let later := (l.drop (i + 1)).any q.mate
      let rest := if later then rest.take i ++ joinMate q st data true (rest.drop i) else joinMate q st data false rest
      p.onMem fun m => { m with tier3 := rest }
    else
      let v := p.eng e
      if !v.reqs.any (fun r => r.desc == n && r.at_ == at_ && r.tier != 4) then p.count (WDN + 0x64) 1
      else p.setEng e { v with reqs := v.reqs.map fun r =>
        if r.desc = n ∧ r.at_ = at_ ∧ r.tier ≠ 4 ∧ r.answer.isNone then
          { r with answer := some ⟨st, q.deferred, if st = Status.done then data else []⟩ }
        else r }
  | .fabric _ t => p.answer x t st q.deferred data
  | .fill page =>
    match p.mem.frame? 3 (page * mib2) with
    | none => p
    | some f =>
      if st ≠ Status.done then p.dropFill page st
      else
        let at_ := q.off - page * mib2
        let p := p.onMem fun m =>
          (m.setFrame { f with filled := at_ + 4096 }).putRaw 1 (f.base + at_) (data.map some)
        if at_ + 4096 < mib2 then p.fillNext x page (at_ + 4096) else p
  | .page ref =>
    match p.mem.staged.find? (fun s => s.ref == ref), SMap.find? p.mem.refs ref with
    | some g, some r =>
      let g := if st = Status.done then { g with data := g.data ++ data } else { g with code := st }
      let p := p.onMem fun m => { m with staged := m.staged.map fun s => if s.ref = ref then g else s }
      if g.code = Status.done && g.data.length < r.size then
        match p.askHost x (r.page + g.data.length) 4096 (.page ref) false with
        | (p, none) => p
        | (p, some a) => p.onMem fun m => { m with staged := m.staged.map fun s =>
            if s.ref = ref then { s with code := a.status } else s }
      else p
    | _, _ => p

/-- TIER3_COMPLETION (R253). -/
def execTier3Completion (p : Pid) (i : Nat) (o : PcieOutcome) (s : State) : Host.Outcome State Fault Refusal :=
  if !o.wf then .fault .illFormed
  else .next (s.event p 4 fun x q =>
    match q.mem.tier3[i]? with
    | none => q
    | some r =>
      let a := pcieReply o r.len
      (q.notePcie o).t3Done x i r a.1 a.2)

/-- Every tier-3 request outstanding ends with a code (R253, R486). -/
def Polder.abortTier3 (x : PolCtx) (st : Status) : Nat → Polder → Polder
  | 0, p => p
  | n + 1, p =>
    match p.mem.tier3 with
    | [] => p
    | r :: _ => Polder.abortTier3 x st n (p.t3Done x 0 r st [])

end Sys2Proof.Machine
end

