-- ==== Sys2Proof/Machine/PumpOps.lean ====
section
/-! DEFINITION. Pumps: update tables, landing in a window range, the close, the straggler deadline and the
hand-off channels (R258 to R270, R277, R419). Readings and choices: log 23, 27, 28. -/

namespace Sys2Proof.Machine

def Polder.chan (p : Polder) (n : Nat) : Chan := SMap.get (fun _ => Chan.reset) p.chans n
def Polder.setChan (p : Polder) (n : Nat) (v : Chan) : Polder :=
  { p with chans := SMap.set (fun _ => Chan.reset) p.chans n v }

/-- Memory requests of the Pumps; they pace themselves within their context's bandwidth (R258, R283). -/
def pumpBy (ctx : BitVec 16) : MemBy := ⟨2, 0, ctx, true, false⟩

/-- A read of the Pumps or their controller in the polder's own tier 1 or 2. -/
def Polder.pumpRead (p : Polder) (x : PolCtx) (a : W64) (n : Nat) : MemRes :=
  if n = 0 then ⟨p, Status.done, false, [], 0⟩
  else if x.isOwn p a && (gaTier a == 1 || gaTier a == 2) && x.memOk p (gaTier a) (gaOff a) n then
    p.fetchData x (pumpBy 0) (gaTier a) (gaOff a) n
  else ⟨p, Status.addressInvalid, false, [], 0⟩

/-- A write past admission in own tier 1 or 2 (R242). -/
def Polder.putMem (p : Polder) (x : PolCtx) (t o : Nat) (bs : List Byte) : Polder :=
  let p := ((p.awaitPage t o).1).touch t o
  let l := bs.map some
  (granules o bs.length).foldl (fun p q => p.writePiece x t q.1 ((l.drop (q.1 - o)).take q.2)) p

/-- Words of an FP32 array. -/
def f32s (bs : List Byte) : List W32 := wordsOf bs (bs.length / 4)

def bytesOf32 (ws : List W32) : List Byte := ws.flatMap fun w => bytesOf w 4

/-- A word of a micro-program is legal: its opcode exists and its reserved bits are zero (R275, R276). -/
def progWordOk (w : W32) : Bool := bitsN w 0 10 == 0 && bitsN w 26 6 ≤ 0xF

/-- A shard entry (R261). -/
def shardOf (b : List Byte) : Shard :=
  let q := fun (o : Nat) => (BitVec.ofNat 64 (leN b o 8) : W64)
  { high := q 0, rem := q 8, m := q 16, v := q 24, win := q 32, par := q 40, prog := q 48, stride := q 56
    count := leN b 64 4, chunk := leN b 68 4, rule := leN b 72 1, pump := leN b 73 1, hyp := leN b 74 1
    nslice := leN b 75 1, tensor := BitVec.ofNat 16 (leN b 76 2), cols := leN b 78 2 }

/-- The arrays a rule uses, with bytes per parameter; FACTORED has its factors besides (R261, R274, R278). -/
def Shard.arrays (s : Shard) : List (W64 × Nat) :=
  [(s.high, 2), (s.rem, 2), (s.m, 4)] ++ if s.rule = 1 || s.rule = 8 then [(s.v, 4)] else []

/-- Bytes of the factors of a FACTORED shard (R274). -/
def Shard.factorBytes (s : Shard) : Nat := if s.rule = 4 then 4 * (s.count / s.cols + s.cols + 1) else 0

/-- The fields of a shard entry are in range (R261, R274). -/
def Shard.ok (s : Shard) (b : List Byte) (nchunk nhyp : Nat) : Bool :=
  1 ≤ s.count && s.count ≤ 2 ^ 28 && s.chunk < nchunk && [1, 2, 3, 4, 8].contains s.rule && s.pump < 16 &&
  s.hyp < nhyp && 1 ≤ s.nslice && s.nslice ≤ 8 && (s.nslice != 1 || s.stride == 0) &&
  (if s.rule = 4 then 1 ≤ s.cols && s.cols ≤ 16384 && s.count % s.cols == 0 else s.cols == 0) &&
  (s.rule == 8 || s.prog == 0) && s.win.toNat % 1024 == 0 && (b.drop 80).all (· == 0)

/-- The gradient slices of a shard, by tier-1 offset (R261, R269). -/
def Shard.slices (s : Shard) : List Nat :=
  (List.range s.nslice).map fun i => gaOff (s.win + BitVec.ofNat 64 (i * s.stride.toNat))

/-- A Pump reaches an array (R258). -/
def PolCtx.reaches (x : PolCtx) (p : Polder) (pump : Nat) (a : W64) (n : Nat) : Bool :=
  let t := gaTier a
  let o := gaOff a
  x.isOwn p a && (t == 1 || t == 2) && x.memOk p t o n &&
  (8 ≤ pump || (t == 1 && o / 2 ^ 36 == pump && (o + n - 1) / 2 ^ 36 == pump))

/-- Every address of a shard is within its Pump's reach (R258, R263). -/
def PolCtx.shardReach (x : PolCtx) (p : Polder) (s : Shard) : Bool :=
  (s.arrays.all fun a => x.reaches p s.pump a.1 (a.2 * s.count)) &&
  (s.rule != 4 || x.reaches p s.pump s.v s.factorBytes) &&
  (List.range s.nslice).all fun i => x.reaches p s.pump (s.win + BitVec.ofNat 64 (i * s.stride.toNat)) (4 * s.count)

/-- The spans of memory a shard takes: address and bytes. -/
def Shard.spans (s : Shard) : List (Nat × Nat) :=
  (s.arrays.map fun a => (a.1.toNat, a.2 * s.count)) ++ (if s.rule = 4 then [(s.v.toNat, s.factorBytes)] else []) ++
  (List.range s.nslice).map fun i => ((s.win + BitVec.ofNat 64 (i * s.stride.toNat)).toNat, 4 * s.count)

def spansMeet (a b : Nat × Nat) : Bool := a.1 < b.1 + b.2 && b.1 < a.1 + a.2

/-- No two shards overlap (R263). -/
def shardsApart : List Shard → Bool
  | [] => true
  | s :: r => (r.all fun t => s.spans.all fun a => t.spans.all fun b => !spansMeet a b) && shardsApart r

/-- An arm as it reads its table: the polder, or the code it fails with (R263). -/
abbrev ArmM := EStateM Status Polder

/-- A read of the arm (R263). -/
def armRead (x : PolCtx) (a : W64) (n : Nat) : ArmM (List Byte) := do
  let r := (← get).pumpRead x a n
  set r.p
  if r.st = Status.done then pure r.data else throw r.st

/-- A check of the arm. -/
def armNeed (b : Bool) (st : Status) : ArmM Unit := if b then pure () else throw st

/-- An own tier-1 address, aligned (R260). -/
def PolCtx.own1 (x : PolCtx) (p : Polder) (a : W64) (al : Nat) : Bool :=
  x.isOwn p a && gaTier a == 1 && a.toNat % al == 0

/-- The words of a program up to END, 64 at most (R275, R276). -/
def readProg (x : PolCtx) : Nat → W64 → ArmM (List W32)
  | 0, _ => throw Status.internal
  | n + 1, a => do
    let bs ← armRead x a 4
    let w := wordOf 32 bs
    armNeed (progWordOk w) Status.internal
    if bitsN w 26 6 = 0 then pure [w]
    else do
      let r ← readProg x n (a + 4)
      pure (w :: r)

/-- The programs of the shards with their words (R275, R276). -/
def readProgs (x : PolCtx) : List Shard → List (W64 × List W32) → ArmM (List (W64 × List W32))
  | [], acc => pure acc
  | s :: r, acc =>
    if s.rule ≠ 8 || (acc.any fun q => q.1 == s.prog) then readProgs x r acc
    else do
      let l ← readProg x 64 s.prog
      readProgs x r (acc ++ [(s.prog, l)])

/-- Arming reads and checks the whole table (R260 to R263, R276). -/
def readUpdTable (x : PolCtx) (ch : Nat) (a : W64) : ArmM UpdTable := do
  let p ← get
  armNeed (x.isOwn p a && (gaTier a == 1 || gaTier a == 2) && a.toNat % 64 == 0) Status.internal
  let h ← armRead x a 128
  let q := fun (o : Nat) => (BitVec.ofNat 64 (leN h o 8) : W64)
  let flags := leN h 5 1
  let nshard := leN h 0 4
  let nhyp := leN h 4 1
  let nchunk := leN h 12 4
  let blocks := leN h 32 4
  let poolCap := leN h 112 4
  armNeed (1 ≤ nshard && nshard ≤ 65536 && 1 ≤ nhyp && flags < 16 && 1 ≤ leN h 6 1 && leN h 7 1 < 16 &&
    1 ≤ nchunk && nchunk ≤ 65536 && 1 ≤ leN h 16 4 && x.own1 p (q 24) 1024 && x.own1 p (q 40) 64 &&
    x.own1 p (q 48) 64 && (poolCap == 0 || x.own1 p (q 104) 2048) && (h.drop 118).all (· == 0)) Status.internal
  let hb ← armRead x (a + 128) (32 * nhyp)
  let sb ← armRead x (a + BitVec.ofNat 64 (128 + 32 * nhyp)) (128 * nshard)
  let entry := fun (i : Nat) => (sb.drop (128 * i)).take 128
  let shards := (List.range nshard).map fun i => shardOf (entry i)
  let base := gaOff (q 24)
  let stop := base + 1024 * blocks
  armNeed ((List.range nshard).all fun i => (shardOf (entry i)).ok (entry i) nchunk nhyp) Status.internal
  armNeed (shards.all fun s => s.slices.all fun o => decide (base ≤ o) && decide (o + 4 * s.count ≤ stop)) Status.internal
  armNeed (shardsApart shards) Status.internal
  let other := fun (n : Nat) => n != ch && match (p.chan n).tab with
    | none => false
    | some t => spansMeet (base, 1024 * blocks) (gaOff t.winBase, 1024 * t.winBlocks)
  armNeed (!(List.range 4).any other) Status.internal
  let progs ← readProgs x shards []
  armNeed ((List.range 16).all fun k =>
    ((progs.filter fun g => shards.any fun s => s.rule == 8 && s.pump == k && s.prog == g.1).length ≤ 4)) Status.internal
  armNeed ((shards.all (x.shardReach p)) && (blocks == 0 || x.memOk p 1 base (1024 * blocks)) &&
    (blocks == 0 || x.memOk p 1 (gaOff (q 40)) (2 * blocks)) && x.memOk p 1 (gaOff (q 48)) 64 &&
    (poolCap == 0 || x.memOk p 1 (gaOff (q 104)) (2048 * poolCap))) Status.addressInvalid
  let ncontrib := leN h 6 1
  let cl ← armRead x (q 72) (2 * ncontrib)
  let root := flags / 4 % 2 = 1
  let ml ← armRead x (q 80) (if root then 8 * leN h 88 4 else 0)
  let hl ← armRead x (q 96) (8 * leN h 92 4)
  let longs := fun (l : List Byte) => (List.range (l.length / 8)).map fun i => (BitVec.ofNat 64 (leN l (8 * i) 8) : W64)
  pure { snap := flags % 2 = 1, addNext := flags / 2 % 2 = 1, root := root, zeroCnt := flags / 8 = 1
         ncontrib := ncontrib, stream := leN h 7 1
         seq := BitVec.ofNat 32 (leN h 8 4), nchunk := nchunk, t := leN h 16 4, clipMax := BitVec.ofNat 32 (leN h 20 4)
         winBase := q 24, winBlocks := blocks, tieFrom := leN h 36 4, cntBase := q 40, norm := q 48, rootCell := q 56
         altCell := q 64, clist := (List.range ncontrib).map fun i => BitVec.ofNat 12 (leN cl (2 * i) 2)
         mlist := longs ml, nmember := leN h 88 4, hlist := longs hl, pool := q 104, poolCap := poolCap
         ctx := BitVec.ofNat 16 (leN h 116 2), hyps := (List.range nhyp).map fun i => f32s ((hb.drop (32 * i)).take 32)
         shards := shards, progs := progs }

/-- A request of a channel's own (R172, R270, R278, R333). -/
def pumpTxn (op : Byte) (md : BitVec 4) (a : W64) (ctx : BitVec 16) (opnd : W64) (bs : List Byte) : Txn :=
  { op := op, mod := md, tinc := 0, tag := 0, len := 0, epoch := 0, rinc := 0, chk := false, deferred := false
    status := 0, addr := a, ctx := ctx, opnd := opnd, src := 0, dst := 0, cls := .guaranteed, data := bs }

/-- A request whose failure is the update's (R281). -/
def Polder.pumpSend (p : Polder) (x : PolCtx) (ch : Fin 4) (t : Txn) : Polder :=
  match p.request x t (.pump ch) with
  | (p, .ok _) => p
  | (p, .error st) => p.setChan ch.val ((p.chan ch.val).replied st)

/-- A request of the scalar reduction (R270). -/
def Polder.normSend (p : Polder) (x : PolCtx) (ch : Fin 4) (t : Txn) : Polder := (p.request x t (.norm ch)).1

/-- The channel's own hand-off channel and its remote ones start an update (R172, R277). -/
def Polder.startHand (p : Polder) (x : PolCtx) (ch : Fin 4) (t : UpdTable) : Polder :=
  let off := GRD + 0x148 + 8 * ch.val
  let p := (p.wr off t.seq).wr (off + 4) 0
  t.hlist.foldl (fun p a =>
    (p.pumpSend x ch (pumpTxn opWrite 0 a t.ctx 0 (bytesOf t.seq 4))).pumpSend x ch
      (pumpTxn opWrite 0 (a + 4) t.ctx 0 (List.replicate 4 0))) p

/-- DONE of every destination becomes NCHUNK at once (R172, R271). -/
def Polder.allHand (p : Polder) (x : PolCtx) (ch : Fin 4) (t : UpdTable) : Polder :=
  let v : W32 := BitVec.ofNat 32 t.nchunk
  let p := p.wr (GRD + 0x14C + 8 * ch.val) v
  let p := p.setChan ch.val { p.chan ch.val with chunks := t.nchunk }
  t.hlist.foldl (fun p a => p.pumpSend x ch (pumpTxn opWrite 0 (a + 4) t.ctx 0 (bytesOf v 4))) p

/-- DONE advances by one chunk on every destination (R172, R277). -/
def Polder.stepHand (p : Polder) (x : PolCtx) (ch : Fin 4) (t : UpdTable) : Polder :=
  let n := (p.chan ch.val).chunks + 1
  let p := p.wr (GRD + 0x14C + 8 * ch.val) (BitVec.ofNat 32 n)
  let p := p.setChan ch.val { p.chan ch.val with chunks := n }
  t.hlist.foldl (fun p a => p.pumpSend x ch (pumpTxn opAtomic 0 (a + 4) t.ctx 1 [])) p

/-- The count of a block (R264). -/
def Polder.countOf (p : Polder) (x : PolCtx) (t : UpdTable) (b : Nat) : Polder × Except Status Nat :=
  let r := p.pumpRead x (t.cntBase + BitVec.ofNat 64 (2 * b)) 2
  (r.p, if r.st = Status.done then .ok (natOfBytes r.data) else .error r.st)

def Polder.setCount (p : Polder) (x : PolCtx) (t : UpdTable) (b n : Nat) : Polder :=
  p.putMem x 1 (gaOff t.cntBase + 2 * b) (bytesOf (BitVec.ofNat 16 n) 2)

/-- The 256 elements of a block. -/
def Polder.blockOf (p : Polder) (x : PolCtx) (t : UpdTable) (b : Nat) : Polder × Except Status (List W32) :=
  let r := p.pumpRead x (t.winBase + BitVec.ofNat 64 (1024 * b)) 1024
  (r.p, if r.st = Status.done then .ok (f32s r.data) else .error r.st)

/-- Contributions that make a block complete (R265). -/
def UpdTable.full (t : UpdTable) : Nat := 256 * t.ncontrib

/-- Elements from place `e` on, over or added to a block (R264). -/
def landOn (old : List W32) (add : Bool) (e : Nat) (vals : List W32) : List W32 :=
  (List.range 256).map fun i =>
    let o : W32 := if add then (old[i]?).getD 0 else 0
    match (if i < e then none else vals[i - e]?) with
    | some v => if add then fadd o v else v
    | none => o

/-- Elements land in a block and its count advances: the old count, the new one, and the block (R264). -/
def Polder.landBlock (p : Polder) (x : PolCtx) (t : UpdTable) (b e n : Nat) (vals : List W32) :
    Polder × Except Status (Nat × Nat × List W32) :=
  match p.countOf x t b with
  | (p, .error st) => (p, .error st)
  | (p, .ok c) =>
    match (if c = 0 then (p, Except.ok []) else p.blockOf x t b) with
    | (p, .error st) => (p, .error st)
    | (p, .ok old) =>
      let l := landOn old (c != 0) e vals
      let c' := min 0xFFFF (c + n)
      let p := p.putMem x 1 (gaOff t.winBase + 1024 * b) (bytesOf32 l)
      (p.setCount x t b c', .ok (c, c', l))

/-- FP64 addition, one rounding (R265). -/
def dadd (a b : BitVec 64) : BitVec 64 := toF64 ((f64 a).add (f64 b))

/-- The square of an FP32 value in FP64, where it is exact. -/
def dsq (w : W32) : BitVec 64 := toF64 ((f32 w).mul (f32 w))

/-- The squares of a block's values after 2^-k, and after its scale where it has one (R265, R267). -/
def squaresOf (k : Nat) (sb : Option W32) (l : List W32) : BitVec 64 :=
  l.foldl (fun s w =>
    let v := toF32 ((f32 w).scale (-(k : Int)))
    dadd s (dsq (match sb with
      | some b => fmul v b
      | none => v))) 0

/-- A number takes its place in an ascending list. -/
def putInOrder (n : Nat) : List Nat → List Nat
  | [] => [n]
  | m :: r => if n ≤ m then n :: m :: r else m :: putInOrder n r

/-- A list in ascending order. -/
def ascending (l : List Nat) : List Nat := l.foldr putInOrder []

/-- The Gauge sets the straggler deadline after a DONE close, or raises it after the deadline has closed
enough reductions (R419). -/
def Polder.deadlinePolicy (p : Polder) (x : PolCtx) (ch : Nat) (full byDeadline : Bool) (spread : W32) : Polder :=
  if !(x.cfg p (GAU + 0x40)).getLsbD 3 then p
  else
    let cfg := x.cfg p (GAU + 0x80)
    let lim := x.cfg p (GAU + 0x7C)
    let old := p.rdN (PMP + 0x140)
    let set := fun (p : Polder) (new action : Nat) =>
      if new = old then p
      else ((p.wr (PMP + 0x140) (BitVec.ofNat 32 new)).raise GAU 5).post x 4 action ch (BitVec.ofNat 64 (old + new * 2 ^ 32))
    if full then
      let l := p.gauge.spreads ++ [spread]
      let l := l.drop (l.length - 100)
      let p := { p with gauge := { p.gauge with spreads := l, partials := 0 } }
      if l.length < bitsN cfg 16 8 then p
      else
        let s := ascending (l.map (·.toNat))
        let rank := (99 * l.length + 99) / 100
        let pc := (s[rank - 1]?).getD 0
        let new := (pc * (100 + bitsN cfg 0 8) + 99999) / 100000
        set p (min (bitsN lim 16 16) (max (bitsN lim 0 16) new)) 1
    else if byDeadline then
      let n := p.gauge.partials + 1
      if n < bitsN cfg 8 8 then { p with gauge := { p.gauge with partials := n } }
      else set { p with gauge := { p.gauge with partials := 0 } } (max old (min (bitsN lim 16 16) ((5 * old + 3) / 4))) 2
    else p

/-- The nanoseconds between two field cycles at 2.1 GHz (R266). -/
def spreadNs (a b : Nat) : W32 := BitVec.ofNat 32 (min (2 ^ 32 - 1) ((b - a) * 10 / 21))

/-- The reduction reaches its close point (R266). -/
def Polder.closeChan (p : Polder) (x : PolCtx) (ch : Nat) (full byDeadline : Bool) : Polder :=
  let v := p.chan ch
  if v.st ≠ .open_ then p
  else
    let spread := if full then spreadNs (v.first.getD p.field) p.field else v.spread
    let p := p.setChan ch { v with st := .closing, close := if full then Status.done else Status.donePartial, spread := spread }
    let p := if full then p.raise PMP 0 else (p.count (PMP + 0x150) 1).raise PMP 1
    let p := p.onTwin fun w => { w with
      closes := SMap.insert w.closes ch (if full then Status.done else Status.donePartial) }
    p.deadlinePolicy x ch full byDeadline spread

/-- A block is complete (R265): its squares join the sum, and the last block closes the reduction. -/
def Polder.blockDone (p : Polder) (x : PolCtx) (ch : Nat) (t : UpdTable) (b : Nat) (l : List W32) : Polder :=
  let v := p.chan ch
  let v := { v with blocks := v.blocks + 1 }
  let v := if b < t.tieFrom then
      let s := squaresOf v.k.toNat none l
      { v with sumsq := dadd v.sumsq s, squares := SMap.insert v.squares b s }
    else v
  let p := p.setChan ch v
  if v.blocks = t.winBlocks then p.closeChan x ch true false else p

/-- A REDUCE_WRITE into an armed range: `off` is its tier-1 offset, `vals` its elements as FP32 (R264 to R266,
R268). -/
def Polder.reduceLand (p : Polder) (x : PolCtx) (ch : Nat) (t : UpdTable) (off : Nat) (vals : List W32) :
    Polder × Status :=
  let b := (off - gaOff t.winBase) / 1024
  let e := off % 1024 / 4
  let v := p.chan ch
  if v.st = .open_ then
    let p := if v.first.isNone then p.setChan ch { v with first := some p.field } else p
    match p.landBlock x t b e vals.length vals with
    | (p, .error st) => (p, st)
    | (p, .ok (c, c', l)) =>
      (if c < t.full && t.full ≤ c' then p.blockDone x ch t b l else p, Status.done)
  else if t.addNext && v.pooled < t.poolCap then
    let at_ := gaOff t.pool + 2048 * ((v.poolAt + v.pooled) % t.poolCap)
    let p := p.putMem x 1 at_ (bytesOf (BitVec.ofNat 32 b) 4 ++ bytesOf (BitVec.ofNat 16 vals.length) 2 ++
      List.replicate 58 0 ++ bytesOf32 (landOn [] false e vals) ++ List.replicate 960 0)
    ((p.setChan ch { v with pooled := v.pooled + 1 }).count (PMP + 0x148) 1, Status.done)
  else ((p.count (PMP + 0x14C) 1).raise PMP 4, Status.windowClosed)

/-- The armed channel whose range holds a tier-1 span (R264, R326). -/
def Polder.armedAt (p : Polder) (o n : Nat) : Option (Nat × UpdTable) :=
  (List.range 4).findSome? fun ch =>
    match (p.chan ch).tab with
    | some t =>
      let base := gaOff t.winBase
      if base ≤ o && o + n ≤ base + 1024 * t.winBlocks then some (ch, t) else none
    | none => none

/-- A root's norm cell has all arrivals, or its grace has passed: it writes the total and SEQ into every
member's cell (R270). -/
def Polder.rootTotal (p : Polder) (x : PolCtx) (ch : Fin 4) (forced : Bool) : Polder :=
  let v := p.chan ch.val
  match v.tab with
  | none => p
  | some t =>
    if !t.root || v.rooted || v.st = .late || v.st = .idle then p
    else
      let r := p.pumpRead x t.norm 16
      let p := r.p
      if r.st = Status.done && (forced || t.nmember ≤ leN r.data 8 8) then
        let p := p.setChan ch.val { p.chan ch.val with rooted := true }
        t.mlist.foldl (fun p a =>
          p.normSend x ch (pumpTxn opWrite 0 (a + 16) t.ctx 0 (r.data.take 4 ++ bytesOf t.seq 4))) p
      else p

/-- A NOTICE has reported a polder lost: the channels it concerns take note (R266, R270, R335). -/
def Polder.pumpPeerLost (p : Polder) (id : Nat) : Polder :=
  { p with chans := SMap.mapVals (fun _ v => match v.tab with
      | none => v
      | some t => { v with
          lost := v.lost || (v.st = .open_ && t.clist.any fun c => c.toNat == id)
          lostMember := v.lostMember || t.mlist.any fun a => gaId a == id }) p.chans }

end Sys2Proof.Machine
end

