-- ==== Sys2Proof/Machine/Pumps.lean ====
section
/-! DEFINITION. The Pumps' commands: arming, closing, the sums, the step decision, the update pass and the
snapshot hand-over (R263 to R282, R412, R417, R457, R458). Readings and choices: log 4, 27, 28. -/

namespace Sys2Proof.Machine

/-- A table arms a channel (R263, R264, R277). -/
def Polder.armChan (p : Polder) (x : PolCtx) (ch : Fin 4) (a : W64) (o : Origin) : Polder :=
  let v := p.chan ch.val
  let refuse := fun (p : Polder) (st : Status) =>
    ((p.setChan ch.val { p.chan ch.val with code := st }).raise PMP 7).endCmd o st false 0
  if v.st ≠ .idle && v.st ≠ .late then refuse p Status.refusedBusy
  else match EStateM.run (readUpdTable x ch.val a) p with
    | .error st p => refuse p st
    | .ok t p =>
      let p := if t.zeroCnt then p.putMem x 1 (gaOff t.cntBase) (List.replicate (2 * t.winBlocks) 0) else p
      let p := p.putMem x 1 (gaOff t.norm) (List.replicate 64 0)
      let v' : Chan := { Chan.reset with
        st := .open_, tab := some t, k := p.gauge.k
        pooled := v.pooled, poolAt := v.poolAt, poolOld := v.pooled }
      ((p.setChan ch.val v').startHand x ch t).endCmd o Status.done false 0

/-- An arm, by either path; a pending commit holds it (R263, R443). -/
def Polder.submitArm (p : Polder) (x : PolCtx) (ch : Fin 4) (a : W64) (o : Origin) : Polder :=
  if x.mod.commit.isSome && p.wdn.st = .running then { p with held := p.held ++ [.arm ch a o] }
  else p.armChan x ch a o

/-- PUMP_ARM (R263). -/
def execPumpArm (p : Pid) (ch : Fin 4) (w : Who) (s : State) : Host.Outcome State Fault Refusal :=
  let off := PMP + 0x40 + 0x40 * ch.val
  .next (s.writePage p (off + 8) w fun x q => q.submitArm x ch (q.pair off &&& 0xFFFFFFFFFFFFFFC0#64) (.reg w.ctx))

/-- PUMP_CLOSE (R266). -/
def execPumpClose (p : Pid) (ch : Fin 4) (w : Who) (s : State) : Host.Outcome State Fault Refusal :=
  .next (s.writePage p (PMP + 0x48 + 0x40 * ch.val) w fun x q => q.closeChan x ch.val false false)

/-- PUMP_DEADLINE_EXPIRY (R266). -/
def execPumpDeadlineExpiry (p : Pid) (ch : Fin 4) (s : State) : Host.Outcome State Fault Refusal :=
  .next (s.event p 4 fun x q => if (q.chan ch.val).first.isSome then q.closeChan x ch.val false true else q)

/-- PUMP_GRACE_EXPIRY (R266, R270). -/
def execPumpGraceExpiry (p : Pid) (ch : Fin 4) (s : State) : Host.Outcome State Fault Refusal :=
  .next (s.event p 4 fun x q =>
    let q := if (q.chan ch.val).lost then q.closeChan x ch.val false false else q
    if (q.chan ch.val).lostMember then q.rootTotal x ch true else q)

/-- The scale of a partial block, 256 × N ÷ count (R267). -/
def UpdTable.blockScale (t : UpdTable) (n : Nat) : W32 :=
  toF32 ((Num.fin false t.full 0).div (Num.fin false n 0))

/-- A read of the Pumps that fails is recorded, and the update keeps its code (R281, R284). -/
def Polder.pumpUe (p : Polder) (ch shard blk : Nat) (a : W64) (st : Status) : Polder :=
  let v := p.chan ch
  let p := p.setChan ch { v with
    err := fld 0 (shard % 65536) ||| fld 16 (blk % 65536), bad := if v.bad = Status.done then st else v.bad }
  ((p.count (PMP + 0x160) 1).raise PMP 5).recordErr PMP st 5 1 0 a

/-- Step 1 of R267: the entries an earlier reduction pooled land in their blocks; the blocks they changed
(R268). An entry whose block the range does not have is dropped. -/
def Polder.mergePool (x : PolCtx) (ch : Nat) (t : UpdTable) : Nat → Polder → List Nat → Polder × List Nat
  | 0, p, l => (p, l)
  | n + 1, p, l =>
    let v := p.chan ch
    let r := p.pumpRead x (t.pool + BitVec.ofNat 64 (2048 * v.poolAt)) 2048
    let p := r.p.setChan ch { v with
      pooled := v.pooled - 1, poolOld := v.poolOld - 1, poolAt := (v.poolAt + 1) % max 1 t.poolCap }
    let b := leN r.data 0 4
    if r.st ≠ Status.done then
      Polder.mergePool x ch t n (p.pumpUe ch 0xFFFF b (t.pool + BitVec.ofNat 64 (2048 * v.poolAt)) r.st) l
    else if t.winBlocks ≤ b then Polder.mergePool x ch t n p l
    else
      match p.landBlock x t b 0 (leN r.data 4 2) (f32s ((r.data.drop 64).take 1024)) with
      | (p, .error st) => Polder.mergePool x ch t n (p.pumpUe ch 0xFFFF b t.winBase st) l
      | (p, .ok (c, c', _)) =>
        let v := p.chan ch
        let v := if c < t.full && t.full ≤ c' then { v with blocks := v.blocks + 1 } else v
        Polder.mergePool x ch t n (p.setChan ch v) (if l.contains b then l else l ++ [b])

/-- Step 2 of R267: the sum of squares is corrected for a block's scale. -/
def Polder.sweepBlock (x : PolCtx) (ch : Nat) (t : UpdTable) (merged : List Nat) (p : Polder) (b : Nat) : Polder :=
  match p.countOf x t b with
  | (p, .error st) => p.pumpUe ch 0xFFFF b (t.cntBase + BitVec.ofNat 64 (2 * b)) st
  | (p, .ok n) =>
    if n = 0 || !(n < t.full || merged.contains b) then p
    else match p.blockOf x t b with
      | (p, .error st) => p.pumpUe ch 0xFFFF b (t.winBase + BitVec.ofNat 64 (1024 * b)) st
      | (p, .ok l) =>
        let v := p.chan ch
        let was := match SMap.find? v.squares b with
          | some s => toF64 ((f64 v.sumsq).add (f64 s).neg)
          | none => v.sumsq
        p.setChan ch { v with
          sumsq := dadd was (squaresOf v.k.toNat (some (t.blockScale n)) l), squares := SMap.erase v.squares b }

/-- Blocks a span of the window takes. -/
def UpdTable.blocksOf (t : UpdTable) (o len : Nat) : List Nat :=
  let b := (o - gaOff t.winBase) / 1024
  (List.range ((o + len - gaOff t.winBase + 1023) / 1024 - b)).map (b + ·)

/-- Element `i` of a tie slice with its block's scale; none where the block's count is 0 (R267, R269). -/
def tieTerm (t : UpdTable) (counts : List (Nat × Nat)) (o : Nat) (xs : List W32) (i : Nat) : Option W32 :=
  let b := (o + 4 * i - gaOff t.winBase) / 1024
  match counts.find? fun c => c.1 == b with
  | none => none
  | some c => if c.2 = 0 then none else some (fmul (t.blockScale c.2) ((xs[i]?).getD 0))

/-- The counts of blocks in turn. -/
def Polder.countsOf (x : PolCtx) (t : UpdTable) : List Nat → Polder → List (Nat × Nat) → Polder × Except Status (List (Nat × Nat))
  | [], p, l => (p, .ok l)
  | b :: r, p, l =>
    match p.countOf x t b with
    | (p, .error st) => (p, .error st)
    | (p, .ok n) => Polder.countsOf x t r p (l ++ [(b, n)])

/-- The slices of a shard in turn. -/
def Polder.slicesOf (x : PolCtx) (n : Nat) : List W64 → Polder → List (List W32) → Polder × Except Status (List (List W32))
  | [], p, l => (p, .ok l)
  | a :: r, p, l =>
    let m := p.pumpRead x a (4 * n)
    if m.st = Status.done then Polder.slicesOf x n r m.p (l ++ [f32s m.data]) else (m.p, .error m.st)

/-- The tie-sum pass over a shard (R269). -/
def Polder.tieShard (x : PolCtx) (ch : Nat) (t : UpdTable) (p : Polder) (k : Nat) (s : Shard) : Polder :=
  if s.nslice < 2 then p
  else
    let bs := (s.slices.flatMap fun o => t.blocksOf o (4 * s.count)).eraseDups
    match Polder.countsOf x t bs p [] with
    | (p, .error st) => p.pumpUe ch k 0 t.cntBase st
    | (p, .ok counts) =>
      match Polder.slicesOf x s.count ((List.range s.nslice).map fun i => s.win + BitVec.ofNat 64 (i * s.stride.toNat)) p [] with
      | (p, .error st) => p.pumpUe ch k 0 s.win st
      | (p, .ok xs) =>
        let sums := (List.range s.count).map fun i =>
          (s.slices.zip xs).foldl (fun (a : Option W32) q =>
            match a, tieTerm t counts q.1 q.2 i with
            | a, none => a
            | none, some v => some v
            | some a, some v => some (fadd a v)) none
        let sums := sums.map fun v => v.getD 0
        let p := p.putMem x 1 (gaOff s.win) (bytesOf32 sums)
        let mine := t.blocksOf (gaOff s.win) (4 * s.count)
        let p := bs.foldl (fun p b => p.setCount x t b (if mine.contains b then t.full else 0)) p
        let v := p.chan ch
        p.setChan ch { v with sumsq := dadd v.sumsq (squaresOf v.k.toNat none sums) }

/-- The local sum goes to the roots (R270). -/
def Polder.sendNorm (p : Polder) (x : PolCtx) (ch : Fin 4) (t : UpdTable) : Polder :=
  let sum := toF32 (f64 (p.chan ch.val).sumsq)
  [t.rootCell, t.altCell].foldl (fun p a =>
    (p.normSend x ch (pumpTxn opReduce 1 a t.ctx 0 (bytesOf sum 4))).normSend x ch
      (pumpTxn opAtomic 0 (a + 8) t.ctx 1 [])) p

/-- REDUCTION_DRAINED (R267 to R270). -/
def execReductionDrained (p : Pid) (ch : Fin 4) (s : State) : Host.Outcome State Fault Refusal :=
  .next (s.event p 4 fun x q =>
    let v := q.chan ch.val
    match v.tab with
    | none => q
    | some t =>
      let win := SMap.get (fun _ => Win.reset) q.flx.wins (60 + ch.val)
      if v.st ≠ .closing || !win.writes.isEmpty then q
      else
        let m := Polder.mergePool x ch.val t v.poolOld q []
        let q := (List.range (min t.tieFrom t.winBlocks)).foldl (Polder.sweepBlock x ch.val t m.2) m.1
        let q := (t.shards.zip (List.range t.shards.length)).foldl (fun q s => Polder.tieShard x ch.val t q s.2 s.1) q
        let q := q.setChan ch.val { q.chan ch.val with st := .summing }
        (q.sendNorm x ch t).rootTotal x ch false)

/-- The stream a channel's snapshot goes to is an open OUT stream (R458). -/
def Polder.outOpen (p : Polder) (x : PolCtx) (k : Nat) : Bool :=
  (SMap.get (fun _ => Stream.reset) p.inlet.streams k).session != 0 && (x.cfg p (INL + 0x80) k).getLsbD 0

def Polder.stream (p : Polder) (k : Nat) : Stream := SMap.get (fun _ => Stream.reset) p.inlet.streams k
def Polder.setStream (p : Polder) (k : Nat) (v : Stream) : Polder :=
  { p with inlet := { p.inlet with streams := SMap.set (fun _ => Stream.reset) p.inlet.streams k v } }

/-- Bytes of an OUT stream's share in use (R457). -/
def Stream.outUsed (v : Stream) : Nat :=
  v.images.foldl (fun n i => n + i.data.length) 0 + (v.flying ++ v.again).foldl (fun n f => n + f.data.length) 0

/-- Free bytes of a stream's staging share (R450, R455). -/
def Polder.outRoom (p : Polder) (x : PolCtx) (k : Nat) : Nat :=
  65536 * bitsN (x.cfg p (INL + 0x80) k) 8 8 - (p.stream k).outUsed

/-- Bytes of the image of an update (R457). -/
def UpdTable.image (t : UpdTable) : Nat := t.shards.foldl (fun n s => n + 2 * s.count) 0

/-- High halves handed over from one place of the image on, as room allows (R279, R458). A read that fails
twice hands over zeros for its bytes and is recorded. -/
def Polder.handHighs (x : PolCtx) (ch : Nat) (t : UpdTable) :
    List (Nat × Shard) → Nat → Polder → Nat → Nat → List Byte → Polder × List Byte
  | [], _, p, _, _, acc => (p, acc)
  | (i, s) :: r, at_, p, from_, room, acc =>
    let len := 2 * s.count
    if room = 0 then (p, acc)
    else if at_ + len ≤ from_ then Polder.handHighs x ch t r (at_ + len) p from_ room acc
    else
      let o := from_ - at_
      let n := min room (len - o)
      let m := p.pumpRead x (s.high + BitVec.ofNat 64 o) n
      let p := if m.st = Status.done then m.p else m.p.pumpUe ch i (o / 512) s.high m.st
      let data := if m.st = Status.done then m.data else List.replicate n 0
      Polder.handHighs x ch t r (at_ + len) p (from_ + n) (room - n) (acc ++ data)

/-- The newest snapshot of a stream takes bytes. -/
def putImage (data : List Byte) (ended : Bool) : List OutImage → List OutImage
  | [] => []
  | [i] => [{ i with data := i.data ++ data, ended := ended }]
  | i :: r => i :: putImage data ended r

/-- The Pumps hand high halves to the stream as far as it has room (R458). A stream closed or opened anew
since the update began takes no more of its snapshot. -/
def Polder.handOver (p : Polder) (x : PolCtx) (ch : Nat) (t : UpdTable) : Polder :=
  let v := p.chan ch
  if v.snap ≠ .sending || (p.stream t.stream).images.isEmpty then p
  else
    let room := p.outRoom x t.stream
    let q := Polder.handHighs x ch t ((List.range t.shards.length).zip t.shards) 0 p v.snapAt room []
    let n := v.snapAt + q.2.length
    let w := q.1.stream t.stream
    let q' := q.1.setStream t.stream { w with images := putImage q.2 (n == t.image) w.images }
    q'.setChan ch { q'.chan ch with snapAt := n }

/-- A snapshot is aborted (R458): an open OUT stream sends the ABORT frame at its next offset. -/
def Polder.abortSnap (p : Polder) (x : PolCtx) (ch : Nat) (t : UpdTable) : Polder :=
  let v := p.chan ch
  let p := (p.setChan ch { v with snap := .aborted }).count (INL + 0x78) 1
  let p := p.raise INL 6
  if v.snap = .sending && p.outOpen x t.stream then
    let w := p.stream t.stream
    p.setStream t.stream { w with images := match w.images.getLast? with
      | some i => w.images.dropLast ++ [{ i with data := [], abort := true }]
      | none => [⟨false, bits p.twin.step 0 32, [], false, true⟩] }
  else p

/-- An update's snapshot begins (R279, R458). -/
def Polder.startSnap (p : Polder) (x : PolCtx) (ch : Nat) (t : UpdTable) : Polder :=
  if !t.snap then p
  else if !p.outOpen x t.stream then p.abortSnap x ch t
  else
    let w := p.stream t.stream
    let p := p.setStream t.stream { w with images := w.images ++ [⟨true, bits p.twin.step 0 32, [], false, false⟩] }
    (p.setChan ch { p.chan ch with snap := .sending, snapAt := 0 }).handOver x ch t

/-- The update pass may run: hand-over first (R272, R279). -/
def Polder.startUpdate (p : Polder) (x : PolCtx) (ch : Fin 4) (t : UpdTable) : Polder :=
  p.startSnap x ch.val t

/-- The actions that out-of-band ratios have left for an update's layers (R417): each tensor once, with its
action, and the layer entries without them. -/
def Polder.takeActions (p : Polder) (x : PolCtx) (t : UpdTable) : Polder × List (BitVec 16 × Nat) :=
  let tensor := fun (i : Nat) => bits (x.cfg p (GAU + 0x70) i) 0 16
  let used := fun (i : Nat) => t.shards.any fun s => s.tensor == tensor i
  let l := p.gauge.layers.filterMap fun e =>
    if e.2.act ≠ 0 && used e.1 then some (tensor e.1, e.2.act) else none
  ({ p with gauge := { p.gauge with layers := SMap.mapVals (fun i v => if used i then { v with act := 0 } else v) p.gauge.layers } },
    l)

/-- The Gauge receives the outcome of a step (R410, R412). -/
def Polder.outcome (p : Polder) (nonfinite skipStep : Bool) (k : BitVec 5) : Polder :=
  let p := { p with gauge := { p.gauge with outcomes := p.gauge.outcomes ++ [⟨nonfinite, skipStep, k⟩] } }
  if nonfinite then p.raise GAU 1 else p

/-- The counts of the range become 0 (R264). -/
def Polder.clearCounts (p : Polder) (x : PolCtx) (t : UpdTable) : Polder :=
  p.putMem x 1 (gaOff t.cntBase) (List.replicate (2 * t.winBlocks) 0)

/-- The total has come: the step is skipped, held, or updates (R86, R271, R417). -/
def Polder.decideStep (p : Polder) (x : PolCtx) (ch : Fin 4) (t : UpdTable) (total : W32) : Polder :=
  let v := p.chan ch.val
  let nonf := !(f32 total).isFinite
  let (p, acts) := p.takeActions x t
  let worst := acts.foldl (fun n a => max n a.2) 0
  let p := p.outcome nonf (!nonf && worst = 2) v.k
  if nonf || worst = 2 then
    let p := p.setChan ch.val { v with st := .updating, skipped := true }
    let p := ((p.count (PMP + 0x154) 1).raise PMP 3).clearCounts x t
    let p := if worst = 2 && !nonf then p.count (GAU + 0xA0) 1 8 8 else p
    (p.allHand x ch t).startUpdate x ch t
  else
    let g := (f32 total).sqrt
    let g64 := f64 (toF64 g)
    let lim := f32 t.clipMax
    let c : W32 := if t.clipMax = 0 || g64.isZero then 0x3F800000
      else
        let q := lim.div g64
        if (Num.fin false 1 0).lt q then 0x3F800000 else toF32 q
    let skips := if worst = 1 then acts.map (·.1) else (acts.filter fun a => a.2 == 1).map (·.1)
    let v := { v with st := .updating, norm := toF32 g64, clip := c, skips := skips, held := worst = 3 }
    let p := p.setChan ch.val v
    let p := p.count (GAU + 0xA0) skips.length 0 8
    if worst = 3 then (p.count (GAU + 0xA0) 1 16 8).raise GAU 4 else p.startUpdate x ch t

/-- NORM_TOTAL_READY (R270, R271). -/
def execNormTotalReady (p : Pid) (ch : Fin 4) (s : State) : Host.Outcome State Fault Refusal :=
  .next (s.event p 4 fun x q =>
    let v := q.chan ch.val
    match v.tab with
    | none => q
    | some t =>
      if v.st ≠ .summing then q
      else
        let q := q.rootTotal x ch false
        let r := q.pumpRead x t.norm 24
        let q := r.p
        if r.st = Status.done && BitVec.ofNat 32 (leN r.data 20 4) == t.seq then
          q.decideStep x ch t (BitVec.ofNat 32 (leN r.data 16 4))
        else q)

/-- SNAPSHOT_HANDOFF_WAIT_END (R458). -/
def execSnapshotHandoffWaitEnd (p : Pid) (ch : Fin 4) (s : State) : Host.Outcome State Fault Refusal :=
  .next (s.event p 4 fun x q =>
    let v := q.chan ch.val
    match v.tab with
    | some t => if v.st = .updating && !v.held && v.snapAt < t.image then q.handOver x ch.val t else q
    | none => q)

/-- SNAPSHOT_ABORT (R458). -/
def execSnapshotAbort (p : Pid) (ch : Fin 4) (s : State) : Host.Outcome State Fault Refusal :=
  .next (s.event p 4 fun x q =>
    let v := q.chan ch.val
    match v.tab with
    | some t => if v.st = .updating && v.snap = .sending && v.snapAt < t.image then q.abortSnap x ch.val t else q
    | none => q)

/-- SIGN of a value; the sign of a zero is 0 (R274, R275). -/
def fsign (a : W32) : W32 :=
  match f32 a with
  | .nan => 0x7FC00000
  | .inf n => if n then 0xBF800000 else 0x3F800000
  | .fin n m _ => if m = 0 then 0 else if n then 0xBF800000 else 0x3F800000

/-- 1 ÷ √a within 1 ulp: which of the neighbours is free (R275, log 4). -/
def frsqrt (free : Nat) (a : W32) : W32 :=
  let x := (Num.fin false 1 0).div (f32 a).sqrt
  match x with
  | .fin n m e =>
    let d := Fmt.fp32.encode .rtz (.fin n m e)
    let exact := m % 2 = 0 && toF32 (.fin n m e) = BitVec.ofNat 32 d
    let pick := Config.rsqrtPick free
    BitVec.ofNat 32 (if exact then d + 1 - pick % 3 else d + pick % 2)
  | y => toF32 y

/-- One word of a micro-program (R275). -/
def progStep (free : Nat) (r : List W32) (w : W32) : List W32 :=
  let f := fun (k : Nat) => ((r[k]?).getD 0 : W32)
  let a := f (bitsN w 18 4)
  let b := f (bitsN w 14 4)
  let c := f (bitsN w 10 4)
  let v : W32 := match bitsN w 26 6 with
    | 0x01 => fadd a b
    | 0x02 => fsub a b
    | 0x03 => fmul a b
    | 0x04 => ffma a b c
    | 0x05 => fdiv a b
    | 0x06 => fsqrt a
    | 0x07 => frsqrt free a
    | 0x08 => fmax a b
    | 0x09 => fmin a b
    | 0x0A => toF32 (f32 a).abs
    | 0x0B => fsign a
    | 0x0C => toF32 (f32 a).neg
    | 0x0D => match f32 a with
      | .nan => c
      | .inf n => if n then c else b
      | .fin n m _ => if n && m != 0 then c else b
    | 0x0E => Config.exp2 free a
    | _ => Config.log2 free a
  if bitsN w 26 6 = 0 then r else r.set (bitsN w 22 4) v

/-- What an update of one parameter reads and gives: w, m and v. -/
structure Triple where
  w : W32
  m : W32
  v : W32
  deriving DecidableEq, Repr

/-- The value a Pump writes for a result: a NaN is the pattern of R81 (R273). -/
def cleanNan (w : W32) : W32 := if (f32 w).isNan then 0x7FC00000 else w

/-- b1 or b2 of R274: the exact power is rounded once. -/
def biasOf (b : W32) (t : Nat) : W32 := fsub 0x3F800000 (toF32 ((f32 b).pow t))

/-- The rule of R274 on one parameter; `vh` is v̂ of FACTORED. -/
def applyRule (t : UpdTable) (s : Shard) (free : Nat) (g : W32) (o : Triple) (vh : Option W32) : Triple :=
  let h := fun (k : Nat) => (((t.hyps[s.hyp]?).getD [])[k]?).getD 0
  let one : W32 := 0x3F800000
  let eta := h 0
  let m1 := fadd (fmul (h 1) o.m) (fmul (fsub one (h 1)) g)
  let b1 := biasOf (h 1) t.t
  let b2 := biasOf (h 2) t.t
  let fin := fun (u m v : W32) => Triple.mk (cleanNan (fsub o.w (fmul eta (fadd u (fmul (h 4) o.w))))) m v
  match s.rule with
  | 1 =>
    let v1 := fadd (fmul (h 2) o.v) (fmul (fsub one (h 2)) (fmul g g))
    fin (fdiv (fdiv m1 b1) (fadd (fsqrt (fdiv v1 b2)) (h 3))) m1 v1
  | 2 => let m := fadd (fmul (h 1) o.m) g; fin m m o.v
  | 3 => fin (fsign m1) (fadd (fmul (h 2) o.m) (fmul (fsub one (h 2)) g)) o.v
  | 4 => fin (fdiv (fdiv m1 b1) (fadd (fsqrt (vh.getD 0)) (h 3))) m1 o.v
  | _ =>
    let prog := ((t.progs.find? fun q => q.1 == s.prog).map (·.2)).getD []
    let r := prog.foldl (progStep free)
      ([g, o.w, o.m, o.v] ++ ((List.range 8).map h) ++ [b1, b2, one, 0])
    let f := fun (k : Nat) => cleanNan ((r[k]?).getD 0)
    ⟨f 1, f 2, f 3⟩

/-- The reads of one block in turn, the first that fails ending them (R281). -/
def Polder.readAll (x : PolCtx) : List (W64 × Nat) → Polder → List (List Byte) → Polder × Except (W64 × Status) (List (List Byte))
  | [], p, l => (p, .ok l)
  | (a, n) :: r, p, l =>
    let m := p.pumpRead x a n
    if m.st = Status.done then Polder.readAll x r m.p (l ++ [m.data]) else (m.p, .error (a, m.st))

/-- The gradient of a parameter after the loss scale, the block's scale and the clip factor (R272). -/
def gradOf (t : UpdTable) (k : Nat) (clip : W32) (n : Nat) (x : W32) : W32 :=
  if n = 0 then 0 else fmul (fmul (toF32 ((f32 x).scale (-(k : Int)))) (t.blockScale n)) clip

/-- What the pass over a shard gathers: the sums of R280, the NaNs, the parity delta by array (R278), and the
gradients of its rows (R274). -/
structure Pass where
  p : Polder
  num : BitVec 64
  den : BitVec 64
  nans : Nat
  delta : List (Nat × Nat × List Byte)

/-- XOR of two byte lists. -/
def xorBytes (a b : List Byte) : List Byte := (a.zip b).map fun q => q.1 ^^^ q.2

/-- The image place of each array (R278). -/
def Shard.imageAt (s : Shard) (i : Nat) : Nat := (s.arrays.take i).foldl (fun n a => n + a.2 * s.count) 0

/-- One block of 256 parameters of a shard (R272, R273, R278, R280, R281). -/
def updateBlock (x : PolCtx) (ch : Nat) (t : UpdTable) (k : Nat) (s : Shard) (free : Nat) (skip : Bool)
    (vh : List W32) (a : Pass) (j : Nat) : Pass :=
  let v := a.p.chan ch
  let lo := 256 * j
  let n := min 256 (s.count - lo)
  let wb := (gaOff s.win - gaOff t.winBase) / 1024 + j
  let reads := (t.cntBase + BitVec.ofNat 64 (2 * wb), 2) :: (s.win + BitVec.ofNat 64 (4 * lo), 4 * n) ::
    s.arrays.map fun q => (q.1 + BitVec.ofNat 64 (q.2 * lo), q.2 * n)
  match Polder.readAll x reads a.p [] with
  | (p, .error (ad, st)) => { a with p := p.pumpUe ch k j ad st }
  | (p, .ok l) =>
    let g := fun (i : Nat) => (l[i]?).getD []
    let cnt := natOfBytes (g 0)
    let xs := f32s (g 1)
    let half := fun (b : List Byte) (i : Nat) => (wordOf 16 ((b.drop (2 * i)).take 2) : BitVec 16)
    let old := (List.range n).map fun i =>
      Triple.mk (half (g 2) i ++ half (g 3) i) (((f32s (g 4))[i]?).getD 0) (((f32s (g 5))[i]?).getD 0)
    let new := (old.zip (List.range n)).map fun q =>
      applyRule t s free (gradOf t v.k.toNat v.clip cnt ((xs[q.2]?).getD 0)) q.1 vh[lo + q.2]?
    let ups := [new.flatMap fun q => bytesOf (bits q.w 16 16) 2, new.flatMap fun q => bytesOf (bits q.w 0 16) 2,
      new.flatMap fun q => bytesOf q.m 4, new.flatMap fun q => bytesOf q.v 4]
    let p := if skip then p
      else
        let p := ((s.arrays.zip ups).drop 1).foldl (fun p q =>
          p.putMem x (gaTier q.1.1) (gaOff q.1.1 + q.1.2 * lo) q.2) p
        ((old.zip new).zip (List.range n)).foldl (fun p q =>
          if bits q.1.1.w 16 16 = bits q.1.2.w 16 16 then p
          else p.putMem x (gaTier s.high) (gaOff s.high + 2 * (lo + q.2)) (bytesOf (bits q.1.2.w 16 16) 2)) p
    let p := p.setCount x t wb 0
    let diff := fun (q : Triple × Triple) => toF64 ((f32 q.2.w).add (f32 q.1.w).neg)
    let sum := fun (s : BitVec 64) (d : BitVec 64) => dadd s (toF64 ((f64 d).mul (f64 d)))
    { p := p
      num := (old.zip new).foldl (fun s q => sum s (diff q)) a.num
      den := old.foldl (fun s q => dadd s (dsq q.w)) a.den
      nans := a.nans + (new.filter fun q => (f32 q.w).isNan).length
      delta := a.delta ++ ((List.range s.arrays.length).map fun i =>
        (i, s.imageAt i + ((s.arrays[i]?).map (·.2)).getD 0 * lo, xorBytes (g (2 + i)) ((ups[i]?).getD []))) }

/-- The gradients of a whole FACTORED shard, as its rows are buffered; a block that cannot be read counts as
zeros (R274). -/
def Polder.peekGrads (p : Polder) (ch : Nat) (t : UpdTable) (s : Shard) : List W32 :=
  let v := p.chan ch
  (List.range s.count).map fun i =>
    let wb := (gaOff s.win - gaOff t.winBase) / 1024 + i / 256
    let n := natOfBytes (p.mem.raw 1 (gaOff t.cntBase + 2 * wb) 2)
    gradOf t v.k.toNat v.clip n (wordOf 32 (p.mem.raw 1 (gaOff s.win + 4 * i) 4))

/-- The new row factors and v̂ of a FACTORED shard from its old factors and its gradients (R274). -/
def factored (t : UpdTable) (s : Shard) (fs gs : List W32) : List W32 × List W32 :=
  let rows := s.count / s.cols
  let b2 := (((t.hyps[s.hyp]?).getD [])[2]?).getD 0
  let f := fun (i : Nat) => ((fs[i]?).getD 0 : W32)
  let sq := gs.map fun g => fmul g g
  let row := fun (i : Nat) =>
    let sum := ((sq.drop (i * s.cols)).take s.cols).foldl fadd 0
    fadd (fmul b2 (f i)) (fmul (fsub 0x3F800000 b2) (fdiv sum (toF32 (.fin false s.cols 0))))
  let rs := (List.range rows).map row
  (rs, (List.range s.count).map fun i =>
    if t.t = 1 then (sq[i]?).getD 0
    else fdiv (fmul ((rs[i / s.cols]?).getD 0) (f (rows + i % s.cols))) (f (rows + s.cols)))

/-- Runs of the delta image that follow one another become one. -/
def joinRuns (l : List (Nat × List Byte)) : List (Nat × List Byte) :=
  l.foldl (fun acc q =>
    match acc.getLast? with
    | some r => if r.1 + r.2.length = q.1 then acc.dropLast ++ [(r.1, r.2 ++ q.2)] else acc ++ [q]
    | none => [q]) []

/-- A run of the delta image goes out in units of up to 512 bytes (R278, R317). -/
def Polder.sendDelta (x : PolCtx) (ch : Fin 4) (ctx : BitVec 16) : Nat → Polder → W64 → List Byte → Polder
  | 0, p, _, _ => p
  | n + 1, p, a, bs =>
    if bs.isEmpty then p
    else
      let m := min bs.length (512 - a.toNat % 512)
      Polder.sendDelta x ch ctx n (p.pumpSend x ch (pumpTxn opWrite 0 a ctx 0 (bs.take m)))
        (a + BitVec.ofNat 64 m) (bs.drop m)

/-- The pass over a shard (R272 to R281). -/
def Polder.updateShard (p : Polder) (x : PolCtx) (ch : Fin 4) (t : UpdTable) (k : Nat) (s : Shard) : Polder :=
  let v := p.chan ch.val
  let skip := v.skips.contains s.tensor
  let vread := p.pumpRead x s.v s.factorBytes
  let facs := f32s vread.data
  let p := if vread.st = Status.done then vread.p else vread.p.pumpUe ch.val k 0 s.v vread.st
  let fx := if s.rule = 4 then factored t s facs (p.peekGrads ch.val t s) else ([], [])
  let a := (List.range ((s.count + 255) / 256)).foldl
    (fun a j => if s.rule = 4 && vread.st ≠ Status.done then a
      else updateBlock x ch.val t k s x.free skip fx.2 a j) ⟨p, 0, 0, 0, []⟩
  let last := if s.rule = 4 then fx.1 ++ (List.range (s.cols + 1)).map fun i => Config.factors x.free i else []
  let write := s.rule = 4 && !skip && vread.st = Status.done
  let p := if write then a.p.putMem x (gaTier s.v) (gaOff s.v) (bytesOf32 last) else a.p
  let p := if a.nans = 0 then p else (p.count (PMP + 0x164) a.nans).raise PMP 6
  if skip then p
  else
    let pieces := (List.range 4).flatMap fun i => (a.delta.filter fun d => d.1 == i).map (·.2)
    let pieces := pieces ++ if write then [(s.imageAt 4, xorBytes vread.data (bytesOf32 last))] else []
    let p := if s.par = 0 then p
      else (joinRuns pieces).foldl (fun p q =>
        Polder.sendDelta x ch t.ctx (q.2.length + 1) p (s.par + BitVec.ofNat 64 q.1) q.2) p
    let p := p.wr (PMP + 0x15C) (p.rd (PMP + 0x15C) (1 + s.pump) + BitVec.ofNat 32 s.count) (1 + s.pump)
    { p with gauge := { p.gauge with ratios := p.gauge.ratios ++ [⟨ch, s.tensor, a.num, a.den, a.nans⟩] } }

/-- Chunks that may be announced: every shard up to them is complete (R277). -/
def Chan.ready (v : Chan) (t : UpdTable) (c : Nat) : Bool :=
  (t.shards.zip (List.range t.shards.length)).all fun q => c < q.1.chunk || v.shards.contains q.2

/-- DONE advances chunk by chunk (R172, R277). -/
def Polder.advanceHand (x : PolCtx) (ch : Fin 4) (t : UpdTable) : Nat → Polder → Polder
  | 0, p => p
  | n + 1, p =>
    let v := p.chan ch.val
    if v.chunks < t.nchunk && v.ready t v.chunks then Polder.advanceHand x ch t n (p.stepHand x ch t) else p

/-- A shard is its Pump's next: those of its Pump before it, by chunk and then in table order, are complete
(R272). -/
def Chan.isNext (v : Chan) (t : UpdTable) (k : Nat) (s : Shard) : Bool :=
  !v.shards.contains k && (t.shards.zip (List.range t.shards.length)).all fun q =>
    q.1.pump != s.pump || v.shards.contains q.2 ||
      !(decide (q.1.chunk < s.chunk) || (q.1.chunk == s.chunk && decide (q.2 < k)))

/-- The snapshot has taken a shard's high halves (R279). -/
def Chan.handed (v : Chan) (t : UpdTable) (k : Nat) : Bool :=
  v.snap ≠ .sending || (t.shards.take (k + 1)).foldl (fun n s => n + 2 * s.count) 0 ≤ v.snapAt

/-- PUMP_SHARD_COMPLETE (R277). -/
def execPumpShardComplete (p : Pid) (ch : Fin 4) (shard : Nat) (s : State) : Host.Outcome State Fault Refusal :=
  .next (if s.live p 4 then s.onPolFree p fun x q =>
      let v := q.chan ch.val
      match v.tab with
      | none => q
      | some t =>
        match t.shards[shard]? with
        | none => q
        | some sh =>
          if v.st = .updating && !v.skipped && !v.held && v.isNext t shard sh && v.handed t shard then
            let q := q.updateShard x ch t shard sh
            let v := q.chan ch.val
            let q := q.setChan ch.val { v with shards := v.shards ++ [shard] }
            Polder.advanceHand x ch t (t.nchunk + 1) q
          else q
    else s)

/-- The update pass has nothing left to do (R277, R281, R282). -/
def Polder.updateOver (p : Polder) (ch : Fin 4) (t : UpdTable) : Bool :=
  let v := p.chan ch.val
  v.st = .updating && !v.held && (v.skipped || t.shards.length ≤ v.shards.length) &&
  (v.snap ≠ .sending || t.image ≤ v.snapAt) && !(p.flx.reqs.any fun r => r.asker == .pump ch)

/-- PUMP_UPDATE_COMPLETE (R281, R282). -/
def execPumpUpdateComplete (p : Pid) (ch : Fin 4) (s : State) : Host.Outcome State Fault Refusal :=
  .next (s.event p 4 fun _ q =>
    let v := q.chan ch.val
    match v.tab with
    | none => q
    | some t =>
      if q.updateOver ch t then
        let code := if v.bad ≠ Status.done then v.bad else if v.skipped then Status.done else v.close
        (q.setChan ch.val { v with st := .late, code := code, snap := .none }).raise PMP 2
      else q)

end Sys2Proof.Machine
end

