-- ==== Sys2Proof/Machine/Inlet.lean ====
section
/-! DEFINITION. The Inlet port: frames in and out, streams, flow control and bring-up (R295, R446 to R459).
Readings and choices: log 46, 47. -/

namespace Sys2Proof.Machine

def Polder.onInlet (p : Polder) (f : Inlet → Inlet) : Polder := { p with inlet := f p.inlet }

/-- Fields of a stream's configuration (R450, R459). -/
def PolCtx.strCfg (x : PolCtx) (p : Polder) (k : Nat) : W32 := x.cfg p (INL + 0x80) k
/-- DIR: the stream carries snapshots out (R459). -/
def PolCtx.strOut (x : PolCtx) (p : Polder) (k : Nat) : Bool := (x.strCfg p k).getLsbD 0
/-- PCP, which is also the PFC priority (R450). -/
def PolCtx.strPrio (x : PolCtx) (p : Polder) (k : Nat) : Nat := bitsN (x.strCfg p k) 1 3
/-- Bytes of the stream's staging share (R455). -/
def PolCtx.strShare (x : PolCtx) (p : Polder) (k : Nat) : Nat := 65536 * bitsN (x.strCfg p k) 8 8
/-- Bytes of the stream's ring (R452). -/
def PolCtx.ringBytes (x : PolCtx) (p : Polder) (k : Nat) : Nat := 2 ^ bitsN (x.cfg p (INL + 0xA8) k) 0 6
/-- The address of the stream's ring (R452). -/
def PolCtx.ringBase (x : PolCtx) (p : Polder) (k : Nat) : W64 :=
  x.cfg p (INL + 0xA4) k ++ x.cfg p (INL + 0xA0) k

/-- The address of the stream's peer: INL_STR_PEER_IP0 holds bytes 0 to 3, byte 0 in [31:24] (R459). -/
def PolCtx.peerIp (x : PolCtx) (p : Polder) (k : Nat) : BitVec 128 :=
  x.cfg p (INL + 0x88) k ++ x.cfg p (INL + 0x8C) k ++ x.cfg p (INL + 0x90) k ++ x.cfg p (INL + 0x94) k

/-- A priority has PFC enabled (R446, R459). -/
def PolCtx.pfcOn (x : PolCtx) (p : Polder) (prio : Nat) : Bool := (x.cfg p (INL + 0x5C)).getLsbD prio

/-- The credit limit of an IN stream (R452). -/
def PolCtx.creditEnd (x : PolCtx) (p : Polder) (k : Nat) : Nat := (p.stream k).consumed.toNat + x.ringBytes p k

/-- Free bytes of an IN stream's share (R453, R455). -/
def PolCtx.stagingFree (x : PolCtx) (p : Polder) (k : Nat) : Nat :=
  x.strShare p k - p.inlet.staging.foldl (fun n f => if f.stream.val = k then n + f.data.length else n) 0

/-- The port sends a frame while it is UP. -/
def Polder.sendFrame (p : Polder) (f : InlFrame) : Polder :=
  if p.inlet.up then p.onInlet fun i => { i with out := i.out ++ [f] } else p

/-- An open IN stream's CREDIT (R448, R449, R452, R454). -/
def Polder.sendCredit (p : Polder) (x : PolCtx) (k : Nat) : Polder :=
  let v := p.stream k
  if !p.inlet.up || v.session = 0 || x.strOut p k then p
  else
    let lim := x.creditEnd p k
    let p := p.sendFrame ⟨2, if v.defer then 8 else 0, k, Status.done, v.session, v.delivered.toNat, lim, 0, []⟩
    p.setStream k { v with creditLimit := lim, creditDone := v.delivered.toNat, defer := false }

/-- A NACK, unless one went out for the same offset within 10 µs (R449, R453). -/
def Polder.sendNack (p : Polder) (k : Nat) (st : Status) (gap : Bool) (o : Nat) : Polder :=
  let v := p.stream k
  if v.nacked.contains o then p
  else (p.setStream k { v with nacked := v.nacked ++ [o] }).sendFrame
    ⟨4, if gap then 0x10 else 0, k, st, v.session, o, 0, 0, []⟩

/-- A frame dropped under R446, R447, R449 or R450. -/
def Polder.rxOther (p : Polder) : Polder := p.count (INL + 0x68) 1

/-- A frame dropped for its session (R451). -/
def Polder.rxStale (p : Polder) : Polder := (p.count (INL + 0x6C) 1).raise INL 5

/-- A frame arrives for a stream of a direction: the checks of R449 to R451 before its own. -/
def Polder.acceptFrame (p : Polder) (x : PolCtx) (f : Frame) (out : Bool) (lenOk : Bool) (act : Polder → Polder) :
    Polder :=
  let k := f.stream.val
  if !p.inlet.up then p
  else if f.srcIp ≠ x.peerIp p k || x.strOut p k ≠ out || !lenOk then p.rxOther
  else if f.session = 0 || f.session ≠ (p.stream k).session then p.rxStale
  else act p

/-- The checks of a DATA frame in order, and its admission (R453, R454). -/
def Polder.admitData (p : Polder) (x : PolCtx) (f : Frame) : Polder :=
  let k := f.stream.val
  let v := p.stream k
  let o := f.offset.toNat
  let len := f.payload.length
  let u := 4 * (v.used + len)
  let bw := x.cfg p (INL + 0xAC) k
  if o ≠ v.expect then
    ((p.count (INL + 0xD0) 1 (place := 1 + k)).raise INL 3).sendNack k Status.done true v.expect
  else if x.creditEnd p k < o + len || 3125 * bitsN bw 16 9 < u then
    ((p.count (INL + 0xC8) 1 (place := 1 + k)).raise INL 2).sendNack k Status.refusedQuota false o
  else if x.stagingFree p k < len then
    ((p.count (INL + 0xCC) 1 (place := 1 + k)).raise INL 2).sendNack k Status.refusedBusy false o
  else
    let elastic := decide (3125 * bitsN bw 0 9 < u)
    let p := if elastic then p.count (INL + 0xC4) 1 (place := 1 + k) else p
    let p := p.setStream k { p.stream k with expect := o + len, used := v.used + len, defer := v.defer || elastic }
    p.onInlet fun i => { i with staging := i.staging ++ [⟨f.stream, v.session, o, f.payload, f.last, elastic⟩] }

/-- INLET_DATA_FRAME (R453): nothing where the frame is of another type. -/
def execInletDataFrame (p : Pid) (f : Frame) (s : State) : Host.Outcome State Fault Refusal :=
  if !f.wf then .fault .illFormed
  else .next (s.event p 5 fun x q =>
    if f.type ≠ 1 then q
    else q.acceptFrame x f false (64 ≤ f.payload.length && f.payload.length % 64 == 0) fun q => q.admitData x f)

/-- INLET_CREDIT_FRAME (R449, R457): the limit advances, and bytes reported delivered leave the share. -/
def execInletCreditFrame (p : Pid) (f : Frame) (s : State) : Host.Outcome State Fault Refusal :=
  if !f.wf then .fault .illFormed
  else .next (s.event p 5 fun x q =>
    if f.type ≠ 2 then q
    else q.acceptFrame x f true f.payload.isEmpty fun q =>
      let k := f.stream.val
      let v := q.stream k
      let done := max v.delivered.toNat (min f.offset.toNat v.next)
      let waits := fun (g : OutFrame) => decide (done < g.offset + g.data.length)
      q.setStream k { v with
        delivered := BitVec.ofNat 64 done, limit := max v.limit f.limit.toNat
        flying := v.flying.filter waits, again := v.again.filter waits })

/-- INLET_NACK_FRAME (R449, R457): what was sent from OFFSET on is sent again. -/
def execInletNackFrame (p : Pid) (f : Frame) (s : State) : Host.Outcome State Fault Refusal :=
  if !f.wf then .fault .illFormed
  else .next (s.event p 5 fun x q =>
    if f.type ≠ 4 then q
    else q.acceptFrame x f true f.payload.isEmpty fun q =>
      let k := f.stream.val
      let v := q.stream k
      let redo := fun (g : OutFrame) => decide (f.offset.toNat < g.offset + g.data.length) || g.offset == f.offset.toNat
      q.setStream k { v with
        flying := v.flying.filter fun g => !redo g, again := v.flying.filter redo ++ v.again })

/-- INLET_PFC_FRAME (R446, R457): priorities whose pause time is not zero stop, others resume. -/
def execInletPfcFrame (p : Pid) (enable pause : BitVec 8) (s : State) : Host.Outcome State Fault Refusal :=
  .next (s.event p 5 fun x q =>
    if !q.inlet.up then q
    else
      let on := enable &&& bits (x.cfg q (INL + 0x5C)) 0 8
      let old := q.inlet.paused
      let q := q.onInlet fun i => { i with paused := (i.paused &&& ~~~on) ||| (pause &&& on) }
      let q := if pause &&& on ≠ 0 then q.count (INL + 0x74) 1 else q
      if pause &&& on &&& ~~~old ≠ 0 then q.raise INL 4 else q)

/-- INLET_FRAME_DROP (R446, R447, R449 to R451). -/
def execInletFrameDrop (p : Pid) (cause : DropCause) (s : State) : Host.Outcome State Fault Refusal :=
  .next (s.event p 5 fun _ q =>
    if !q.inlet.up then q
    else match cause with
      | .fcs => q.count (INL + 0x64) 1
      | .other => q.rxOther
      | .session => q.rxStale)

/-- The frame the staging mover writes next: the first within a guarantee, else the first (R454). -/
def Inlet.nextStaged (i : Inlet) : Option Staged :=
  match i.staging.find? fun f => !f.elastic with
  | some f => some f
  | none => i.staging.head?

/-- The pieces of a frame in its ring: the place, and the bytes (R452). -/
def ringPieces (n o : Nat) (bs : List Byte) : List (Nat × List Byte) :=
  let a := o % n
  if a + bs.length ≤ n then [(a, bs)] else [(a, bs.take (n - a)), (0, bs.drop (n - a))]

/-- The mover writes bytes of a stream's ring in own tier 1 or 2 (R452, R454). -/
def Polder.writeRing (p : Polder) (x : PolCtx) (k at_ : Nat) (bs : List Byte) : Polder × Bool :=
  let base := x.ringBase p k + BitVec.ofNat 64 at_
  if !x.isOwn p base || !(gaTier base = 1 || gaTier base = 2) then (p, false)
  else
    let r := p.memWrite x ⟨2, 0, bits (x.strCfg p k) 16 16, false, false⟩ (gaTier base) (gaOff base) (bs.map some)
    (r.p, r.st = Status.done)

/-- Pieces in turn, until one is not written. -/
def Polder.writeRings (x : PolCtx) (k : Nat) : List (Nat × List Byte) → Polder → Polder × Bool
  | [], p => (p, true)
  | a :: r, p =>
    let q := p.writeRing x k a.1 a.2
    if q.2 then Polder.writeRings x k r q.1 else q

/-- Every byte of the stream below this is visible: the lowest byte still staged, else the next expected
(R449, R455). -/
def Inlet.visible (i : Inlet) (k : Nat) (v : Stream) : Nat :=
  (i.staging.filter fun f => f.stream.val == k && f.session == v.session).foldl (fun n f => min n f.offset) v.expect

/-- The increment of INL_STR_SIG (R178, R455). -/
def Polder.inletSignal (p : Polder) (k : Nat) : Polder :=
  let s := p.rd (INL + 0xC0) (1 + k)
  if !s.getLsbD 29 then p
  else
    let eng := s.getLsbD 28
    let target := if eng then bitsN s 0 8 else bitsN s 0 8 * 160 + bitsN s 8 8
    if (if eng then 64 ≤ target else 160 ≤ bitsN s 8 8) then p
    else p.onGrid fun g => { g with incrs := g.incrs ++ [⟨eng, target, bitsN s 16 4, bitsN s 20 8, p.cycle⟩] }

/-- INLET_FRAME_DELIVERED (R454, R455): a frame the ring does not take stays in staging. -/
def execInletFrameDelivered (p : Pid) (s : State) : Host.Outcome State Fault Refusal :=
  .next (s.event p 4 fun x q =>
    match q.inlet.nextStaged with
    | none => q
    | some f =>
      let k := f.stream.val
      let r := Polder.writeRings x k (ringPieces (x.ringBytes q k) f.offset f.data) q
      if !r.2 then r.1
      else
        let q := r.1.onInlet fun i => { i with staging := i.staging.erase f }
        let v := q.stream k
        let q := if f.session = v.session then
            q.setStream k { v with delivered := BitVec.ofNat 64 (q.inlet.visible k v) }
          else q
        if f.last then q.inletSignal k else q)

/-- The class of the target an IN stream's ring lies in (R463). -/
def ringClass (a : W64) : PageClass := if gaTier a = 0 then .grid else .memory

/-- A write of INL_STR_SESSION (R451). -/
def Polder.writeSession (p : Polder) (x : PolCtx) (k : Nat) (v : W32) : Polder :=
  let old := p.stream k
  if v = 0 then p.setStream k { old with session := 0, images := [], flying := [], again := [] }
  else
    let p := (p.wr (INL + 0xB0) 0 (1 + k)).setStream k { Stream.reset with session := v, used := old.used }
    p.sendCredit x k

/-- INLET_SESSION_WRITE (R451, R466): opening an IN stream whose ring the Inlet may not write is ignored. -/
def State.sessionWrite (s : State) (p : Pid) (w : Who) (v : W32) : State :=
  let q := s.pol p
  let x : PolCtx := ⟨p, s.mod, s.free, s.ticks⟩
  let k := q.sel (INL + 0x7C) w
  let ring := x.ringBase q k
  if v ≠ 0 && !x.strOut q k && s.mod.denied .inlet (ringClass ring) true then
    s.onMod fun m => m.deny .inlet ring.toNat
  else s.onPol p fun x q => q.writeSession x k v

def execInletSessionWrite (p : Pid) (w : Who) (v : W32) (s : State) : Host.Outcome State Fault Refusal :=
  .next (s.throughPol p (s.polGate p (Blk.cls .inl) (INL + 0x84) w true) w (INL + 0x84) fun s =>
    s.sessionWrite p w v)

/-- A write of INL_STR_CONSUMED: a CREDIT goes when the limit is an eighth of the ring further (R452). -/
def Polder.writeConsumed (p : Polder) (x : PolCtx) (k : Nat) (v : W64) : Polder :=
  let o := p.stream k
  let p := p.wr (INL + 0xB0) (bits v 0 32) (1 + k)
  if v.toNat < o.consumed.toNat || o.delivered.toNat < v.toNat then p
  else
    let p := p.setStream k { o with consumed := v }
    if x.ringBytes p k / 8 ≤ x.creditEnd p k - o.creditLimit then p.sendCredit x k else p

/-- INLET_CONSUMED_WRITE (R452, R516). -/
def execInletConsumedWrite (p : Pid) (w : Who) (v : W64) (s : State) : Host.Outcome State Fault Refusal :=
  .next (s.writePage p (INL + 0xB4) w fun x q => q.writeConsumed x (q.sel (INL + 0x7C) w) v)

/-- INLET_CREDIT_TIMER: 10 µs of a stream (R452, R453). -/
def execInletCreditTimer (p : Pid) (stream : Fin 16) (s : State) : Host.Outcome State Fault Refusal :=
  .next (s.event p 5 fun x q =>
    let k := stream.val
    let q := q.setStream k { q.stream k with nacked := [] }
    let v := q.stream k
    if x.creditEnd q k ≠ v.creditLimit || v.delivered.toNat ≠ v.creditDone then q.sendCredit x k else q)

/-- INLET_PFC_SEND (R456): a pause, which repeats, or a resume. -/
def execInletPfcSend (p : Pid) (prio : Fin 8) (s : State) : Host.Outcome State Fault Refusal :=
  .next (s.event p 5 fun x q =>
    let n := prio.val
    if !q.inlet.up || !x.pfcOn q n then q
    else
      let room := 65536 * bitsN (x.cfg q (INL + 0x5C)) 16 8
      let ins := (List.range 16).filter fun k =>
        (q.stream k).session != 0 && !x.strOut q k && x.strPrio q k == n
      let bit : BitVec 8 := BitVec.ofNat 8 (2 ^ n)
      if ins.any fun k => decide (x.stagingFree q k < room) then
        let was := q.inlet.xoff.getLsbD n
        let q := (q.onInlet fun i => { i with
          xoff := i.xoff ||| bit, pfcOut := i.pfcOut ++ [(bit, 0xFFFF#16)] }).count (INL + 0x70) 1
        if was then q else q.raise INL 4
      else if q.inlet.xoff.getLsbD n && ins.all fun k => decide (2 * room ≤ x.stagingFree q k) then
        q.onInlet fun i => { i with xoff := i.xoff &&& ~~~bit, pfcOut := i.pfcOut ++ [(bit, 0#16)] }
      else q)

/-- A SNAPSHOT frame (R448, R449). -/
def snapFrame (k : Nat) (session : W32) (f : OutFrame) (abort : Bool) : InlFrame :=
  ⟨3, bit01 f.first + 2 * bit01 f.last + 4 * bit01 abort, k, Status.done, session, f.offset, 0, f.step, f.data⟩

/-- The next SNAPSHOT frame of an OUT stream: one to be sent again, else the ABORT or the next bytes of the
oldest image that lie below the peer's limit (R457, R458). -/
def Polder.sendSnap (p : Polder) (k : Nat) : Polder :=
  let v := p.stream k
  match v.again with
  | f :: r =>
    (p.setStream k { v with again := r, flying := v.flying ++ [f] }).sendFrame (snapFrame k v.session f false)
  | [] =>
    match v.images with
    | [] => p
    | i :: r =>
      if i.abort then
        (p.setStream k { v with images := r }).sendFrame
          (snapFrame k v.session ⟨v.next, [], false, false, i.step⟩ true)
      else
        let want := min 8192 ((v.limit - v.next) / 64 * 64)
        let n := min want i.data.length
        let last := i.ended && n == i.data.length
        if (n = 0 && !last) || (n < want && !i.ended) then p
        else
          let f : OutFrame := ⟨v.next, i.data.take n, i.first, last, i.step⟩
          let images := if last then r else { i with first := false, data := i.data.drop n } :: r
          (p.setStream k { v with
            images := images, next := v.next + n, flying := v.flying ++ [f] }).sendFrame
            (snapFrame k v.session f false)

/-- INLET_SNAPSHOT_SEND (R457): an open OUT stream of a port that is UP, on a priority that is not paused. -/
def execInletSnapshotSend (p : Pid) (stream : Fin 16) (s : State) : Host.Outcome State Fault Refusal :=
  .next (s.event p 5 fun x q =>
    let k := stream.val
    let n := x.strPrio q k
    if !q.inlet.up || !q.outOpen x k || (x.pfcOn q n && q.inlet.paused.getLsbD n) then q else q.sendSnap k)

/-- The port leaves UP, or bring-up fails, with a cause (R295, R459). -/
def Polder.inletDown (p : Polder) (cause : Nat) : Polder :=
  let was := p.inlet.up
  let p := p.onInlet fun i => { i with up := false, cause := cause, paused := 0, xoff := 0 }
  if was then p.raise INL 1 else p

/-- A write of the port's CTRL (R459). -/
def Polder.inletCtrl (p : Polder) (v : W32) : Polder :=
  let p := p.wr (INL + 0x0C) (v &&& 1#32)
  if v.getLsbD 0 then p else p.inletDown 0

/-- INLET_BRINGUP (R295, R452): lane check, auto-negotiation and training end, for an enabled port. -/
def execInletBringup (p : Pid) (laneFault strelham : Bool) (s : State) : Host.Outcome State Fault Refusal :=
  .next (s.event p 5 fun x q =>
    if !(q.rd (INL + 0x0C)).getLsbD 0 then q
    else if laneFault then q.inletDown 6
    else if strelham then q.inletDown 2
    else if q.inlet.up then q
    else
      let q := (q.onInlet fun i => { i with up := true }).raise INL 0
      (List.range 16).foldl (fun (q : Polder) k => q.sendCredit x k) q)

end Sys2Proof.Machine
end

