-- ==== Sys2Proof/Machine/Ecdsa.lean ====
section
/-! DEFINITION. ECDSA verification on brainpoolP384r1, the signature scheme of firmware images (R469; the
curve and the scheme are those the manual names: RFC 5639, FIPS 186). Readings and choices: log 51. -/

namespace Sys2Proof.Machine

/-- The field prime, the coefficients, the base point and its order. -/
def ecP : Nat := 0x8CB91E82A3386D280F5D6F7E50E641DF152F7109ED5456B412B1DA197FB71123ACD3A729901D1A71874700133107EC53
def ecA : Nat := 0x7BC382C63D8C150C3C72080ACE05AFA0C2BEA28E4FB22787139165EFBA91F90F8AA5814A503AD4EB04A8C7DD22CE2826
def ecB : Nat := 0x04A8C7DD22CE28268B39B55416F0447C2FB77DE107DCD2A62E880EA53EEB62D57CB4390295DBC9943AB78696FA504C11
def ecX : Nat := 0x1D1C64F068CF45FFA2A63A81B7C13F6B8847A3E77EF14FE3DB7FCAFE0CBD10E8E826E03436D646AAEF87B2E247D4AF1E
def ecY : Nat := 0x8ABE1D7520F9C2A45CB1EB8E95CFD55262B70B29FEEC5864E19C054FF99129280E4646217791811142820341263C5315
def ecQ : Nat := 0x8CB91E82A3386D280F5D6F7E50E641DF152F7109ED5456B31F166E6CAC0425A7CF3AB6AF6B7FC3103B883202E9046565

/-- `b ^ e` modulo `m`, by the low `n` bits of `e`. -/
def powMod (m : Nat) : Nat → Nat → Nat → Nat
  | 0, _, _ => 1 % m
  | n + 1, b, e =>
    let r := powMod m n (b * b % m) (e / 2)
    if e % 2 = 1 then b * r % m else r

/-- An inverse modulo a prime. -/
def invMod (m a : Nat) : Nat := powMod m 384 (a % m) (m - 2)

/-- A point of the curve in Jacobian coordinates: the affine point (x / z^2, y / z^3), or the point at infinity where
z is 0. No addition needs a division so; the last step of a verification makes the only one. -/
structure EcPoint where
  x : Nat
  y : Nat
  z : Nat
  deriving DecidableEq, Repr

def EcPoint.infinity : EcPoint := ⟨1, 1, 0⟩

/-- Arithmetic modulo the field prime. -/
def fMul (a b : Nat) : Nat := a * b % ecP
def fSub (a b : Nat) : Nat := (a + (ecP - b)) % ecP

/-- Twice a point. -/
def ecDouble (q : EcPoint) : EcPoint :=
  let yy := fMul q.y q.y
  let s := 4 * fMul q.x yy % ecP
  let zz := fMul q.z q.z
  let m := (3 * fMul q.x q.x + fMul ecA (fMul zz zz)) % ecP
  let x := fSub (fMul m m) (2 * s % ecP)
  ⟨x, fSub (fMul m (fSub s x)) (8 * fMul yy yy % ecP), 2 * fMul q.y q.z % ecP⟩

/-- The sum of two points; h and r are the differences of the abscissas and of the ordinates over a common z. -/
def ecAdd (a b : EcPoint) : EcPoint :=
  if a.z = 0 then b
  else if b.z = 0 then a
  else
    let za := fMul a.z a.z
    let zb := fMul b.z b.z
    let u := fMul a.x zb
    let s := fMul a.y (fMul b.z zb)
    let h := fSub (fMul b.x za) u
    let r := fSub (fMul b.y (fMul a.z za)) s
    if h = 0 then (if r = 0 then ecDouble a else EcPoint.infinity)
    else
      let hh := fMul h h
      let hhh := fMul h hh
      let v := fMul u hh
      let x := fSub (fSub (fMul r r) hhh) (2 * v % ecP)
      ⟨x, fSub (fMul r (fSub v x)) (fMul s hhh), fMul h (fMul a.z b.z)⟩

/-- A multiple of a point, by the low `n` bits of the factor. -/
def ecMul : Nat → Nat → EcPoint → EcPoint
  | 0, _, _ => EcPoint.infinity
  | n + 1, k, q =>
    let r := ecMul n (k / 2) (ecDouble q)
    if k % 2 = 1 then ecAdd q r else r

/-- The abscissa of a point; none at infinity. -/
def EcPoint.abscissa (q : EcPoint) : Option Nat :=
  if q.z = 0 then none else some (fMul q.x (invMod ecP (fMul q.z q.z)))

/-- A big-endian integer (R468). -/
def natBE (bs : List Byte) : Nat := bs.foldl (fun n b => 256 * n + b.toNat) 0

/-- A signature over a SHA-384 digest verifies under a 97-byte uncompressed public key. -/
def ecdsaOk (key digest sigR sigS : List Byte) : Bool :=
  let x := natBE ((key.drop 1).take 48)
  let y := natBE ((key.drop 49).take 48)
  let r := natBE sigR
  let s := natBE sigS
  let good := key.head? = some 0x04 ∧ x < ecP ∧ y < ecP ∧ y * y % ecP = (x * x * x + ecA * x + ecB) % ecP ∧
    0 < r ∧ r < ecQ ∧ 0 < s ∧ s < ecQ
  if good then
    let w := invMod ecQ s
    let u := natBE digest * w % ecQ
    let v := r * w % ecQ
    match (ecAdd (ecMul 384 u ⟨ecX, ecY, 1⟩) (ecMul 384 v ⟨x, y, 1⟩)).abscissa with
    | none => false
    | some z => z % ecQ == r
  else false

end Sys2Proof.Machine
end

