-- ==== Sys2Proof/Machine/Security.lean ====
section
/-! DEFINITION. Firmware images and their test, fuse blows, the anti-rollback counter and the identity (R460
to R472). Readings and choices: log 44. -/

namespace Sys2Proof.Machine

/-- A field of an image's header (R468). -/
def fwField (b : List Byte) (at_ len : Nat) : Nat := natOfBytes ((b.drop at_).take len)

def fwZero (b : List Byte) (at_ len : Nat) : Bool := ((b.drop at_).take len).all (· == 0)

/-- The image digest: SHA-384 over bytes 0 to 167 (R468). -/
def fwDigest (b : List Byte) : List Byte := sha384 (b.take 168)

/-- The ARB count (R471). -/
def Fuses.arbCount (f : Fuses) : Nat := ((List.range 64).filter fun i => f.arb.getLsbD i).length

/-- The reason SEC_FW_STATUS names for an image: 0 where it verifies (R469). -/
def Fuses.fwReason (f : Fuses) (b : List Byte) : Nat :=
  if b.length < 512 || fwField b 0 4 ≠ 0x56465753 || fwField b 4 2 ≠ 1 || !fwZero b 6 2 || !fwZero b 161 7 ||
    !fwZero b 264 248 then 1
  else if sha384 ((b.drop 64).take 97) ≠ bytesOf f.fwKey 48 then 2
  else if fwField b 8 4 < f.arbCount || 64 < fwField b 8 4 then 3
  else if !ecdsaOk ((b.drop 64).take 97) (fwDigest b) ((b.drop 168).take 48) ((b.drop 216).take 48) then 4
  else if sha384 (b.drop 512) ≠ (b.drop 16).take 48 then 5
  else 0

/-- The image of a boot-flash slot: slot B for `true` (R437). -/
def Module.image? (m : Module) (slot : Bool) : Option (List Byte) := (SMap.find? m.images (bit01 slot)).map (·.bytes)

/-- A slot holds an image that verifies (R469). -/
def Module.slotOk (m : Module) (slot : Bool) : Bool :=
  match m.image? slot with
  | some b => m.fuses.fwReason b == 0
  | none => false

/-- The SVN of a slot's image; none when the slot is empty. -/
def Module.svn? (m : Module) (slot : Bool) : Option Nat := (m.image? slot).map fun b => fwField b 8 4

/-- A write of FUS_BLOW with GO: a blow begins, or is refused (R461). Only Varore may blow, and while a blow
runs a GO does nothing. -/
def Module.blowFuse (m : Module) (r : Requester) (field bit : Nat) : Module :=
  if r ≠ .keeperFw || m.fuses.fieldLock then m
  else
    let v := m.rd (FUS + 0x8C)
    let m := m.wr (FUS + 0x8C) (setField (setField v 0 7 bit) 8 2 field)
    if m.blow.isSome then m
    else if field = 3 || 95 < bit then
      (m.wr (FUS + 0x8C) (setField (m.rd (FUS + 0x8C)) 24 8 Status.internal.toNat)).raise FUS 1
    else { m with blow := some (field, bit) }

/-- FUSE_BLOW_PROT_MAP (R461). -/
def execFuseBlowProtMap (w : Who) (i : Fin 128) (s : State) : Host.Outcome State Fault Refusal :=
  .next (s.writeMod (FUS + 0x8C) w fun m => m.blowFuse w.req 0 i.val)

/-- FUSE_BLOW_DEBUG_LOCK (R461). -/
def execFuseBlowDebugLock (w : Who) (s : State) : Host.Outcome State Fault Refusal :=
  .next (s.writeMod (FUS + 0x8C) w fun m => m.blowFuse w.req 1 0)

/-- FUSE_BLOW_FIELD_LOCK (R461). -/
def execFuseBlowFieldLock (w : Who) (s : State) : Host.Outcome State Fault Refusal :=
  .next (s.writeMod (FUS + 0x8C) w fun m => m.blowFuse w.req 2 0)

/-- A bit is blown (R460). -/
def Fuses.blown (f : Fuses) (field bit : Nat) : Fuses :=
  match field with
  | 0 => { f with protMap := f.protMap ||| BitVec.ofNat 96 (2 ^ bit) }
  | 1 => { f with debugLock := true }
  | _ => { f with fieldLock := true }

/-- FUSE_BLOW_DONE (R460, R461): only FIELD_LOCK takes effect at once. -/
def execFuseBlowDone (s : State) : Host.Outcome State Fault Refusal :=
  .next (s.onMod fun m =>
    match m.blow with
    | none => m
    | some (field, bit) =>
      let m := { m with blow := none, fuses := m.fuses.blown field bit }
      (m.wr (FUS + 0x8C) (setField (m.rd (FUS + 0x8C)) 24 8 Status.done.toNat)).raise FUS 0)

/-- ARB_ADVANCE (R471). -/
def Module.advanceArb (m : Module) : Module :=
  if m.fallback then m.raise SEC 1
  else match m.svn? m.running with
    | none => m
    | some n =>
      if n ≤ m.fuses.arbCount then m
      else
        let f := { m.fuses with arb := m.fuses.arb ||| BitVec.ofNat 64 (2 ^ n - 1) }
        let images := m.images.filter fun e => n ≤ fwField e.2.bytes 8 4
        ({ m with fuses := f, images := images }).raise SEC 2

def execArbAdvance (w : Who) (s : State) : Host.Outcome State Fault Refusal :=
  .next (s.writeMod (SEC + 0x0C) w fun m => m.advanceArb)

end Sys2Proof.Machine
end

