-- ==== Sys2Proof/Machine/KvEdits.lean ====
section
/-! DEFINITION. The edits of the key-value cache, pins that end and pages that are brought back (R217 to
R225). Readings and choices: log 24. -/

namespace Sys2Proof.Machine

/-- The fields of an edit record (R218). -/
structure EditRec where
  op : Nat
  logSz : Nat
  tier : Nat
  res : Bool
  seq : W64
  src : W64
  off : Nat
  count : Nat
  /-- reserved bits are zero, SRC is zero but for FORK, OFFSET is a multiple of 4,096 -/
  ok : Bool
  deriving DecidableEq, Repr

def editRec (ws : List W32) : EditRec :=
  let w := fun (k : Nat) => ((ws[k]?).getD 0 : W32)
  let off := (w 6 ++ w 5 : W64).toNat
  let op := bitsN (w 0) 0 8
  let src : W64 := w 4 ++ w 3
  { op := op, logSz := bitsN (w 0) 8 5, tier := bitsN (w 0) 13 2, res := (w 0).getLsbD 15
    seq := w 2 ++ w 1, src := src, off := off, count := (w 7).toNat
    ok := bitsN (w 0) 16 16 == 0 && (op == 3 || src == 0) && off % 4096 == 0 }

/-- An edit completes (R218, R227). -/
def Polder.finishEdit (p : Polder) (e : KvEdit) (st : Status) (ver : W32) : Polder :=
  let op := (editRec e.words).op
  let p := p.onMem fun m => { m with edits := m.edits.erase e }
  let p := if e.origin.isReg then
      let p := p.wr (SPWKV + 0x64) (fld 0 st.toNat ||| fld 8 op)
      if st = Status.done then p.wr (SPWKV + 0x68) ver else p
    else p
  (p.raise SPWKV (if st = Status.done then 0 else 1)).endCmd e.origin st false
    (if st = Status.done then ver.setWidth 64 else 0)

/-- The register path's edit is pending or in progress (R227). -/
def Polder.editBusy (p : Polder) : Bool :=
  (p.mem.edits.any fun e => e.origin.isReg) || p.held.any fun h => match h with
    | .edit _ o => o.isReg
    | _ => false

/-- An edit reaches the cache manager, by either path (R218); a pending commit holds it (R443). -/
def Polder.submitEdit (p : Polder) (x : PolCtx) (ws : List W32) (o : Origin) : Polder :=
  let e : KvEdit := ⟨ws, o⟩
  if x.mod.commit.isSome && p.wdn.st = .running then { p with held := p.held ++ [.edit ws o] }
  else if 16 ≤ p.mem.edits.length then p.finishEdit e Status.refusedBusy 0
  else if (editRec ws).op = 0 || 8 < (editRec ws).op then p.finishEdit e Status.internal 0
  else p.onMem fun m => { m with edits := m.edits ++ [e] }

/-- An address can be a table head: 64-byte aligned in the own polder's tier 1 (R213, R218). -/
def Polder.headAt (p : Polder) (x : PolCtx) (a : W64) : Except Status Nat :=
  if !(x.isOwn p a && gaTier a == 1 && x.memOk p 1 (gaOff a) 64) then .error Status.addressInvalid
  else if a.toNat % 64 ≠ 0 then .error Status.internal
  else .ok (gaOff a)

/-- A live head's current image. -/
def Mem.live? (m : Mem) (k : Nat) : Option KvImage :=
  match SMap.find? m.heads k with
  | some h => if h.st = .live then m.current? k else none
  | none => none

def Mem.verOf (m : Mem) (k : Nat) : W32 := match SMap.find? m.heads k with
  | some h => h.ver
  | none => 0

/-- A page of its own for a new entry: its space and its reference-count entry with COUNT 0 (R218). -/
def Polder.newPage (p : Polder) (x : PolCtx) (tier : Nat) (ctx : BitVec 16) (logSz : Nat) : KvTry (Polder × Nat × Nat) := do
  let (p, a) ← p.room x tier ctx (2 ^ logSz) (2 ^ logSz)
  match p.freeRef with
  | none => .error (p.onMem fun m => m.release tier a, Status.refusedQuota)
  | some i =>
    pure (p.setRef i (some { count := 0, lastTide := BitVec.ofNat 32 p.tide, tier := tier, page := a
                             size := 2 ^ logSz, ctx := ctx }), i, a)

/-- Pages that a failed edit had taken are given back. -/
def Polder.dropPages (p : Polder) (l : List Nat) : Polder :=
  l.foldl (fun p i => match SMap.find? p.mem.refs i with
    | some r => (p.setRef i none).onMem fun m => m.release r.tier r.page
    | none => p) p

/-- Undo new pages where a step fails. -/
def undoing {α : Type} (l : List Nat) (t : KvTry α) : KvTry α :=
  match t with
  | .ok a => .ok a
  | .error e => .error (e.1.dropPages l, e.2)

/-- What an edit is given: its record, its context and the head of SEQ. -/
structure EditCtx where
  x : PolCtx
  r : EditRec
  ctx : BitVec 16
  k : Nat

/-- A new head at version 1 (R213, R218). -/
def Polder.newHead (p : Polder) (c : EditCtx) (k ring : Nat) (l : List Pte) : KvTry Polder := do
  let (p, a) ← p.room c.x 1 c.ctx (imageSpace l) 4096
  pure (p.placeImage c.x k a ⟨a, 1, .live, c.ctx⟩ ring l true).1

/-- CREATE (R218). -/
def editCreate (c : EditCtx) (p : Polder) : KvTry Polder :=
  let ring := 4096 * c.r.count
  if (SMap.find? p.mem.heads c.k).isSome || (ring != 0 && 2 ^ ring.log2 != ring) then .error (p, Status.internal)
  else p.newHead c c.k ring []

/-- APPEND (R218). -/
def editAppend (c : EditCtx) (p : Polder) : KvTry Polder :=
  match p.mem.live? c.k with
  | none => .error (p, Status.internal)
  | some i =>
    let len := ptesLen i.ptes
    let z := c.r.logSz
    if !(12 ≤ z && z ≤ 21 && (c.r.tier == 1 || c.r.tier == 2) && len % 2 ^ z == 0 &&
        (i.ringLen == 0 || len + 2 ^ z ≤ i.ringLen)) then .error (p, Status.internal)
    else do
      let (p, ref, a) ← p.newPage c.x c.r.tier c.ctx z
      let e : Pte :=
        { base := c.x.ga p c.r.tier a, logSz := z, shared := false, spilled := c.r.tier != 1, resident := c.r.res
          refIdx := ref }
      undoing [ref] (p.publish c.x c.k fun l => l ++ [e])

/-- FORK (R218). -/
def editFork (c : EditCtx) (p : Polder) : KvTry Polder :=
  match p.headAt c.x c.r.src with
  | .error st => .error (p, st)
  | .ok ks =>
    match p.mem.live? ks with
    | none => .error (p, Status.internal)
    | some i =>
      let covered := (withStarts 0 i.ptes).filter fun e => e.1 + e.2.size ≤ c.r.off
      if i.ringLen != 0 || (SMap.find? p.mem.heads c.k).isSome || ks = c.k ||
          !((withStarts 0 i.ptes).any fun e => e.1 + e.2.size == c.r.off) then .error (p, Status.internal)
      else
        let n := covered.length
        let share := fun (l : List Pte) => ((l.take n).map fun e => { e with shared := true }) ++ l.drop n
        if i.ptes.any fun e => match SMap.find? p.mem.refs e.refIdx with
          | some r => 0xFFFFFE ≤ r.count
          | none => false then .error (p, Status.refusedQuota)
        else do
          let (p, a) ← p.room c.x 1 c.ctx (imageSpace (i.ptes.take n)) 4096
          match p.publish c.x ks share with
          | .error e => .error (e.1.onMem fun m => m.release 1 a, e.2)
          | .ok p =>
            let l := ((p.mem.current? ks).map fun j => j.ptes.take n).getD []
            pure (p.placeImage c.x c.k a ⟨a, 1, .live, c.ctx⟩ 0 l true).1

/-- PREPARE_WRITE: each SHARED entry of the range becomes a private copy (R218). -/
def editPrepare (c : EditCtx) (p : Polder) : KvTry Polder :=
  match p.mem.live? c.k with
  | none => .error (p, Status.internal)
  | some i => do
    let refs := i.inRange c.r.off (c.r.off + 4096 * c.r.count) (·.shared)
    let (p, new) ← refs.foldlM (fun (q : Polder × List (Nat × Nat)) ref =>
      match SMap.find? q.1.mem.refs ref with
      | none => .error (q.1.dropPages (q.2.map (·.2)), Status.internal)
      | some r => undoing (q.2.map (·.2)) (do
        let (p, i, a) ← q.1.newPage c.x r.tier c.ctx r.size.log2
        let (p, d) ← undoing [i] (p.pageData c.x ref)
        pure (if r.tier = 3 then p.sendHost a (d.map some) else p.onMem fun m => m.putRaw r.tier a (d.map some),
          q.2 ++ [(ref, i)]))) (p, [])
    let q := p
    undoing (new.map (·.2)) (p.publish c.x c.k fun l => l.map fun e =>
      match new.find? fun n => n.1 == e.refIdx with
      | some n =>
        let r := SMap.find? q.mem.refs n.2
        { e with
          base := match r with
            | some r => c.x.ga q r.tier r.page
            | none => e.base
          spilled := match r with
            | some r => r.tier != 1
            | none => e.spilled
          shared := false, resident := true, refIdx := n.2 }
      | none => e)

/-- TRUNCATE (R218). -/
def editTruncate (c : EditCtx) (p : Polder) : KvTry Polder :=
  match p.mem.live? c.k with
  | none => .error (p, Status.internal)
  | some i =>
    let l := withStarts 0 i.ptes
    if c.r.off = ptesLen i.ptes || l.any (fun e => e.1 == c.r.off) then
      let n := (l.filter fun e => e.1 < c.r.off).length
      p.publish c.x c.k fun l => l.take n
    else .error (p, Status.internal)

/-- DESTROY (R218). -/
def editDestroy (c : EditCtx) (p : Polder) : KvTry Polder :=
  match p.mem.live? c.k with
  | none => .error (p, Status.internal)
  | some _ => do
    let p ← p.publish c.x c.k fun _ => []
    let p := p.onMem fun m => { m with heads := match SMap.find? m.heads c.k with
      | some h => SMap.insert m.heads c.k { h with st := .destroying }
      | none => m.heads }
    pure ((p.writeHead c.x c.k).endHead c.x c.k)

/-- The SPILLED entries of a range come back to tier 1 (R218, R225). -/
def Polder.fetchRange (p : Polder) (c : EditCtx) (i : KvImage) : KvTry Polder :=
  (i.inRange c.r.off (c.r.off + 4096 * c.r.count) (·.spilled)).foldlM (fun p r => p.bringBack c.x r) p

/-- PREFETCH (R218). -/
def editPrefetch (c : EditCtx) (p : Polder) : KvTry Polder :=
  match p.mem.live? c.k with
  | none => .error (p, Status.internal)
  | some i => p.fetchRange c i

/-- RESIDENT (R218). -/
def editResident (c : EditCtx) (p : Polder) : KvTry Polder :=
  match p.mem.live? c.k with
  | none => .error (p, Status.internal)
  | some i => do
    let p ← if c.r.res then p.fetchRange c i else pure p
    let refs := i.inRange c.r.off (c.r.off + 4096 * c.r.count) (fun _ => true)
    p.publish c.x c.k fun l => l.map fun e => if refs.contains e.refIdx then { e with resident := c.r.res } else e

/-- Pages of tier 3 an edit must have back before it can run: those it copies or brings back. -/
def Polder.editWaits (p : Polder) (r : EditRec) (k : Nat) : List Nat :=
  match p.mem.live? k with
  | none => []
  | some i =>
    let want := fun (e : Pte) => match r.op with
      | 4 => e.shared
      | 7 => e.spilled
      | 8 => e.spilled && r.res
      | _ => false
    p.mem.awaited (i.inRange r.off (r.off + 4096 * r.count) want)

/-- The edit at the head of the queue runs, if it is an `op`; one that needs pages of tier 3 asks for
them first and waits (R218, R219, R224). -/
def Polder.runEdit (p : Polder) (x : PolCtx) (op : Nat) (f : EditCtx → Polder → KvTry Polder) : Polder :=
  match p.mem.edits with
  | [] => p
  | e :: _ =>
    let r := editRec e.words
    if r.op ≠ op then p
    else if !r.ok then p.finishEdit e Status.internal 0
    else match p.headAt x r.seq with
      | .error st => p.finishEdit e st 0
      | .ok k =>
        let waits := p.editWaits r k
        if !waits.isEmpty then waits.foldl Polder.readBack p
        else match f ⟨x, r, e.origin.ctx, k⟩ p with
          | .ok q => (q.onMem fun m => { m with staged := [] }).finishEdit e Status.done (q.mem.verOf k)
          | .error (q, st) => (q.onMem fun m => { m with staged := [] }).finishEdit e st 0

def execKvCreate (p : Pid) (s : State) : Host.Outcome State Fault Refusal :=
  .next (s.event p 4 fun x q => q.runEdit x 1 editCreate)

def execKvAppend (p : Pid) (s : State) : Host.Outcome State Fault Refusal :=
  .next (s.event p 4 fun x q => q.runEdit x 2 editAppend)

def execKvFork (p : Pid) (s : State) : Host.Outcome State Fault Refusal :=
  .next (s.event p 4 fun x q => q.runEdit x 3 editFork)

def execKvPrepareWrite (p : Pid) (s : State) : Host.Outcome State Fault Refusal :=
  .next (s.event p 4 fun x q => q.runEdit x 4 editPrepare)

def execKvTruncate (p : Pid) (s : State) : Host.Outcome State Fault Refusal :=
  .next (s.event p 4 fun x q => q.runEdit x 5 editTruncate)

def execKvDestroy (p : Pid) (s : State) : Host.Outcome State Fault Refusal :=
  .next (s.event p 4 fun x q => q.runEdit x 6 editDestroy)

def execKvPrefetch (p : Pid) (s : State) : Host.Outcome State Fault Refusal :=
  .next (s.event p 4 fun x q => q.runEdit x 7 editPrefetch)

def execKvResident (p : Pid) (s : State) : Host.Outcome State Fault Refusal :=
  .next (s.event p 4 fun x q => q.runEdit x 8 editResident)

/-- A descriptor pinned to an image, all of whose data has landed (R220). -/
def Polder.landedWalk (p : Polder) (a : Nat) : Option (Nat × Desc) :=
  p.engines.findSome? fun e =>
    (e.2.descs.find? fun d => d.pin == some a && d.walked).map fun d => (e.1, d)

/-- KV_PIN_RELEASE: the walk of the i-th image that has landed whole (R220). -/
def execKvPinRelease (p : Pid) (i : Nat) (s : State) : Host.Outcome State Fault Refusal :=
  .next (s.event p 4 fun x q =>
    match q.mem.images[i]? with
    | none => q
    | some im =>
      match q.landedWalk im.addr with
      | none => q
      | some (e, d) =>
        let v := SMap.get (fun _ => Eng.reset) q.engines e
        let v := { v with descs := v.descs.map fun c => if c.num = d.num then { c with pin := none } else c }
        ({ q with engines := SMap.set (fun _ => Eng.reset) q.engines e v }).unpin x im.addr)

/-- KV_PREFETCH_PAGE_DONE: the next page of the oldest prefetch comes back; one for which no room can be
had stays where it is (R225). -/
def execKvPrefetchPageDone (p : Pid) (s : State) : Host.Outcome State Fault Refusal :=
  .next (s.event p 4 fun x q =>
    match q.mem.prefetch with
    | [] => q
    | f :: rest =>
      match f.pages with
      | [] => q.onMem fun m => { m with prefetch := rest }
      | r :: more =>
        if !(q.mem.awaited [r]).isEmpty then q
        else
          let next := if more.isEmpty then rest else { f with pages := more } :: rest
          let q := q.onMem fun m => { m with prefetch := next }
          match q.bringBack x r with
          | .ok q => q
          | .error (q, _) => q)

end Sys2Proof.Machine
end

