-- ==== Sys2Proof/Machine/Gauge.lean ====
section
/-! DEFINITION. The Gauge: reports, ratios, the step decisions, scale words and its state image (R406 to R418,
R424, R425). Readings and choices: log 38, 39. -/

namespace Sys2Proof.Machine

def Polder.onGauge (p : Polder) (f : Gauge → Gauge) : Polder := { p with gauge := f p.gauge }

/-- Entries of a staged table of the Gauge that name a tensor, in order: index and word; 0xFFFF is unused. -/
def PolCtx.entries (x : PolCtx) (p : Polder) (off : Nat) : List (Nat × W32) :=
  if p.unrestored.contains 5 then []
  else
    let base := cfgKey x.pid.val off 0
    x.mod.active.vals.filterMap fun e =>
      if e.1 / 2 ^ 13 = base / 2 ^ 13 && bits e.2 0 16 != 0xFFFF then some (e.1 - base, e.2) else none

/-- The scale entry of a tensor (R414). -/
def PolCtx.scaleEntry (x : PolCtx) (p : Polder) (tensor : BitVec 16) : Option (Nat × W32) :=
  (x.entries p (GAU + 0x50)).find? fun e => bits e.2 0 16 == tensor

/-- The layer entry of a tensor (R417). -/
def PolCtx.layerEntry (x : PolCtx) (p : Polder) (tensor : BitVec 16) : Option Nat :=
  ((x.entries p (GAU + 0x70)).find? fun e => bits e.2 0 16 == tensor).map (·.1)

def Gauge.scale (g : Gauge) (i : Nat) : ScaleEnt := SMap.get (fun _ => ScaleEnt.reset) g.scales i
def Gauge.setScale (g : Gauge) (i : Nat) (v : ScaleEnt) : Gauge :=
  { g with scales := SMap.set (fun _ => ScaleEnt.reset) g.scales i v }
def Gauge.layer (g : Gauge) (i : Nat) : LayerEnt := SMap.get (fun _ => LayerEnt.reset) g.layers i
def Gauge.setLayer (g : Gauge) (i : Nat) (v : LayerEnt) : Gauge :=
  { g with layers := SMap.set (fun _ => LayerEnt.reset) g.layers i v }

/-- The larger of two magnitudes. -/
def maxMag (a b : W32) : W32 := if (f32 a).lt (f32 b) then b else a

/-- A source's exponent; 0 for 0xFFFF and for a tensor without an entry (R414). -/
def PolCtx.sourceT (x : PolCtx) (p : Polder) (tensor : BitVec 16) : Int := (x.scaleOf p tensor).getD 0

/-- The Gauge takes the oldest report of its inbox (R410, R414). -/
def Polder.takeAmax (p : Polder) (x : PolCtx) : Polder :=
  match p.gauge.inbox with
  | [] => p
  | r :: rest =>
    let p := p.onGauge fun g => { g with inbox := rest }
    match x.scaleEntry p r.tensor with
    | none => (p.count (GAU + 0x94) 1 16 16).raise GAU 9
    | some e =>
      let src := x.cfg p (GAU + 0x54) e.1
      let t := x.sourceT p (bits src 0 16) + x.sourceT p (bits src 16 16)
      let v := toF32 ((f32 r.value).scale (-t))
      p.onGauge fun g => g.setScale e.1 { g.scale e.1 with max := maxMag (g.scale e.1).max v }

/-- AMAX_REPORT (R410, R414). -/
def execAmaxReport (p : Pid) (s : State) : Host.Outcome State Fault Refusal :=
  .next (s.event p 5 fun x q => q.takeAmax x)

/-- Finite numbers in ascending order. -/
def insertNum (v : W32) : List W32 → List W32
  | [] => [v]
  | a :: r => if (f32 a).lt (f32 v) then a :: insertNum v r else v :: a :: r

def sortNums (l : List W32) : List W32 := l.foldr insertNum []

/-- Twice the median of a list: the two middle values, or the middle one twice (R417). -/
def medianTwice (l : List W32) : Num :=
  let s := sortNums l
  let n := s.length
  (f32 ((s[(n - 1) / 2]?).getD 0)).add (f32 ((s[n / 2]?).getD 0))

/-- A ratio lies outside μ ÷ W to μ × W, W in sixteenths (R417). -/
def outOfBand (r : W32) (twice : Num) (w : Nat) : Bool :=
  let n := fun (k : Nat) => Num.ofInt k
  let a := (f32 r).mul (n 2)
  (a.mul (n w)).lt (twice.mul (n 16)) || (twice.mul (n w)).lt (a.mul (n 16))

/-- A layer's ratio for one update (R417). -/
def Polder.judge (p : Polder) (x : PolCtx) (i : Nat) (tensor : BitVec 16) (r : W32) : Polder :=
  let cfg := x.cfg p (GAU + 0x68)
  let v := p.gauge.layer i
  let twice := medianTwice v.hist
  let few := v.hist.length < bitsN cfg 8 8
  if (f32 r).isFinite && (few || !outOfBand r twice (bitsN cfg 0 8)) then
    p.onGauge fun g => g.setLayer i { v with hist := (r :: v.hist).take 64, pos := (v.pos + 1) &&& 63 }
  else
    let auto := (x.cfg p (GAU + 0x40)).getLsbD 2
    let act := if auto then bitsN cfg 16 2 else 0
    let v := { v with oob := BitVec.ofNat 16 (satAdd 16 v.oob.toNat 1), act := max v.act act }
    let mu := toF32 (twice.scale (-1))
    ((p.onGauge fun g => g.setLayer i v).raise GAU 3).post x 3 act tensor.toNat (mu ++ r)

/-- The tensors of a channel whose shards have all reported (R417): those of an update still under way
whose shards are all in, and all of one that is over. -/
def Polder.ratioReady (p : Polder) (ch : Fin 4) : Option (BitVec 16) :=
  let mine := p.gauge.ratios.filter fun r => r.ch == ch
  let v := p.chan ch.val
  let want := fun (t : BitVec 16) => match v.tab with
    | some tab => if v.st = .updating then (tab.shards.filter fun s => s.tensor == t).length else 0
    | none => 0
  (mine.find? fun r => want r.tensor ≤ (mine.filter fun q => q.tensor == r.tensor).length).map (·.tensor)

/-- PUMP_RATIO_REPORT (R273, R280, R410, R417). -/
def execPumpRatioReport (p : Pid) (ch : Fin 4) (s : State) : Host.Outcome State Fault Refusal :=
  .next (s.event p 5 fun x q =>
    match q.ratioReady ch with
    | none => q
    | some t =>
      let of := fun (r : RatioSum) => r.ch == ch && r.tensor == t
      let l := q.gauge.ratios.filter of
      let q := q.onGauge fun g => { g with ratios := g.ratios.filter fun r => !of r }
      let q := q.count (GAU + 0x94) (l.foldl (fun n r => n + r.nans) 0) 0 16
      match x.layerEntry q t with
      | none => q
      | some i =>
        let num := l.foldl (fun s r => dadd s r.num) 0
        let den := l.foldl (fun s r => dadd s r.den) 0
        q.judge x i t (toF32 ((f64 num).div (f64 den)).sqrt))

/-- GAUGE_RELEASE (R417): the updates held under HALT start. -/
def execGaugeRelease (p : Pid) (w : Who) (s : State) : Host.Outcome State Fault Refusal :=
  .next (s.writePage p (GAU + 0x0C) w fun x q =>
    (List.finRange 4).foldl (fun q ch =>
      let v := q.chan ch.val
      match v.tab with
      | some t => if v.held then (q.setChan ch.val { v with held := false }).startUpdate x ch t else q
      | none => q) q)

/-- The loss-scale decision of a boundary: k, clean count, and the journal's action (R412). -/
def lossDecision (outs : List Outcome') (k clean lo hi n : Nat) : Option (Nat × Nat × Nat × Nat) :=
  if outs.any fun o => o.nonfinite && o.k.toNat == k then
    some (max (k - 1) lo, 0, if k ≤ lo then 3 else 1, clean)
  else if !(outs.any (·.nonfinite)) && outs.any (fun o => !o.skipStep) then
    if clean + 1 < n then some (k, clean + 1, 0, clean + 1)
    else some (min (k + 1) hi, 0, if hi ≤ k then 3 else 2, clean + 1)
  else none

/-- The loss scale at a step boundary (R412, R413). -/
def Polder.lossStep (p : Polder) (x : PolCtx) : Polder :=
  let outs := p.gauge.outcomes
  let p := p.onGauge fun g => { g with outcomes := [] }
  if !(x.cfg p (GAU + 0x40)).getLsbD 0 then p
  else
    let c := x.cfg p (GAU + 0x44)
    let k := p.gauge.k.toNat
    match lossDecision outs k p.gauge.clean.toNat (bitsN c 0 5) (bitsN c 8 5) (bitsN c 16 16) with
    | none => p
    | some (k', clean, act, ran) =>
      let p := p.onGauge fun g => { g with k := BitVec.ofNat 5 k', clean := BitVec.ofNat 16 clean }
      let p := if k' = k then p else (p.raise GAU 0).count (GAU + 0xA0) 1 24 8
      if act = 0 then p else p.post x 1 act 0 (BitVec.ofNat 64 (k + 256 * k' + 65536 * (ran % 65536)))

/-- The largest finite value of a scale entry's format (R414). -/
def fmaxOf (f : Nat) : Nat := if f = 0 then 448 else if f = 1 then 57344 else 65504

/-- floor(log2(FMAX ÷ A)) − MARGIN, clamped (R415). -/
def exponentFor (fm margin : Nat) (a : W32) : Int :=
  match f32 a with
  | .fin _ m e =>
    let d := (Nat.log2 fm : Int) - Nat.log2 m - e
    let d := if fm * 2 ^ Nat.log2 m < m * 2 ^ Nat.log2 fm then d - 1 else d
    max (-32) (min 32 (d - margin))
  | .inf _ | .nan => -32

/-- A scale entry at a step boundary (R415): the entry, and whether the policy has chosen its exponent. -/
def ScaleEnt.boundary (v : ScaleEnt) (cfg : W32) (auto : Bool) : ScaleEnt × Bool × W32 :=
  let hist := (v.max :: v.hist).take 16
  let a := hist.foldl maxMag 0
  let t := if auto && !cfg.getLsbD 22 && !(f32 a).isZero then
      BitVec.ofInt 8 (exponentFor (fmaxOf (bitsN cfg 16 2)) (bitsN cfg 18 4) a)
    else v.t
  ({ v with hist := hist, max := 0, pos := (v.pos + 1) &&& 15, t := v.newT.getD t, newT := none }, v.newT.isNone, a)

/-- The tensor scales at a step boundary (R411, R415); a write to GAU_SCL_T takes effect here (R426). -/
def Polder.scaleStep (p : Polder) (x : PolCtx) : Polder :=
  let auto := (x.cfg p (GAU + 0x40)).getLsbD 1
  (x.entries p (GAU + 0x50)).foldl (fun p e =>
    let v := p.gauge.scale e.1
    let r := v.boundary e.2 auto
    let p := p.onGauge fun g => g.setScale e.1 r.1
    if r.1.t = v.t then p
    else
      let p := p.raise GAU 2
      if r.2.1 then p.post x 2 1 (bitsN e.2 0 16) (r.2.2 ++ (0 : BitVec 16) ++ r.1.t ++ v.t) else p) p

/-- Designations whose tensor has a scale (R416). -/
def PolCtx.designations (x : PolCtx) (p : Polder) : List Nat :=
  ((x.entries p (GAU + 0x60)).filter fun e => (x.scaleOf p (bits e.2 0 16)).isSome).map (·.1)

/-- 2^t as FP32. -/
def scaleWord (t : Int) : W32 := toF32 (.fin false 1 t)

/-- A designation is written into its cells over SERVICE (R416). -/
def Polder.writeScale (p : Polder) (x : PolCtx) (d : Nat × Option Rect) : Polder :=
  let w := x.cfg p (GAU + 0x60) d.1
  let r : Rect := x.cfg p (GAU + 0x64) d.1
  match x.scaleOf p (bits w 0 16) with
  | none => p
  | some t =>
    let bs := bytesOf (scaleWord t) 4
    if r.malformed then p
    else (r.keys.filter fun k => match d.2 with
        | some c => c.hasKey k
        | none => true).foldl (fun p k =>
      if p.cellDown k then p else p.setCell k ((p.cell k).svcWrite (bitsN w 18 14 * 4) bs).1) p

/-- SCALES_WRITTEN (R84, R416). -/
def execScalesWritten (p : Pid) (s : State) : Host.Outcome State Fault Refusal :=
  .next (s.event p 5 fun x q =>
    let l := q.gauge.writes
    let q := q.onGauge fun g => { g with writes := [] }
    l.foldl (fun q d => q.writeScale x d) q)

/-- After a plot or die reset, the designations that fall in the reset cells are to be written again (R416). -/
def Polder.rewriteScales (p : Polder) (x : PolCtx) (r : Rect) : Polder :=
  let l := (x.designations p).filter fun i => Rect.overlaps r (x.cfg p (GAU + 0x64) i)
  p.onGauge fun g => { g with writes := g.writes ++ l.map fun i => (i, some r) }

/-- A scale entry of the state image (R424). -/
def ScaleEnt.image (v : ScaleEnt) (cfg : W32) : List Byte :=
  bytesOf (bits cfg 0 16) 2 ++ [v.t, if cfg.getLsbD 22 then 1 else 0, v.pos, 0, 0, 0] ++
    (List.range 16).flatMap fun i => bytesOf ((v.hist[i]?).getD 0) 4

/-- A layer entry of the state image (R424). -/
def LayerEnt.image (v : LayerEnt) (tensor : BitVec 16) : List Byte :=
  bytesOf tensor 2 ++ [BitVec.ofNat 8 v.hist.length, v.pos, 0, 0, 0, 0] ++
    (List.range 64).flatMap fun i => bytesOf ((v.hist[i]?).getD 0) 4

/-- The Gauge state image (R424). -/
def Polder.gaugeImage (p : Polder) (x : PolCtx) : List Byte :=
  let g := p.gauge
  let sc := x.entries p (GAU + 0x50)
  let ly := x.entries p (GAU + 0x70)
  let b := fun (n len : Nat) => bytesOf (BitVec.ofNat 64 n) len
  b 1 4 ++ b sc.length 2 ++ b ly.length 2 ++ b g.k.toNat 1 ++ [0] ++ b g.clean.toNat 2 ++ b g.bin.toNat 1 ++ [0, 0, 0] ++
    b (p.rdN (PMP + 0x140)) 4 ++ b g.partials 1 ++ [0, 0, 0] ++ bytesOf p.twin.step 8 ++ List.replicate 32 0 ++
    (sc.flatMap fun e => (g.scale e.1).image e.2) ++ ly.flatMap fun e => (g.layer e.1).image (bits e.2 0 16)

/-- A layer entry from the image (R424). -/
def layerFrom (b : List Byte) (v : LayerEnt) : LayerEnt :=
  { v with hist := wordsOf (b.drop 8) (min 64 (leN b 2 1)), pos := BitVec.ofNat 8 (leN b 3 1) }

/-- A scale entry from the image (R424). -/
def scaleFrom (b : List Byte) (v : ScaleEnt) : ScaleEnt :=
  { v with t := BitVec.ofNat 8 (leN b 2 1), newT := none, pos := BitVec.ofNat 8 (leN b 4 1), hist := wordsOf (b.drop 8) 16 }

/-- The state replaced from an image whose entries match the staged identifiers (R424, R425). -/
def Polder.fromImage (p : Polder) (x : PolCtx) (b : List Byte) : Polder :=
  let sc := x.entries p (GAU + 0x50)
  let ly := x.entries p (GAU + 0x70)
  let nt := sc.length
  let at_ := fun (i : Nat) => 64 + 72 * i
  let al := fun (i : Nat) => 64 + 72 * nt + 264 * i
  let scs := sc.zip (List.range nt)
  let lys := ly.zip (List.range ly.length)
  let good := leN b 0 4 == 1 && leN b 4 2 == nt && leN b 6 2 == ly.length &&
    (scs.all fun e => leN b (at_ e.2) 2 == bitsN e.1.2 0 16) && lys.all fun e => leN b (al e.2) 2 == bitsN e.1.2 0 16
  if !good then p
  else
    let p := p.onGauge fun g => { g with
      k := BitVec.ofNat 5 (leN b 8 1), clean := BitVec.ofNat 16 (leN b 10 2), bin := BitVec.ofNat 3 (leN b 12 1)
      partials := leN b 20 1 }
    let p := p.wr (PMP + 0x140) (BitVec.ofNat 32 (leN b 16 4))
    let p := p.onTwin fun w => { w with step := BitVec.ofNat 64 (leN b 24 8) }
    let p := scs.foldl (fun p e => p.onGauge fun g => g.setScale e.1.1 (scaleFrom (b.drop (at_ e.2)) (g.scale e.1.1))) p
    lys.foldl (fun p e => p.onGauge fun g => g.setLayer e.1.1 (layerFrom (b.drop (al e.2)) (g.layer e.1.1))) p

/-- GAU_IMG, in own tier 1 (R425). -/
def Polder.imgAt (p : Polder) (x : PolCtx) : Option Nat :=
  let a := p.pair (GAU + 0x8C) &&& 0xFFFFFFFFFFFFFFC0#64
  if x.isOwn p a && gaTier a == 1 then some (gaOff a) else none

/-- IMG_SAVE (R425). -/
def execImgSave (p : Pid) (w : Who) (s : State) : Host.Outcome State Fault Refusal :=
  .next (s.writePage p (GAU + 0x0C) w fun x q =>
    match q.imgAt x with
    | some o => (q.memWrite x (blockBy w.ctx) 1 o ((q.gaugeImage x).map some)).p
    | none => q)

/-- A load's effect once no cell runs (R425). -/
def Polder.loadImage (p : Polder) (x : PolCtx) : Polder :=
  let p := p.onGauge fun g => { g with imgWait := false }
  match p.imgAt x with
  | none => p
  | some o =>
    let r := p.memRead x (blockBy 0) 1 o (p.gaugeImage x).length
    if r.st = Status.done then r.p.fromImage x r.data else r.p

/-- IMG_LOAD (R425): while any cell runs, it waits. -/
def execImgLoad (p : Pid) (w : Who) (s : State) : Host.Outcome State Fault Refusal :=
  .next (s.writePage p (GAU + 0x0C) w fun x q =>
    if q.anyRun then q.onGauge fun g => { g with imgWait := true } else q.loadImage x)

/-- A load that waited runs once no cell has RUN = 1 (R425). -/
def Polder.imgTick (p : Polder) (x : PolCtx) : Polder :=
  if p.gauge.imgWait && !p.anyRun then p.loadImage x else p

/-- The Gauge's decisions in the cycle of a step boundary (R411, R412, R415, R416). -/
def Polder.gaugeStep (p : Polder) (x : PolCtx) : Polder :=
  let p := (p.lossStep x).scaleStep x
  p.onGauge fun g => { g with writes := (x.designations p).map fun i => (i, none) }

end Sys2Proof.Machine
end

