-- ==== Sys2Proof/Machine/Windows.lean ====
section
/-! DEFINITION. Windows, fences and completions at the fabric transaction engine (R320, R325 to R330).
Readings and choices: log 31, 32. -/

namespace Sys2Proof.Machine

def Polder.win (p : Polder) (i : Nat) : Win := SMap.get (fun _ => Win.reset) p.flx.wins i
def Polder.setWin (p : Polder) (i : Nat) (v : Win) : Polder :=
  p.onFlx fun g => { g with wins := SMap.set (fun _ => Win.reset) g.wins i v }

/-- A window is bound by an entry of the parity role table (R370). -/
def PolCtx.roleBound (x : PolCtx) (p : Polder) (i : Nat) : Bool :=
  (List.range 16).any fun e =>
    let w := x.cfg p (TWN + 0xA4) e
    bitsN w 0 6 == i && bitsN w 6 2 != 0

/-- The range a window covers, as a global address and bytes: a Pump window's is that of the table its
channel is armed with (R325, R326). -/
def Polder.winRange (p : Polder) (i : Nat) : Option (W64 × Nat) :=
  if i < 60 then
    let v := p.win i
    if v.size = 0 then none else some (v.base, 4096 * v.size)
  else (p.chan (i - 60)).tab.map fun t => (t.winBase, 1024 * t.winBlocks)

/-- A window's state; a Pump window is OPEN until its reduction's close point (R325, R326). -/
def Polder.winSt (p : Polder) (i : Nat) : WinSt :=
  if i < 60 then (p.win i).st
  else
    let v := p.chan (i - 60)
    if v.tab.isNone then .closed
    else match v.st with
      | .open_ => .open_
      | .closing => .closing
      | .idle | .summing | .updating | .late => .closed

/-- Two spans of the address space meet. -/
def rangesMeet (a : W64) (n : Nat) (b : W64) (m : Nat) : Bool :=
  a.toNat < b.toNat + m && b.toNat < a.toNat + n

/-- The range meets another window that is not CLOSED (R327). -/
def Polder.winOverlaps (p : Polder) (i : Nat) (a : W64) (n : Nat) : Bool :=
  (List.range 64).any fun k => k != i && p.winSt k != .closed && match p.winRange k with
    | some r => rangesMeet a n r.1 r.2
    | none => false

/-- A range lies within one region of the own polder (R327). -/
def PolCtx.inRegion (x : PolCtx) (p : Polder) (a : W64) (n : Nat) : Bool :=
  x.isOwn p a && match x.region? p (gaTier a) (gaOff a) with
    | some r => decide (gaOff a + n ≤ r.stop)
    | none => false

/-- WINDOW_OPEN's handling (R326, R327, R370). -/
def Polder.openWin (p : Polder) (x : PolCtx) (i : Nat) (base : W64) (size : Nat) (mask : BitVec 3) : Polder × Status :=
  if 60 ≤ i || x.roleBound p i then (p, Status.internal)
  else if p.winSt i ≠ .closed then (p, Status.refusedBusy)
  else if base.toNat % 4096 ≠ 0 || size = 0 || mask = 0 then (p, Status.internal)
  else if p.winOverlaps i base (4096 * size) then (p, Status.internal)
  else if !x.inRegion p base (4096 * size) then (p, Status.addressInvalid)
  else (p.setWin i { p.win i with base := base, size := size, mask := mask, st := .open_ }, Status.done)

/-- A transaction leaves the inbound queue (R324, R328): as it came from a port, or from this polder. -/
def Polder.takeInbound (p : Polder) (port : Nat) (t : Txn) : Polder :=
  match takeFirst (fun e => e.1 == port && e.2 == t) p.flx.inbound with
  | some r => p.onFlx fun g => { g with inbound := r.2 }
  | none => match takeFirst (fun (e : Nat × Txn) => e.2 == t) p.flx.inbound with
    | some r => p.onFlx fun g => { g with inbound := r.2 }
    | none => p

/-- A checked incarnation differs from the polder's own (R320, R394). -/
def Polder.staleInc (p : Polder) (t : Txn) : Bool := t.chk && t.tinc != p.wdn.polderInc

/-- A window command from the register path has ended (R341). -/
def Polder.winCode (p : Polder) (st : Status) : Polder :=
  p.wr (FLX1 + 0x6C) (setField (p.rd (FLX1 + 0x6C)) 8 8 st.toNat)

/-- A window command is answered where it came from. -/
def Polder.answerWin (p : Polder) (x : PolCtx) (o : WinFrom) (st : Status) (deferred : Bool) : Polder :=
  match o with
  | .regPath => p.winCode st
  | .fabric _ t => p.answer x t st deferred []

/-- WINDOW_OPEN takes effect (R327); `late` where a commit has held it (R444). -/
def Polder.doOpen (p : Polder) (x : PolCtx) (o : WinFrom) (late : Bool) : Polder :=
  match o with
  | .regPath =>
    let i := p.rdN (FLX1 + 0x5C) % 64
    let z := p.rd (FLX1 + 0x68) (1 + i)
    let r := p.openWin x i (p.pair (FLX1 + 0x60) (1 + i)) (bitsN z 0 28) (bits z 28 3)
    r.1.winCode r.2
  | .fabric _ t =>
    let r := p.openWin x (bitsN t.opnd 32 6) t.addr (bitsN t.opnd 0 32) (bits t.mod 0 3)
    r.1.answer x t r.2 late []

/-- WINDOW_OPEN arrives (R320, R327); a pending commit holds it (R443). -/
def Polder.submitOpen (p : Polder) (x : PolCtx) (o : WinFrom) : Polder :=
  let stale := match o with
    | .regPath => false
    | .fabric _ t => p.staleInc t
  let p := match o with
    | .regPath => p
    | .fabric port t => p.takeInbound port.val t
  if stale then p.answerWin x o Status.incarnationStale false
  else if x.mod.commit.isSome && p.wdn.st = .running then { p with held := p.held ++ [.winOpen o] }
  else p.doOpen x o false

/-- The closers of a window learn that it is CLOSED (R329). -/
def Polder.endClose (p : Polder) (x : PolCtx) (i : Nat) : Polder :=
  let v := p.win i
  v.closers.foldl (fun p o => p.answerWin x o Status.done false) (p.setWin i { v with st := .closed, closers := [] })

/-- WINDOW_CLOSE arrives: its close point (R329). -/
def Polder.closeWin (p : Polder) (x : PolCtx) (o : WinFrom) : Polder :=
  let stale := match o with
    | .regPath => false
    | .fabric _ t => p.staleInc t
  let p := match o with
    | .regPath => p
    | .fabric port t => p.takeInbound port.val t
  let i := match o with
    | .regPath => p.rdN (FLX1 + 0x5C) % 64
    | .fabric _ t => bitsN t.opnd 32 6
  if stale then p.answerWin x o Status.incarnationStale false
  else if 60 ≤ i || x.roleBound p i then p.answerWin x o Status.internal false
  else
    let v := p.win i
    match v.st with
    | .closed => p.answerWin x o Status.done false
    | .open_ | .closing =>
      let p := p.setWin i { v with st := .closing, closers := v.closers ++ [o] }
      if v.writes.isEmpty then p.endClose x i else p

/-- A window command of another OP, and one that comes by the fabric while FLX_SELF is unassigned, is not taken
(R309, R315). -/
def winRefused (o : WinFrom) (op : Byte) (self : Option Nat) : Bool :=
  match o with
  | .regPath => false
  | .fabric _ t => self.isNone || t.op != op || !Txn.known t

/-- WINDOW_OPEN (R327). -/
def execWindowOpen (p : Pid) (o : WinFrom) (s : State) : Host.Outcome State Fault Refusal :=
  if !o.wf then .fault .illFormed
  else .next (s.event p 5 fun x q => if winRefused o opOpen (x.module? q) then q else q.submitOpen x o)

/-- WINDOW_CLOSE (R329). -/
def execWindowClose (p : Pid) (o : WinFrom) (s : State) : Host.Outcome State Fault Refusal :=
  if !o.wf then .fault .illFormed
  else .next (s.event p 5 fun x q => if winRefused o opClose (x.module? q) then q else q.closeWin x o)

/-- An admitted write is visible: it is answered, a relayed fold once its relay write has landed too (R328,
R370). -/
def Polder.seen (p : Polder) (x : PolCtx) (w : WinWrite) : Polder :=
  if !w.relayed then p.answer x w.txn Status.done w.deferred w.data
  else match p.twin.relays.find? fun r => r.txn == w.txn && !r.landed with
    | none => p
    | some r =>
      let others := p.twin.relays.filter fun a => a.tag != r.tag
      match r.result with
      | some (st, d) => (p.onTwin fun v => { v with relays := others }).answer x w.txn st (w.deferred || d) []
      | none => p.onTwin fun v => { v with relays := others ++ [{ r with landed := true }] }

/-- WINDOW_WRITE_VISIBLE (R328, R329): the oldest admitted write of the window is visible and is answered. -/
def execWindowWriteVisible (p : Pid) (i : Fin 64) (s : State) : Host.Outcome State Fault Refusal :=
  .next (s.event p 5 fun x q =>
    let v := q.win i.val
    match v.writes with
    | [] => q
    | w :: rest =>
      let q := (q.setWin i.val { v with writes := rest }).seen x w
      if rest.isEmpty && v.st = .closing then q.endClose x i.val else q)

/-- Requests a FENCE waits for at the polder it is executed at: those of its source in its classes that have
arrived before it and are not complete (R330). -/
def Polder.fenceHeld (p : Polder) (t : Txn) : Bool :=
  let mine := fun (u : Txn) => u != t && u.src == t.src && t.mod.getLsbD u.cls.num && !Txn.isCpl u &&
    u.op != opFence && u.op != opHeartbeat && u.op != opNotice
  let ahead := (p.flx.inbound.map (·.2)).takeWhile (· != t)
  ahead.any mine || (p.flx.wins.any fun e => e.2.writes.any fun w => mine w.txn) ||
    p.mem.tier3.any fun q => match q.who with
      | .fabric _ u => mine u
      | _ => false

/-- A FENCE completes at its source only when every request issued earlier to the same destination, in its
classes, has completed (R330). -/
def Polder.fenceWaits (p : Polder) (r : OutReq) : Bool :=
  r.txn.op == opFence && (p.flx.reqs.takeWhile fun q => q.txn.tag != r.txn.tag).any fun q =>
    q.txn.dst == r.txn.dst && r.txn.mod.getLsbD q.txn.cls.num && q.txn.op != opFence

/-- FABRIC_FENCE (R330): until the requests before it have completed, it waits. -/
def execFabricFence (p : Pid) (port : Fin 8) (t : Txn) (s : State) : Host.Outcome State Fault Refusal :=
  if !t.wf then .fault .illFormed
  else .next (s.event p 5 fun x q =>
    if t.op ≠ opFence || !Txn.known t || (x.module? q).isNone then q
    else if q.staleInc t then (q.takeInbound port.val t).answer x t Status.incarnationStale false []
    else
      let own := t.src.toNat = x.ownId q && match q.reqOf t.tag with
        | some r => q.fenceWaits r
        | none => false
      if own || q.fenceHeld t then q else (q.takeInbound port.val t).answer x t Status.done false [])

/-- TXN_COMPLETION (R320 to R322, R330). -/
def execTxnCompletion (p : Pid) (t : Txn) (s : State) : Host.Outcome State Fault Refusal :=
  if !t.wf then .fault .illFormed
  else .next (s.event p 5 fun x q =>
    if !Txn.isCpl t then q
    else
      let waits := match q.reqOf t.tag with
        | some r => q.fenceWaits r
        | none => false
      if waits then q
      else
        let q := match takeFirst (fun (e : Nat × Txn) => e.2 == t) q.flx.inbound with
          | some r => q.onFlx fun g => { g with inbound := r.2 }
          | none => q
        let v := q.view t.src.toNat
        if (v.known && t.tinc ≠ v.inc) || t.rinc ≠ q.wdn.polderInc then (q.count (FLX0 + 0x70) 1).raise FLX0 7
        else
          let q := if v.known then q else q.setView t.src.toNat { v with inc := t.tinc, known := true }
          match q.reqOf t.tag with
          | some r => q.finishReq x r t.status t.deferred t.data
          | none => if q.flx.retired.contains t.tag then q.count (FLX0 + 0x78) 1 else q)

end Sys2Proof.Machine
end

