-- ==== Sys2Proof/Machine/Maps.lean ====
section
/-! DEFINITION. Shard maps and layout epochs (R346 to R359). Readings and choices: log 35. -/

namespace Sys2Proof.Machine

/-- A field of zeros. -/
def zeroBytes (b : List Byte) (at_ len : Nat) : Bool := ((b.drop at_).take len).all (· == 0)

/-- An entry of a shard map table (R348). -/
def mapEntry (b : List Byte) : MapEntry :=
  ⟨leN b 0 8, leN b 8 4, BitVec.ofNat 64 (leN b 16 8), BitVec.ofNat 64 (leN b 24 8)⟩

/-- An entry on its own (R348). -/
def mapEntryOk (b : List Byte) (e : MapEntry) : Bool :=
  let good := fun (a : W64) (al : Nat) => (gaTier a == 1 || gaTier a == 2) && a.toNat % al == 0
  1 ≤ e.count && zeroBytes b 12 4 && good e.grad 1024 && (e.high == 0 || good e.high 512)

/-- Entries ascend with no gap and no overlap, from `at_` to `total` (R348). -/
def mapRunOk (total : Nat) : Nat → List MapEntry → Bool
  | at_, [] => at_ == total
  | at_, e :: r => e.first == at_ && mapRunOk total (at_ + e.count) r

/-- Entries of the maps of a slot. -/
def MapSlot.size (v : MapSlot) : Nat :=
  [v.cur, v.prev, v.stg].foldl (fun n m => n + ((m.map (·.entries.length)).getD 0)) 0

/-- Free entries of map memory, which holds 8,192 (R352). -/
def Polder.mapFree (p : Polder) : Nat := 8192 - p.flx.maps.foldl (fun n e => n + e.2.size) 0

/-- A stage reads and checks the table (R347, R348, R352). -/
def Polder.readMap (p : Polder) (x : PolCtx) (slot : Nat) (a : W64) (ctx : BitVec 16) :
    Polder × Except Status ShardMap :=
  let v := p.mapSlot slot
  let t := gaTier a
  let o := gaOff a
  if v.stg.isSome then (p, .error Status.refusedBusy)
  else if !(x.isOwn p a && (t == 1 || t == 2) && x.memOk p t o 64) then (p, .error Status.addressInvalid)
  else
    let h := p.memRead x (blockBy ctx) t o 64
    let n := leN h.data 2 2
    let epoch := leN h.data 0 1
    let total := leN h.data 8 8
    let next := match v.cur with
      | some m => epoch == (m.epoch.toNat + 1) % 256
      | none => true
    if h.st ≠ Status.done then (h.p, .error h.st)
    else if !(a.toNat % 64 == 0 && zeroBytes h.data 1 1 && zeroBytes h.data 4 4 && zeroBytes h.data 16 48 &&
        1 ≤ n && n ≤ 8192 && n ≤ bitsN (x.cfg p (FLX2 + 0x5C)) 0 14 && next) then (h.p, .error Status.internal)
    else if h.p.mapFree < n then (h.p, .error Status.refusedBusy)
    else
      let b := h.p.memRead x (blockBy ctx) t (o + 64) (32 * n)
      let rows := (List.range n).map fun i => (b.data.drop (32 * i)).take 32
      let es := rows.map mapEntry
      if b.st ≠ Status.done then (b.p, .error b.st)
      else if (rows.zip es).all (fun q => mapEntryOk q.1 q.2) && mapRunOk total 0 es then
        (b.p, .ok ⟨BitVec.ofNat 8 epoch, total, es⟩)
      else (b.p, .error Status.internal)

/-- The code of the last map command from the register path (R359). -/
def Polder.mapCode (p : Polder) (slot : Nat) (o : Origin) (st : Status) : Polder :=
  let p := if o.isReg then p.wr (FLX2 + 0x4C) (setField (p.rd (FLX2 + 0x4C) (1 + slot)) 8 8 st.toNat) (1 + slot) else p
  p.endCmd o st false 0

/-- STAGE (R352). -/
def Polder.stageMap (p : Polder) (x : PolCtx) (slot : Nat) (a : W64) (o : Origin) : Polder :=
  match p.readMap x slot a o.ctx with
  | (p, .ok m) => (p.setMapSlot slot { p.mapSlot slot with stg := some m }).mapCode slot o Status.done
  | (p, .error st) => (p.raise FLX2 3).mapCode slot o st

/-- ACTIVATE is accepted, and waits for its phase boundary (R353). -/
def Polder.askActivate (p : Polder) (slot : Nat) (o : Origin) : Polder :=
  let v := p.mapSlot slot
  if v.wait.isSome then p.mapCode slot o Status.refusedBusy
  else p.setMapSlot slot { v with wait := some o }

/-- ACTIVATE reaches the polder, by either path; a pending commit holds it (R353, R443). -/
def Polder.submitActivate (p : Polder) (x : PolCtx) (slot : Nat) (o : Origin) : Polder :=
  if x.mod.commit.isSome && p.wdn.st = .running then { p with held := p.held ++ [.mapActivate slot o] }
  else p.askActivate slot o

/-- No pipeline run or issue is running, or accepted and waiting to start (R353). -/
def Polder.phaseBoundary (p : Polder) : Bool :=
  (p.grid.issues.all fun i => i.phase = .waiting || i.phase = .reading) &&
  (match p.grid.pipe with
   | some r => r.phase = .gate || r.phase = .reading
   | none => true)

/-- An Outfall descriptor that uses the slot is executing (R350, R353). -/
def Polder.slotInUse (p : Polder) (slot : Nat) : Bool :=
  p.engines.any fun e => 8 ≤ e.1 % 16 && e.2.descs.any fun d =>
    d.pos = .executing && d.type == 9 && (if d.map then bitsN d.addr 61 3 else 0) == slot

/-- The slot's activation takes effect now (R353). -/
def Polder.canActivate (p : Polder) (slot : Nat) : Bool :=
  let v := p.mapSlot slot
  v.wait.isSome && v.stg.isSome && p.phaseBoundary && !p.slotInUse slot &&
    (match v.cur with
     | some m => SMap.get (fun _ => 0) v.pend m.epoch.toNat == 0
     | none => true)

/-- FLX_MAP_STAGE (R352). -/
def execFlxMapStage (p : Pid) (w : Who) (s : State) : Host.Outcome State Fault Refusal :=
  .next (s.writePage p (FLX2 + 0x4C) w fun x q =>
    let k := q.sel (FLX2 + 0x40) w % 8
    q.stageMap x k (q.pair (FLX2 + 0x44) (1 + k) &&& 0xFFFFFFFFFFFFFFC0#64) (.reg w.ctx))

/-- FLX_MAP_ACTIVATE (R353). -/
def execFlxMapActivate (p : Pid) (w : Who) (s : State) : Host.Outcome State Fault Refusal :=
  .next (s.writePage p (FLX2 + 0x4C) w fun x q => q.submitActivate x (q.sel (FLX2 + 0x40) w % 8) (.reg w.ctx))

/-- MAP_ACTIVATION (R353). -/
def execMapActivation (p : Pid) (slot : Fin 8) (s : State) : Host.Outcome State Fault Refusal :=
  .next (s.event p 5 fun _ q =>
    let v := q.mapSlot slot.val
    match v.wait with
    | none => q
    | some o =>
      if q.canActivate slot.val then
        let q := q.setMapSlot slot.val { v with prev := v.cur, cur := v.stg, stg := none, wait := none }
        let q := if v.prev.isSome then q.raise FLX2 1 else q
        (q.raise FLX2 0).mapCode slot.val o Status.done
      else q)

/-- FLX_MAP_RETIRE (R354). -/
def execFlxMapRetire (p : Pid) (w : Who) (s : State) : Host.Outcome State Fault Refusal :=
  .next (s.writePage p (FLX2 + 0x4C) w fun _ q =>
    let k := q.sel (FLX2 + 0x40) w % 8
    let v := q.mapSlot k
    let q := if v.prev.isSome then (q.setMapSlot k { v with prev := none }).raise FLX2 1 else q
    q.mapCode k (.reg w.ctx) Status.done)

/-- FLX_MAP_DROP (R352). -/
def execFlxMapDrop (p : Pid) (w : Who) (s : State) : Host.Outcome State Fault Refusal :=
  .next (s.writePage p (FLX2 + 0x4C) w fun _ q =>
    let k := q.sel (FLX2 + 0x40) w % 8
    (q.setMapSlot k { q.mapSlot k with stg := none }).mapCode k (.reg w.ctx) Status.done)

end Sys2Proof.Machine
end

