-- ==== Sys2Proof/Machine/Twin.lean ====
section
/-! DEFINITION. The Twin: mirror records, the step boundary, parity folds and the transfer engine (R362 to
R372). Readings and choices: log 36, 37, 38. -/

namespace Sys2Proof.Machine

/-- The twin is up and not lost, and records are sent (R363, R367, R381). -/
def Polder.mirrors (p : Polder) : Bool :=
  (p.rd (TWN + 0x0C)).getLsbD 0 && p.twin.up && p.twin.peer.isSome && !p.twin.silent

/-- The tier-4 offset of TWN_MBOX (R317, R363). -/
abbrev mboxOff : Nat := 0x3100

/-- The oldest record goes on the wire, over the Twin port, exempt from quota (R363). -/
def Polder.mirrorKick (p : Polder) (x : PolCtx) : Polder :=
  match p.twin.records, p.twin.peer with
  | r :: _, some peer =>
    if p.twin.onWire || !p.portUp 7 || (x.module? p).isNone || 4096 ≤ p.flx.reqs.length then p
    else
      let v := p.view peer.toNat
      let tag := p.flx.freeTag
      let t : Txn :=
        { op := opWrite, mod := 0, tinc := if v.known then v.inc else 0, tag := tag, len := 64, epoch := 0
          rinc := p.wdn.polderInc, chk := v.known, deferred := false, status := 0
          addr := gaOf peer.toNat 4 mboxOff, ctx := 0, opnd := 0, src := BitVec.ofNat 12 (x.ownId p), dst := peer
          cls := .guaranteed, data := bytesOf r 64 }
      let p := p.onFlx fun g => { g with
        reqs := g.reqs ++ [⟨t, .mirror, false⟩], nextTag := tag + 1, sent := g.sent ++ [t] }
      let p := p.setPort 7 { p.port 7 with
        queue := (p.port 7).queue ++ [.txn 0 peer.toNat false tag false (Txn.bytes t)] }
      let p := if bitsN r 0 8 = 2 then p.raise TWN 2 else p
      p.onTwin fun w => { w with onWire := true, txSeq := bits r 32 32 }
  | _, _ => p

/-- A mirror record (R363). -/
def mirrorRecord (type src : Nat) (seq : W32) (step : W64) (body : List Byte) : BitVec 512 :=
  wordOf 512 ([BitVec.ofNat 8 type, 0] ++ bytesOf (BitVec.ofNat 16 src) 2 ++ bytesOf seq 4 ++ bytesOf step 8 ++
    body ++ List.replicate (48 - body.length) 0)

/-- SEQ wraps from its largest value to 1 (R363). -/
def nextSeq (s : W32) : W32 := if s = 0xFFFFFFFF then 1 else s + 1

/-- A record is made (R363): SEQ follows that of the record made before it. -/
def Polder.mirror (p : Polder) (x : PolCtx) (type : Nat) (step : W64) (body : List Byte) : Polder :=
  let last := match p.twin.records.getLast? with
    | some r => bits r 32 32
    | none => p.twin.txSeq
  let r := mirrorRecord type (x.ownId p) (nextSeq last) step body
  (p.onTwin fun w => { w with records := w.records ++ [r] }).mirrorKick x

/-- A write that does not belong in the mailbox, or arrives over another port (R310, R317, R363). -/
def mboxOk (port : Nat) (t : Txn) : Bool :=
  port == 7 && t.op == opWrite && gaTier t.addr == 4 && gaOff t.addr == mboxOff && t.data.length == 64

/-- A record is placed in the receive ring as one unit (R363). -/
def Polder.placeRecord (p : Polder) (x : PolCtx) (t : Txn) : Polder × Status :=
  let base := p.pair (TWN + 0x44) &&& 0xFFFFFFFFFFFFFFC0#64
  let n := 2 ^ min 20 (max 6 (bitsN (p.rd (TWN + 0x4C)) 0 5))
  let a := gaOff base + 64 * (p.twin.ringIdx % n)
  if !(x.isOwn p base && gaTier base == 1) then (p, Status.addressInvalid)
  else
    let r := p.memWrite x (blockBy t.ctx) 1 a (t.data.map some)
    if r.st ≠ Status.done then (r.p, r.st)
    else
      let w : BitVec 512 := wordOf 512 t.data
      let p := r.p.onTwin fun v => { v with
        ringIdx := (v.ringIdx + 1) % n, rxSeq := bits w 32 32
        lastStep := if bitsN w 0 8 = 2 then bits w 64 64 else v.lastStep }
      (p.raise TWN 6, Status.done)

/-- A record arrives at the mailbox (R320, R363, R393). -/
def Polder.receiveRecord (p : Polder) (x : PolCtx) (port : Nat) (t : Txn) : Polder :=
  let p := p.takeInbound port t
  if p.staleInc t then p.answer x t Status.incarnationStale false []
  else if !mboxOk port t then p.answer x t Status.addressInvalid false []
  else
    let r := p.placeRecord x t
    r.1.answer x t r.2 false []

/-- MIRROR_RECORD_RX (R363, R466). -/
def execMirrorRecordRx (p : Pid) (port : Fin 8) (t : Txn) (s : State) : Host.Outcome State Fault Refusal :=
  if !t.wf then .fault .illFormed
  else .next (if !s.live p 5 || t.op ≠ opWrite || gaTier t.addr ≠ 4 then s
    else
      let r := if port.val = 7 then Requester.twin else Requester.fabric
      if s.mod.denied r .datapath true then
        (s.onMod fun m => m.deny r t.addr.toNat t.src.toNat).onPol p fun x q =>
          (q.takeInbound port.val t).answer x t Status.protection false []
      else s.onPol p fun x q => q.receiveRecord x port.val t)

/-- MIRROR_RECORD_COMPLETION (R363): the oldest record is complete, or is sent again. -/
def execMirrorRecordCompletion (p : Pid) (status : Status) (s : State) : Host.Outcome State Fault Refusal :=
  .next (s.event p 5 fun x q =>
    match q.twin.records with
    | [] => q
    | r :: rest =>
      if !q.twin.onWire then q
      else
        let q := q.onFlx fun g => { g with reqs := g.reqs.filter fun a => a.asker != .mirror }
        let q := q.onTwin fun w => { w with onWire := false }
        if status = Status.done then
          (q.onTwin fun w => { w with records := rest, txAck := bits r 32 32 }).mirrorKick x
        else (q.raise TWN 3).mirrorKick x)

/-- TWN_POST (R364). -/
def execTwnPost (p : Pid) (w : Who) (s : State) : Host.Outcome State Fault Refusal :=
  .next (s.writePage p (TWN + 0x0C) w fun x q =>
    if q.mirrors then
      q.mirror x 1 q.twin.step ((List.range 4).flatMap fun i => bytesOf (q.rd (TWN + 0x64 + 4 * i)) 4)
    else q)

/-- STEP_END (R365). -/
def execStepEnd (p : Pid) (w : Who) (s : State) : Host.Outcome State Fault Refusal :=
  .next (s.writePage p (TWN + 0x0C) w fun _ q => q.onTwin fun v => { v with stepWait := true })

/-- A REDUCE_WRITE of the polder is outstanding on an Outfall engine (R365). -/
def Polder.reducing (p : Polder) : Bool := p.engines.any fun e => e.2.txns.any fun q => q.txn.op == opReduce

/-- The random-stream registers at a step boundary (R91). -/
def Grid.rngStepBoundary (g : Grid) (auto : Bool) : Grid :=
  let held := g.rngHeld.any fun e => e.1 == 4
  let g := g.rngHeld.foldl (fun g e => g.setRng e.1 e.2) g
  { g with rngHeld := [], rngStep := if auto && !held then g.rngStep + 1 else g.rngStep }

/-- The key check value (R91). -/
def keyCheck (key : BitVec 128) : W32 :=
  let b := aes128 ((List.range 16).map fun i => bitsN key (8 * i) 8) (List.replicate 16 0)
  wordOf 32 ((b.take 4).map fun n => BitVec.ofNat 8 n)

/-- The body of a STEP record (R363). -/
def Polder.stepBody (p : Polder) : List Byte :=
  let w := p.twin
  bytesOf p.grid.rngStep 4 ++ bytesOf (keyCheck p.grid.rngKey) 4 ++ [BitVec.ofNat 8 p.gauge.k.toNat, 0] ++
    bytesOf p.gauge.clean 2 ++ ((List.range 4).flatMap fun c => bytesOf (BitVec.ofNat 16 (p.chan c).pooled) 2) ++
    ((List.range 4).map fun c => SMap.get (fun _ => 0xFF) w.closes c) ++ bytesOf (BitVec.ofNat 32 w.rejects) 4

/-- The state image in GAUGE records of up to 40 bytes (R363, R365). -/
def Polder.mirrorImage (x : PolCtx) (step : W64) : Nat → Nat → List Byte → Polder → Polder
  | 0, _, _, p => p
  | n + 1, at_, bs, p =>
    if bs.isEmpty then p
    else
      let d := bs.take 40
      let p := p.mirror x 3 step (bytesOf (BitVec.ofNat 32 at_) 4 ++ bytesOf (BitVec.ofNat 32 d.length) 4 ++ d)
      Polder.mirrorImage x step n (at_ + 40) (bs.drop 40) p

/-- The step boundary (R84, R91, R365, R411). -/
def Polder.stepBoundary (p : Polder) (x : PolCtx) : Polder :=
  let old := p.twin.step
  let sends := p.mirrors
  let p := p.onTwin fun w => { w with step := old + 1, stepWait := false }
  let p := p.onGrid fun g => g.rngStepBoundary (p.rd (GRD + 0x114) |>.getLsbD 0)
  let p := p.gaugeStep x
  let p := if sends then
      let p := p.mirror x 2 old p.stepBody
      let b := p.gaugeImage x
      Polder.mirrorImage x old (b.length + 1) 0 b p
    else p
  p.onTwin fun w => { w with rejects := 0, closes := [], silent := false }

/-- STEP_BOUNDARY (R365). -/
def execStepBoundary (p : Pid) (s : State) : Host.Outcome State Fault Refusal :=
  .next (s.event p 5 fun x q => if q.twin.stepWait && !q.reducing then q.stepBoundary x else q)

/-- The twin is lost (R367). -/
def Polder.twinLost (p : Polder) (id : Nat) : Polder :=
  let w := p.twin
  if w.up && (w.peer.map (·.toNat)) == some id then
    (p.onTwin fun w => { w with
      up := false, lost := bits w.lastStep 0 32, records := [], onWire := false, silent := true }).raise TWN 0
  else p

/-- The twin has returned (R367): sending resumes with the next step's records. -/
def Polder.twinBack (p : Polder) (id : Nat) : Polder :=
  let w := p.twin
  if !w.up && (w.peer.map (·.toNat)) == some id then
    (p.onTwin fun w => { w with up := true, silent := true }).raise TWN 1
  else p

/-- A role of the parity table: its entry, number, RELAY, members (R370). -/
structure Role where
  idx : Nat
  role : Nat
  relay : Bool
  members : Nat
  deriving DecidableEq, Repr

/-- The role that binds a window (R370). -/
def PolCtx.roleOf (x : PolCtx) (p : Polder) (i : Nat) : Option Role :=
  (List.range 16).findSome? fun e =>
    let w := x.cfg p (TWN + 0xA4) e
    if bitsN w 0 6 = i && bitsN w 6 2 ≠ 0 then some ⟨e, bitsN w 6 2, w.getLsbD 8, bitsN w 9 4 + 1⟩ else none

/-- The position of a polder in a role's member list (R370, R381). -/
def PolCtx.memberAt (x : PolCtx) (p : Polder) (r : Role) (src : BitVec 12) : Option Nat :=
  (List.range r.members).find? fun i =>
    let w := x.cfg p (TWN + 0xA8) (r.idx + 16 * i)
    w.getLsbD 15 && bits w 0 12 == src

/-- The factor a role's relay multiplies a source's data by, where the role accepts its writes (R370). -/
def PolCtx.accepts (x : PolCtx) (p : Polder) (r : Role) (src : BitVec 12) : Option Nat :=
  match r.role with
  | 1 => x.memberAt p r src
  | 2 => (x.memberAt p r src).bind fun i => if i = 0 then some 0 else none
  | _ => some 0

/-- α^i (R369). -/
def alphaPow : Nat → Byte
  | 0 => 1
  | n + 1 => gfMul (alphaPow n) 2

/-- A WRITE into a bound window folds (R370): what it is answered with, none where it waits to be visible. -/
def Polder.fold (p : Polder) (x : PolCtx) (i : Nat) (r : Role) (t : Txn) (by_ : MemBy) : Polder × Option Status :=
  match x.accepts p r t.src with
  | none => ((p.count (TWN + 0xB8) 1).raise TWN 5, some Status.windowClosed)
  | some m =>
    let o := gaOff t.addr
    let tier := gaTier t.addr
    let old := p.memRead x by_ tier o t.data.length
    if old.st ≠ Status.done then (old.p, some old.st)
    else
      let w := old.p.memWrite x { by_ with background := true } tier o ((xorBytes old.data t.data).map some)
      let deferred := old.deferred || w.deferred
      if w.st ≠ Status.done then (w.p, some w.st)
      else
        let units := (o + t.data.length + 63) / 64 - o / 64
        let p := w.p.count (TWN + 0xB4) units (place := 1 + r.idx)
        let land := fun (p : Polder) (relayed : Bool) =>
          p.setWin i { p.win i with writes := (p.win i).writes ++ [⟨t, deferred, [], relayed⟩] }
        if r.role = 1 && r.relay then
          let lo := x.cfg p (TWN + 0xAC) r.idx
          let base : W64 := x.cfg p (TWN + 0xB0) r.idx ++ lo
          let a := base + (t.addr - (p.win i).base)
          let u := { xferTxn opWrite a t.data.length t.ctx (t.data.map (gfMul (alphaPow m))) with cls := t.cls }
          match p.request x u .relay with
          | (p, .ok tag) =>
            (land (p.onTwin fun v => { v with relays := v.relays ++ [⟨t, deferred, tag, false, none⟩] }) true, none)
          | (p, .error st) => (p, some st)
        else (land p false, none)

/-- A transfer starts; a GO while one runs does nothing (R372). -/
def Polder.xferStart (p : Polder) (x : PolCtx) (zero : Bool) (ctx : BitVec 16) : Polder :=
  if p.twin.xf.isSome then p
  else
    let c := p.rd (TWN + 0x94)
    let p := (p.wr (TWN + 0x94) (setField c 2 2 (bit01 zero))).wr (TWN + 0x98) 0
    let v : Xfer :=
      { zero := zero, coef := bits c 8 8, src := p.pair (TWN + 0x80) &&& 0xFFFFFFFFFFFFFFC0#64
        dst := p.pair (TWN + 0x88) &&& 0xFFFFFFFFFFFFFFC0#64, len := p.rdN (TWN + 0x90), done := 0, unit := 0
        code := none, ctx := ctx }
    if !zero && !x.isOwn p v.src then p.onTwin fun w => { w with xf := some { v with code := some Status.addressInvalid } }
    else p.xferGo x v

/-- XF_COPY (R372). -/
def execXfCopy (p : Pid) (w : Who) (s : State) : Host.Outcome State Fault Refusal :=
  .next (s.writePage p (TWN + 0x94) w fun x q => q.xferStart x false w.ctx)

/-- XF_ZERO (R372). -/
def execXfZero (p : Pid) (w : Who) (s : State) : Host.Outcome State Fault Refusal :=
  .next (s.writePage p (TWN + 0x94) w fun x q => q.xferStart x true w.ctx)

/-- XF_COMPLETE (R372). -/
def execXfComplete (p : Pid) (status : Status) (s : State) : Host.Outcome State Fault Refusal :=
  .next (s.event p 5 fun _ q =>
    match q.twin.xf with
    | none => q
    | some v =>
      if v.code = some status then
        let q := q.onTwin fun w => { w with xf := none }
        let q := (q.wr (TWN + 0x98) (BitVec.ofNat 32 v.done)).wr (TWN + 0x94)
          (setField (q.rd (TWN + 0x94)) 16 8 status.toNat)
        q.raise TWN 4
      else q)

end Sys2Proof.Machine
end

