-- ==== Sys2Proof/Machine/Peers.lean ====
section
/-! DEFINITION. Heartbeats and notices between polders (R334 to R336). Readings and choices: log 34. -/

namespace Sys2Proof.Machine

/-- A valid entry of the heartbeat list (FLX1 + 0x4C) or the notice list (FLX1 + 0x58) and its polder (R341). -/
def PolCtx.listEntry (x : PolCtx) (p : Polder) (off i : Nat) : Option Nat :=
  let w := x.cfg p off i
  if w.getLsbD 15 then some (bitsN w 0 12) else none

/-- The valid entries of a list, in order. -/
def PolCtx.listed (x : PolCtx) (p : Polder) (off : Nat) : List Nat :=
  (List.range 32).filterMap fun i => x.listEntry p off i

abbrev hbList : Nat := FLX1 + 0x4C
abbrev noticeList : Nat := FLX1 + 0x58

/-- A transaction that is not completed sets out in class GUARANTEED, exempt from quota (R315, R334). -/
def Polder.sendBare (p : Polder) (x : PolCtx) (op : Byte) (md : BitVec 4) (opnd : W64) (data : List Byte) (dest : Nat) :
    Polder :=
  if (x.module? p).isNone then p
  else
    let own := x.ownId p
    let t : Txn :=
      { op := op, mod := md, tinc := 0, tag := 0, len := BitVec.ofNat 10 data.length, epoch := 0
        rinc := p.wdn.polderInc, chk := false, deferred := false, status := 0, addr := gaOf dest 0 0, ctx := 0
        opnd := opnd, src := BitVec.ofNat 12 own, dst := BitVec.ofNat 12 dest, cls := .guaranteed, data := data }
    let p := p.onFlx fun g => { g with
      sent := g.sent ++ [t], inbound := if dest = own then g.inbound ++ [(8, t)] else g.inbound }
    if dest = own then p else p.enqueue x (.txn 0 dest false 0 false (Txn.bytes t))

/-- The state heartbeats carry (R334, R396, R399). -/
def Polder.hbState (p : Polder) : BitVec 4 :=
  match p.wdn.st with
  | .resetting | .failed => 2
  | .recovering | .ready => 3
  | .running | .probing => if p.stepHold then 1 else 0

/-- A heartbeat to every valid entry of the list (R334). -/
def Polder.sendHeartbeats (p : Polder) (x : PolCtx) : Polder :=
  (x.listed p hbList).foldl (fun p d => p.sendBare x opHeartbeat p.hbState (BitVec.ofNat 64 (bitsN p.twin.step 0 32)) [] d) p

/-- A NOTICE to every valid entry of the notice list (R334). -/
def Polder.notifyAll (p : Polder) (x : PolCtx) (kind : BitVec 4) (subject : Nat) (inc : BitVec 4) : Polder :=
  let o : W64 := BitVec.ofNat 64 (subject % 2 ^ 12 + inc.toNat * 2 ^ 12)
  (x.listed p noticeList).foldl (fun p d => p.sendBare x opNotice kind o [] d) p

def HbStat.reset : HbStat := ⟨0, false, 0, 0⟩

def Polder.hbStat (p : Polder) (i : Nat) : HbStat := SMap.get (fun _ => HbStat.reset) p.flx.hb i
def Polder.setHbStat (p : Polder) (i : Nat) (v : HbStat) : Polder :=
  p.onFlx fun g => { g with hb := SMap.set (fun _ => HbStat.reset) g.hb i v }

/-- HEARTBEAT_TIMER (R334): 2 µs have passed. -/
def execHeartbeatTimer (p : Pid) (s : State) : Host.Outcome State Fault Refusal :=
  .next (s.event p 5 fun x q =>
    let q := (List.range 32).foldl (fun q i =>
      if (x.listEntry q hbList i).isNone then q
      else
        let v := q.hbStat i
        q.setHbStat i { v with age := BitVec.ofNat 16 (min 0xFFFF (v.age.toNat + 2)) }) q
    q.sendHeartbeats x)

/-- A polder is lost, with its incarnation (R323, R334, R335, R367): the mark is set, requests to it complete,
the Pumps and the Twin are told. -/
def Polder.declareLost (p : Polder) (x : PolCtx) (id : Nat) (inc : BitVec 4) : Polder :=
  let p := p.setView id { p.view id with lost := some inc }
  ((p.abortTo x id).pumpPeerLost id).twinLost id

/-- PEER_LOSS_TIMEOUT (R334). -/
def execPeerLossTimeout (p : Pid) (entry : Fin 32) (s : State) : Host.Outcome State Fault Refusal :=
  .next (s.event p 5 fun x q =>
    match x.listEntry q hbList entry.val with
    | none => q
    | some id =>
      let v := q.hbStat entry.val
      if v.lost then q
      else
        let q := q.setHbStat entry.val { v with lost := true, age := BitVec.ofNat 16 (max 8 v.age.toNat) }
        let q := (q.raise FLX0 0).count (FLX0 + 0x84) 1
        (q.declareLost x id v.inc).notifyAll x 1 id v.inc)

/-- A heartbeat arrives (R320, R323, R334, R335, R367). -/
def Polder.heartbeat (p : Polder) (x : PolCtx) (t : Txn) : Polder :=
  let id := t.src.toNat
  let v := p.view id
  let p := if v.known && v.inc != t.rinc then p.abortTo x id else p
  let p := p.setView id { v with inc := t.rinc, known := true, lost := none }
  let p := (List.range 32).foldl (fun p i =>
    if x.listEntry p hbList i ≠ some id then p
    else
      let h := p.hbStat i
      let p := if h.lost then p.raise FLX0 1 else p
      p.setHbStat i ⟨t.rinc, false, bits t.mod 0 2, 0⟩) p
  p.twinBack id

/-- HEARTBEAT_RX (R334). -/
def execHeartbeatRx (p : Pid) (t : Txn) (s : State) : Host.Outcome State Fault Refusal :=
  if !t.wf then .fault .illFormed
  else .next (s.event p 5 fun x q =>
    if t.op ≠ opHeartbeat || !Txn.known t || (x.module? q).isNone then q
    else (q.takeInbound 8 t).heartbeat x t)

/-- A notice arrives: it is queued, or finds the queue full (R335). -/
def Polder.queueNotice (p : Polder) (t : Txn) : Polder :=
  if 64 ≤ p.flx.notices.length then p.raise FLX0 3
  else (p.onFlx fun g => { g with notices := g.notices ++ [t] }).raise FLX0 2

/-- The subject of a notice, and its incarnation (R315). -/
def Txn.subject (t : Txn) : Nat := bitsN t.opnd 0 12
def Txn.subjectInc (t : Txn) : BitVec 4 := bits t.opnd 12 4

/-- A notice of a kind takes effect at its FLX (R335). -/
def State.onNotice (s : State) (p : Pid) (t : Txn) (kind : BitVec 4) (f : PolCtx → Polder → Polder) :
    Host.Outcome State Fault Refusal :=
  if !t.wf then .fault .illFormed
  else .next (s.event p 5 fun x q =>
    if t.op ≠ opNotice || t.mod ≠ kind || (x.module? q).isNone then q
    else f x ((q.takeInbound 8 t).queueNotice t))

/-- NOTICE_PEER_LOST (R335, R378): a listed peer is marked LOST as well. -/
def execNoticePeerLost (p : Pid) (t : Txn) (s : State) : Host.Outcome State Fault Refusal :=
  s.onNotice p t 1 fun x q =>
    let id := Txn.subject t
    if (q.view id).lost = some (Txn.subjectInc t) then q
    else
      let q := (List.range 32).foldl (fun q i =>
        if x.listEntry q hbList i = some id then q.setHbStat i { q.hbStat i with lost := true } else q) q
      q.declareLost x id (Txn.subjectInc t)

/-- NOTICE_PEER_UP (R323, R335): a view that changes is of a polder that has returned. -/
def execNoticePeerUp (p : Pid) (t : Txn) (s : State) : Host.Outcome State Fault Refusal :=
  s.onNotice p t 2 fun x q =>
    let id := Txn.subject t
    let v := q.view id
    let q := if v.known && v.inc != Txn.subjectInc t then q.abortTo x id else q
    q.setView id ⟨Txn.subjectInc t, true, none, false⟩

/-- NOTICE_ROUTE_CHANGE (R335): it waits for Varore. -/
def execNoticeRouteChange (p : Pid) (t : Txn) (s : State) : Host.Outcome State Fault Refusal :=
  s.onNotice p t 3 fun _ q => q

/-- NOTICE_DRAIN (R335). -/
def execNoticeDrain (p : Pid) (t : Txn) (s : State) : Host.Outcome State Fault Refusal :=
  s.onNotice p t 4 fun _ q => q.setView (Txn.subject t) { q.view (Txn.subject t) with draining := true }

/-- NOTICE_USER (R335): it waits for its reader. -/
def execNoticeUser (p : Pid) (t : Txn) (s : State) : Host.Outcome State Fault Refusal :=
  s.onNotice p t 5 fun _ q => q

/-- The notice in FLX_NTX0 to 3 is sent (R336, R340); a kind that no notice has is not sent. -/
def Polder.sendNotice (p : Polder) (x : PolCtx) : Polder :=
  let n0 := p.rd (FLX0 + 0xB0)
  let n1 := p.rd (FLX0 + 0xB4)
  let kind := bitsN n0 0 8
  if kind = 0 || 5 < kind then p
  else
    let data := if kind = 5 then
        bytesOf (p.rd (FLX0 + 0xB8)) 4 ++ bytesOf (p.rd (FLX0 + 0xBC)) 4 ++ List.replicate 8 0
      else []
    p.sendBare x opNotice (BitVec.ofNat 4 kind) (BitVec.ofNat 64 (bitsN n1 0 16)) data (bitsN n0 8 12)

/-- NOTICE_SEND (R336, R340). -/
def execNoticeSend (p : Pid) (w : Who) (s : State) : Host.Outcome State Fault Refusal :=
  .next (s.writePage p (FLX0 + 0x0C) w fun x q => q.sendNotice x)

/-- NOTICE_POP (R335, R340). -/
def execNoticePop (p : Pid) (w : Who) (s : State) : Host.Outcome State Fault Refusal :=
  .next (s.writePage p (FLX0 + 0x0C) w fun _ q => q.onFlx fun g => { g with notices := g.notices.drop 1 })

end Sys2Proof.Machine
end

