-- ==== Sys2Proof/Machine/WdnOps.lean ====
section
/-! DEFINITION. What the Warden does: halting plots, the ladder of resets, the state a reset leaves, recovery
(R384 to R399). Readings and choices: log 2, 9, 36, 40, 41. -/

namespace Sys2Proof.Machine

def Polder.onWdn (p : Polder) (f : Warden → Warden) : Polder := { p with wdn := f p.wdn }

/-- WDN_CAUSE (R405). -/
def causeWord (cause dom target : Nat) (code : Status) : W32 :=
  fld 0 cause ||| fld 8 dom ||| fld 16 target ||| fld 24 code.toNat

/-- The rectangle of a field die (R19). -/
def dieRect (d : Nat) : Rect :=
  BitVec.ofNat 32 (128 * (d / 2) + 2 ^ 8 * (128 * (d / 2) + 127) + 2 ^ 16 * (80 * (d % 2)) + 2 ^ 24 * (80 * (d % 2) + 79))

/-- A rectangle lies within another. -/
def within (q r : Rect) : Bool :=
  r.row0 ≤ q.row0 && q.row1 ≤ r.row1 && r.col0 ≤ q.col0 && q.col1 ≤ r.col1

/-- A reset domain contains another (R387). -/
def Polder.contains (p : Polder) (a b : Dom) : Bool :=
  match a, b with
  | .power, _ => true
  | .polder, .power => false
  | .polder, _ => true
  | .die d, .die k => d == k
  | .die d, .engine e => d == e / 16
  | .die d, .plot r => d < 4 && within r (dieRect d)
  | .plot r, .plot q => within q r
  | .plot r, .engine e => (p.boundTo r).contains e
  | .engine e, .engine k => e == k
  | _, _ => false

/-- Two domains share a block of one kind: a reset of the second waits for the first (R392). -/
def Polder.blocks (p : Polder) (a b : Dom) : Bool :=
  p.contains a b || (match a, b with
    | .plot r, .plot q => r.overlaps q
    | _, _ => false)

/-- Rectangles of the plots that run: issues and the stages of a run (R385). -/
def Polder.plots (p : Polder) : List Rect :=
  (p.grid.issues.filterMap fun i => if i.phase = .running then some i.rect else none) ++
    (match p.grid.pipe with
     | some r => if r.phase = .running then r.stages.map (·.rect) else []
     | none => [])

/-- The plot of a cell, or the cell alone (R385). -/
def Polder.plotOf (p : Polder) (k : Nat) : Rect :=
  (p.plots.find? fun r => r.hasKey k).getD
    (BitVec.ofNat 32 (k / 160 + 2 ^ 8 * (k / 160) + 2 ^ 16 * (k % 160) + 2 ^ 24 * (k % 160)))

/-- Issues and runs that reach into a rectangle complete with a code (R146, R171, R385); with `all`, those
accepted and not started too. -/
def Polder.endWork (p : Polder) (x : PolCtx) (r : Rect) (code : Status) (all : Bool) : Polder :=
  let hit := p.grid.issues.filter fun i => i.rect.overlaps r && (i.phase = .running || (all && i.phase = .pending))
  let p := hit.foldl (fun p i => p.finishIssue x i code 0) p
  match p.grid.pipe with
  | some q =>
    if (q.phase = .running || (all && q.phase = .pending)) && q.stages.any (fun s => s.rect.overlaps r) then
      p.endPipe x q code
    else p
  | none => p

/-- STOP to every cell of a plot and to every engine bound to it (R385). -/
def Polder.stopPlot (p : Polder) (x : PolCtx) (r : Rect) : Polder :=
  let p := p.onGrid fun g => { g with
    cells := SMap.mapVals (fun k c => if r.hasKey k then c.stop else c) g.cells }
  (p.boundTo r).foldl (fun p e => p.stopEngine x e) p

/-- Steps 1 to 3 of a halt (R384, R385). -/
def Polder.haltPlot (p : Polder) (x : PolCtx) (r : Rect) (cause : Nat) (code : Status) : Polder :=
  let p := (p.stopPlot x r).endWork x r code false
  (p.onWdn fun w => { w with cause := causeWord cause 1 0 code }).raise WDN 1

/-- The HOLD requests of engines a reset reaches are forced off in its first cycle (R386). -/
def Polder.dropHold (p : Polder) (hit : Nat → Bool) : Polder :=
  let off := fun (e : Nat) (v : Eng) =>
    if hit e then { v with holdReq := false, outHold := false }
    else if e % 16 < 8 && hit (e + 8) && v.outHold then { v with outHold := false, holdReq := v.holdReq && p.missing e }
    else v
  Polder.updateHold { p with engines := SMap.mapVals off p.engines }

/-- The engines of a domain. -/
def Polder.hasEng (p : Polder) (d : Dom) (e : Nat) : Bool := p.contains d (.engine e)

/-- The first cycle of a domain's reset: what runs there is halted and incarnations advance (R387, R394). -/
def Polder.resetWork (p : Polder) (x : PolCtx) (d : Dom) : Polder :=
  let p := p.dropHold (p.hasEng d)
  match d with
  | .plot r => p.endWork x r Status.resetAbort true
  | .engine _ => p
  | .die k => if k < 4 then p.endWork x (dieRect k) Status.resetAbort true else p
  | .polder | .power => ([0, 1, 2, 3] : List Nat).foldl (fun p k => p.endWork x (dieRect k) Status.resetAbort true) p

def bump (m : SMap (BitVec 4)) (k : Nat) : SMap (BitVec 4) := SMap.set (fun _ => 0) m k (SMap.get (fun _ => 0) m k + 1)

def Warden.advance (w : Warden) (d : Dom) : Warden :=
  match d with
  | .plot r => { w with cellInc := r.keys.foldl bump w.cellInc }
  | .engine e => { w with engInc := bump w.engInc e }
  | .die k => { w with dieInc := bump w.dieInc k }
  | .polder | .power => { w with polderInc := w.polderInc + 1 }

/-- The incarnation a domain has now (R394). -/
def Warden.incOf (w : Warden) (d : Dom) : BitVec 4 :=
  match d with
  | .plot r => w.incOfCell (r.row0 * 160 + r.col0)
  | .engine e => w.incOfEng e
  | .die k => w.incOfDie k
  | .polder | .power => w.polderInc

/-- WDN_RESETS counts by domain (R405). -/
def Polder.countReset (p : Polder) (d : Dom) : Polder :=
  match d with
  | .plot _ | .engine _ => p.count (WDN + 0x6C) 1 0 8
  | .die _ => p.count (WDN + 0x6C) 1 8 8
  | .polder => p.count (WDN + 0x6C) 1 16 8
  | .power => p.count (WDN + 0x6C) 1 24 8

/-- A FAULT record (R408). -/
def Polder.postFault (p : Polder) (x : PolCtx) (action target cause : Nat) (code : Status) (inc : BitVec 4) : Polder :=
  p.post x 7 action target (BitVec.ofNat 64 (cause + 2 ^ 8 * code.toNat + 2 ^ 16 * inc.toNat))

/-- A reset begins (R387, R389, R390, R394, R396). -/
def Polder.beginReset (p : Polder) (x : PolCtx) (d : Dom) (cause : Nat) (code : Status) (fails : Nat) : Polder :=
  let whole := d = .polder || d = .power
  let p := p.onWdn fun w => { w with
    ladders := w.ladders.filter fun l => !p.contains d l.dom
    recovs := w.recovs.filter fun r => !(whole || d == .die (r.die.getD 5))
    halted := match d with
      | .plot r => w.halted.filter fun h => !h.overlaps r
      | _ => w.halted
    cause := causeWord cause d.num d.target code
    recent := (w.recent.filter fun e => decide (x.ticks < e.2 + 100000)) ++ [(d, x.ticks)] }
  let p := if whole then
      let p := p.onWdn fun w => { w with st := .resetting }
      (p.sendHeartbeats x).notifyAll x 1 (x.ownId p) p.wdn.polderInc
    else p
  let p := p.resetWork x d
  let p := p.onWdn fun w => { w.advance d with
    ladders := w.ladders ++ [⟨d, false, false, cause, code, x.ticks, fails⟩] }
  let p := (p.countReset d).raise WDN 2
  let p := if d = .power then p.raise WDN 5 else p
  p.postFault x d.num d.target cause code (p.wdn.incOf d)

/-- A reset is asked for: dropped within one under way, held back for 1 ms, or begun (R390 to R392). -/
def Polder.startOne (p : Polder) (x : PolCtx) (d : Dom) (cause : Nat) (code : Status) : Polder :=
  let w := p.wdn
  if w.ladders.any fun l => !l.waiting && p.contains l.dom d then p.countReset d
  else if w.ladders.any fun l => l.waiting && l.dom == d then p.countReset d
  else if w.recent.any fun e => decide (x.ticks < e.2 + 100000) && p.blocks e.1 d then
    p.onWdn fun w => { w with ladders := w.ladders ++ [⟨d, true, false, cause, code, x.ticks, 0⟩] }
  else p.beginReset x d cause code 0

/-- A field-die reset resets every plot on the die, also the part of it that lies on another (R387). -/
def Polder.startReset (p : Polder) (x : PolCtx) (d : Dom) (cause : Nat) (code : Status) : Polder :=
  match d with
  | .die k =>
    let across := p.plots.filter fun r => k < 4 && r.overlaps (dieRect k) && !within r (dieRect k)
    let p := across.foldl (fun p r => p.startOne x (.plot r) cause code) p
    p.startOne x d cause code
  | _ => p.startOne x d cause code

/-- WDN_ESCALATE.CEILING (R391). -/
def Polder.ceiling (p : Polder) : Nat := bitsN (p.rd (WDN + 0x40)) 0 3

/-- A reset on the Warden's own initiative stays at or below CEILING (R391). -/
def Polder.ownReset (p : Polder) (x : PolCtx) (d : Dom) (cause : Nat) (code : Status) : Polder :=
  if p.ceiling < d.num then (p.onWdn fun w => { w with cause := causeWord cause d.num d.target code }).raise WDN 10
  else p.startReset x d cause code

/-- A whole halt (R385): the plot is reset, or left halted. -/
def Polder.halt (p : Polder) (x : PolCtx) (r : Rect) (cause : Nat) (code : Status) : Polder :=
  let p := (p.raise WDN 0).haltPlot x r cause code
  if (p.rd (WDN + 0x40)).getLsbD 8 then p.ownReset x (.plot r) cause code
  else p.onWdn fun w => { w with halted := w.halted ++ [r] }

/-- Registers of pages return to their reset values (R519). -/
def Polder.clearPages (p : Polder) (f : Nat → Bool) : Polder :=
  let keep := fun {V : Type} (m : SMap V) => SMap.keep (fun k => !f (k % 2 ^ 26)) m
  { p with regs := keep p.regs, effLo := keep p.effLo, captured := keep p.captured }

/-- An engine after its reset (R387, R388): its page, queue, buffer and tracker. -/
def Polder.resetEng (p : Polder) (x : PolCtx) (e : Nat) : Polder :=
  let v := p.eng e
  let p := p.unpinAll x v.descs
  let p := v.txns.foldl (fun p q =>
    match q.slot with
    | some k => p.countPend k q.txn.epoch false
    | none => p) p
  (p.setEng e Eng.reset).clearPages fun off => off / 0x1000 * 0x1000 == ENGP e

/-- The cells, routers, weirs and slot tables of a rectangle after its reset (R64, R387). -/
def Polder.resetRect (p : Polder) (x : PolCtx) (r : Rect) : Polder :=
  let out := fun (k : Nat) => !r.hasKey k
  let p := p.onGrid fun g =>
    let g := g.advanceEpochs r
    { g with
      cells := SMap.keep out g.cells
      slots := SMap.keep (fun k => out (k / 512 % 40960)) g.slots
      stale := SMap.keep (fun k => out (k / 6)) g.stale
      queues := SMap.keep (fun k => out (k / 6)) g.queues
      beats := g.beats.filter fun b => out b.cell
      dwells := g.dwells.filter fun b => out b.cell
      tokens := g.tokens.filter fun t => out t.cell
      svc := g.svc.filter fun k => out k.cell
      incrs := g.incrs.filter fun i => i.eng || out i.target
      faults := g.faults.filter fun f => out f.1 }
  p.rewriteScales x r

/-- The updates a reset ends (R281, R388). -/
def Polder.abortUpdates (p : Polder) (hit : Shard → Bool) : Polder :=
  (List.range 4).foldl (fun p ch =>
    let v := p.chan ch
    match v.tab with
    | some t =>
      if v.st = .updating && t.shards.any hit then
        (p.setChan ch { v with st := .late, code := Status.resetAbort }).raise PMP 2
      else p
    | none => p) p

/-- WDN_LOSS of a domain (R388, R405). -/
def Dom.loss : Dom → Nat
  | .plot _ => 0x01
  | .engine _ => 0x00
  | .die d => if d < 4 then 0x13 else 0x36
  | .polder => 0x3F
  | .power => 0x7F

/-- The memory side of a basin-die reset (R387, R388): memory and what lies in it stay. -/
def Polder.resetBasin (p : Polder) (x : PolCtx) : Polder :=
  let p := p.abortUpdates fun _ => true
  let p := p.mem.edits.foldl (fun p e => p.finishEdit e Status.resetAbort 0) p
  let p := Polder.abortTier3 x Status.resetAbort p.mem.tier3.length p
  let p := { p with chans := [] }
  p.onMem fun m => { m with
    valid2 := [], images := m.images.map fun i => { i with pins := 0 }
    allocs := m.frames.foldl (fun l f => l.filter fun a => !(a.tier == 1 && a.base == f.base)) m.allocs
    edits := [], prefetch := [], staged := [], oldCopies := [], frames := [], range := none, used := [], tier3 := [] }

/-- Granules of a field die's stacks. -/
def stackOfGranule (g : Nat) : Nat := g * granule / 2 ^ 36

/-- A field die after its reset. -/
def Polder.resetField (p : Polder) (x : PolCtx) (d : Nat) : Polder :=
  let p := p.abortUpdates fun s => s.pump / 2 == d && s.pump < 8
  let p := p.resetRect x (dieRect d)
  let p := (List.range 16).foldl (fun p k => p.resetEng x (16 * d + k)) p
  p.onMem fun m => { m with valid1 := SMap.keep (fun g => stackOfGranule g / 2 != d) m.valid1 }

/-- Commands that a polder holds or works on end (R393). -/
def Polder.abortCommands (p : Polder) (x : PolCtx) : Polder :=
  let p := p.grid.issues.foldl (fun p i => p.finishIssue x i Status.resetAbort 0) p
  let p := match p.grid.pipe with
    | some r => p.endPipe x r Status.resetAbort
    | none => p
  let p := p.mem.edits.foldl (fun p e => p.finishEdit e Status.resetAbort 0) p
  let p := p.flx.maps.foldl (fun p e =>
    match e.2.wait with
    | some o => p.endCmd o Status.resetAbort false 0
    | none => p) p
  p.held.foldl (fun p h =>
    match h with
    | .issue _ o | .pipe _ o | .arm _ _ o | .mapActivate _ o | .edit _ o => p.endCmd o Status.resetAbort false 0
    | .winOpen _ | .range _ => p) p

/-- What outlives a polder reset: the Warden and its page, memory and the cache tables in it, the clock bin,
journal numbers, and what has left (R382, R387, R388, R406). -/
def Polder.afterReset (p : Polder) (x : PolCtx) : Polder :=
  let p := ((p.abortCommands x).resetBasin x).clearPages fun off => off / 0x1000 != 0
  let g := p.gauge
  { Polder.reset with
    regs := p.regs, effLo := p.effLo, captured := p.captured, field := p.field, wdn := p.wdn
    mem := { p.mem with valid1 := [], ces := [] }
    flx := { Flx.reset with sent := p.flx.sent }
    gauge := { Gauge.reset with
      queue := g.queue, seq := g.seq, bin := g.bin, cool := g.cool, since := g.since, hottest := g.hottest, crit := g.crit }
    inlet := { Inlet.reset with out := p.inlet.out, pfcOut := p.inlet.pfcOut }
    ended := p.ended, hostOut := p.hostOut }

/-- What outlives a power cycle: incarnations, the repair log, journal numbers, and what has left (R237, R388,
R394). -/
def Polder.afterPower (p : Polder) (x : PolCtx) : Polder :=
  let p := p.afterReset x
  { p with
    regs := [], effLo := [], captured := []
    mem := { Mem.reset with ppr := p.mem.ppr, repaired := p.mem.repaired, replies := p.mem.replies }
    wdn := { Warden.reset with
      st := p.wdn.st, ladders := p.wdn.ladders, recovs := p.wdn.recovs, polderInc := p.wdn.polderInc
      dieInc := p.wdn.dieInc, cellInc := p.wdn.cellInc, engInc := p.wdn.engInc, cause := p.wdn.cause } }

/-- The state a complete reset leaves, and the recovery that follows it (R387, R388, R397). -/
def Polder.completeReset (p : Polder) (x : PolCtx) (l : Ladder) : Polder :=
  let p := p.onWdn fun w => { w with ladders := w.ladders.erase l }
  let rec_ := fun (p : Polder) (die : Option Nat) (phase : Nat) =>
    p.onWdn fun w => { w with recovs := w.recovs ++ [⟨die, phase, l.fails, x.ticks⟩] }
  let p := match l.dom with
    | .plot r =>
      let es := p.boundTo r
      es.foldl (fun (p : Polder) e => p.resetEng x e) (p.resetRect x r)
    | .engine e => (p.resetEng x e).askHold e
    | .die d =>
      let p := if d < 4 then p.resetField x d else p.resetBasin x
      let p := p.clearPages fun off => off / 0x1000 != 0 && pageDie off == d
      rec_ { p with unrestored := if p.unrestored.contains d then p.unrestored else p.unrestored ++ [d] } (some d) 3
    | .polder => rec_ ((p.afterReset x).onWdn fun w => { w with st := .recovering }) none 3
    | .power => rec_ ((p.afterPower x).onWdn fun w => { w with st := .recovering }) none 2
  (p.onWdn fun w => { w with loss := BitVec.ofNat 32 l.dom.loss }).raise WDN 3

/-- Every block of a domain can report its reset state: the tracker of an engine reports no request held
(R387). -/
def Polder.canComplete (p : Polder) (d : Dom) : Bool :=
  match d with
  | .engine e =>
    let v := p.eng e
    (v.reqs.all fun q => q.retry || q.answer.isSome || !p.reqWaits q) && v.txns.all fun q => q.retry || q.answer.isSome
  | _ => true

/-- The dies a plot or an engine lies on (R389). -/
def Dom.dies : Dom → List Nat
  | .plot r => ([0, 1, 2, 3] : List Nat).filter fun d => r.overlaps (dieRect d)
  | .engine e => [e / 16]
  | _ => []

/-- The next rung of a ladder (R389). -/
def Dom.next : Dom → List Dom
  | .plot r => (Dom.dies (.plot r)).map .die
  | .engine e => [.die (e / 16)]
  | .die _ => [.polder]
  | .polder => [.power]
  | .power => []

/-- A ladder climbs, or stops at CEILING (R389, R391). -/
def Polder.climb (p : Polder) (x : PolCtx) (l : Ladder) : Polder :=
  match l.dom.next with
  | [] => p
  | d :: more =>
    if p.ceiling < d.num then
      (p.onWdn fun w => { w with
        ladders := w.ladders.map fun a => if a = l then { l with capped := true } else a }).raise WDN 10
    else
      let p := p.raise WDN 4
      (d :: more).foldl (fun p d => p.beginReset x d 8 l.code l.fails) p

/-- The repair log is applied when memory is trained again (R237). -/
def Polder.repair (p : Polder) : Polder :=
  let m := p.mem
  let new := m.ppr.filter fun r => !m.repaired.any fun q => q.1 == r.1 && q.2.1 == r.2.1
  let done := m.repaired ++ new
  let p := (List.range 8).foldl (fun p s =>
    let n := (m.ppr.filter fun r => r.1 == s).length + (m.repaired.filter fun r => r.1 == s && !r.2.2).length
    p.wr (HBC s + 0x60) (BitVec.ofNat 32 n)) p
  p.onMem fun m => { m with
    ppr := [], repaired := done
    bad1 := SMap.keep (fun b => !done.any fun q => q.2.1 == hbmRow (64 * b)) m.bad1 }

/-- A phase of the recovery under way is done (R397, R399, R508). -/
def Polder.phaseDone (p : Polder) (x : PolCtx) (r : Recov) : Polder :=
  let set := fun (p : Polder) (n : Option Recov) => p.onWdn fun w => { w with
    recovs := match n with
      | some q => w.recovs.map fun a => if a = r then q else a
      | none => w.recovs.erase r }
  match r.phase with
  | 5 => set (if r.die.isNone then p.repair else p) (some { r with phase := 6 })
  | 6 =>
    if x.mod.keeper ≠ .ready then p
    else
      let p := { p with unrestored := match r.die with
        | none => []
        | some d => p.unrestored.filter (· != d) }
      set p (some { r with phase := 7 })
  | 7 =>
    let p := set p none
    let p := if r.die.isNone then p.onWdn fun w => { w with st := .ready } else p
    p.raise WDN 6
  | n => set p (some { r with phase := n + 1 })

/-- A second recovery has failed, or the thermal limit has opened the switch: the polder is FAILED (R398,
R421). -/
def Polder.failed (p : Polder) (x : PolCtx) (cause : Nat) : Polder :=
  let p := p.afterPower x
  let p := p.onWdn fun w => { w with
    st := .failed, ladders := [], recovs := [], cause := causeWord cause 6 0 0 }
  p

/-- The rails of a polder follow its Warden: off in a power cycle and while FAILED, ramping in phase B, on
after it (R397, R398, R483, R491). -/
def State.followRails (s : State) (q : Pid) : State :=
  let w := (s.pol q).wdn
  let now := SMap.get (fun _ => Rail.off) s.mod.rails q.val
  let want := if w.st = .failed || w.ladders.any (fun l => l.dom = .power) then Rail.off
    else match w.recovs.find? fun r => r.die.isNone with
      | some r => if r.phase = 2 then .ramping else .on
      | none => now
  if want = now || (now = .fault && want = .off) then s
  else s.onMod fun m =>
    let m := { m with rails := SMap.set (fun _ => Rail.off) m.rails q.val want }
    if want = .on then m.raise PWR 2 else if want = .off then m.raise PWR 1 else m

/-- An act of the Warden, with the rails that follow it. -/
def State.warden (s : State) (q : Pid) (f : PolCtx → Polder → Polder) : State :=
  let s := (s.onPol q f).followRails q
  { s with mod := { s.mod with incCopy := SMap.set (fun _ => 0) s.mod.incCopy q.val (s.pol q).wdn.polderInc } }

/-- The Warden core lives (R382). -/
def State.wdnLive (s : State) (q : Pid) : Bool := s.mod.powered q && !(s.pol q).pageDown WDN

/-- An event the Warden acts on. -/
def State.watch (s : State) (q : Pid) (f : PolCtx → Polder → Polder) : Host.Outcome State Fault Refusal :=
  .next (if s.wdnLive q then s.warden q f else s)

end Sys2Proof.Machine
end

