-- ==== Sys2Proof/Machine/Probe.lean ====
section
/-! DEFINITION. The guilty-context probe: suspects, the replay of their batches, quarantine (R400 to R404).
Readings and choices: log 4, 42. -/

namespace Sys2Proof.Machine

/-- The contexts suspected of an engine's hang: at most the 8 most recently active, in the order they first
became active (R400). -/
def Eng.suspects (v : Eng) : List (BitVec 16) :=
  (v.users.filter fun u => ((v.users.filter fun o => decide (u.2 < o.2)).length < 8)).map (·.1)

/-- A suspect's batch (R401). -/
def Eng.batchOf (v : Eng) (ctx : BitVec 16) : List (BitVec 512) :=
  (v.descs.filter fun d => d.ctx == ctx).map (·.bits)

/-- The Warden copies the batches into the probe area, where that is own tier 1 (R401). A header holds the context
and the count in its first bytes; its other bytes are free values (log 4). -/
def Polder.copyBatches (p : Polder) (x : PolCtx) (l : List Suspect) : Polder :=
  let base := p.pair (WDN + 0x78)
  let o := gaOff base
  if !(x.isOwn p base && gaTier base == 1 && x.memOk p 1 o 0x40000) then p
  else
    (l.zip (List.range 8)).foldl (fun p q =>
      let ds := q.1.batch.take 512
      let rest := (List.range 60).map fun k => bits (Config.unstated x.pid.val (64 * q.2 + k + 1) p.gauge.seq.toNat) 0 8
      let head := bytesOf q.1.ctx 2 ++ bytesOf (BitVec.ofNat 16 ds.length) 2 ++ rest
      let p := p.putMem x 1 (o + 64 * q.2) head
      p.putMem x 1 (o + 0x200 + 0x8000 * q.2) (ds.flatMap fun d => bytesOf d 64)) p

/-- An engine hangs: its suspects are kept for a probe (R400, R401). While a probe stands, no other is made
ready. -/
def Polder.suspect (p : Polder) (x : PolCtx) (e : Nat) : Polder :=
  let v := p.eng e
  if v.users.isEmpty || p.wdn.probe.armed || p.wdn.probe.st = 1 || p.wdn.probe.stuck then p
  else
    let l : List Suspect := v.suspects.map fun c => ⟨c, v.batchOf c⟩
    (p.copyBatches x l).onWdn fun w => { w with
      probe := ⟨0, e, l, 0, decide (8 < v.users.length), true, false⟩ }

/-- Where the next request of a probed descriptor goes, and its length (R403). -/
def Polder.probeNext (p : Polder) (x : PolCtx) (out : Bool) (d : Desc) : Source × Nat :=
  if out then
    let s := p.nextSink x d
    (match s.1 with
      | .own t o => .own t o
      | .fabric a => .fabric a
      | .drop => .zeros
      | .bad => .bad, s.2)
  else p.nextSource x d

/-- A descriptor that faults in a probe is recorded and skipped (R403). -/
def Polder.probeFault (p : Polder) (e : Nat) (d : Desc) (code : Status) : Polder :=
  ((p.raise (ENGP e) 0).recordErr (ENGP e) code 0 1 0 d.addr).wr (ENGP e + 0x8C) d.index

/-- The requests of a descriptor in probe mode, until each byte is asked for (R403). -/
def Polder.probeReqs (x : PolCtx) (e : Nat) : Nat → Polder → Desc → Polder
  | 0, p, _ => p
  | n + 1, p, d =>
    let out := 8 ≤ e % 16
    let at_ := if out then d.done else d.asked
    if d.total ≤ at_ then p
    else
      let s := p.probeNext x out d
      let d' := if out then { d with done := at_ + s.2 } else { d with asked := at_ + s.2 }
      if s.2 = 0 then p
      else if s.1 = .zeros then Polder.probeReqs x e n p d'
      else
        let q : EngReq :=
          { desc := d.num, at_ := at_, out := s.2, tier := s.1.tier, addr := s.1.addr, len := s.2, retry := false
            deferred := false, tag := none, answer := none }
        match p.sendReq x e q s.1 with
        | (p, .error st) => p.probeFault e d st
        | (p, .ok q) =>
          if p.reqWaits q then
            let v := p.eng e
            Polder.probeReqs x e n (p.setEng e { v with reqs := v.reqs ++ [q] }) d'
          else
            let m := Polder.readParts x (engBy (p.eng e).ctx) (p.reqParts q) p [] [] 0
            if m.st ≠ Status.done then m.p.probeFault e d m.st else Polder.probeReqs x e n m.p d'

/-- A descriptor replayed in probe mode (R403). -/
def Polder.probeDesc (x : PolCtx) (e : Nat) (ctx : BitVec 16) (p : Polder) (q : Nat × BitVec 512) : Polder :=
  let d : Desc :=
    { num := q.1, index := 0, bits := q.2, pos := .executing, ctx := ctx, asked := 0, landed := 0, sent0 := 0
      sent1 := 0, done := 0, pend := 0, waited := true, signalled := true, epoch := 0, pin := none, walked := false
      since := 0 }
  let out := 8 ≤ e % 16
  let own := x.isOwn p d.addr
  if d.type = 0 || d.type = 0xF || d.stash then p
  else if !d.ok own out then p.probeFault e d Status.internal
  else
    let d := { d with epoch := if d.type = 9 then p.epochFor d else 0 }
    if d.type = 0x3 then
      match p.startWalk x d with
      | none => p.probeFault e d Status.addressInvalid
      | some (p, d) =>
        let p := Polder.probeReqs x e (d.total + 1) p d
        match d.pin with
        | some a => p.unpin x a
        | none => p
    else Polder.probeReqs x e (d.total + 1) p d

/-- The batch of the suspect under probe is replayed alone (R402, R403). -/
def Polder.replay (p : Polder) (x : PolCtx) : Polder :=
  let b := p.wdn.probe
  match b.suspects[b.at_]? with
  | none => p
  | some s =>
    let p := p.setEng b.eng { Eng.reset with ctx := s.ctx, probing := true }
    ((List.range s.batch.length).zip s.batch).foldl (Polder.probeDesc x b.eng s.ctx) p

/-- The suspects resume (R402). -/
def Polder.endProbe (p : Polder) (st : Nat) : Polder :=
  let b := p.wdn.probe
  let p := if (p.eng b.eng).probing then p.setEng b.eng Eng.reset else p
  let p := p.onWdn fun w => { w with
    probe := { b with st := st, armed := false }, st := if w.st = .probing then .running else w.st }
  { p with heldCtx := [] }

/-- PROBE_START (R402). -/
def execProbeStart (p : Pid) (s : State) : Host.Outcome State Fault Refusal :=
  s.watch p fun x q =>
    let b := q.wdn.probe
    if !b.armed || b.st = 1 || q.engDown b.eng || q.wdn.st = .resetting || q.wdn.st = .recovering then q
    else
      let q := q.onWdn fun w => { w with
        probe := { b with st := 1, at_ := 0 }, st := if w.st = .running then .probing else w.st }
      Polder.replay { q with heldCtx := b.suspects.map (·.ctx) } x

/-- PROBE_BATCH_DONE (R402). -/
def execProbeBatchDone (p : Pid) (s : State) : Host.Outcome State Fault Refusal :=
  s.watch p fun x q =>
    let b := q.wdn.probe
    if b.st ≠ 1 || !((q.eng b.eng).reqs.all fun r => r.answer.isSome) then q
    else if b.at_ + 1 < b.suspects.length then
      (q.onWdn fun w => { w with probe := { b with at_ := b.at_ + 1 } }).replay x
    else
      let q := (q.endProbe 3).raise WDN 9
      q.postFault x 8 b.eng 11 0 (q.wdn.incOfEng b.eng)

/-- A guilty context is entered in the quarantine table, or finds it full (R404). -/
def Polder.quarantine (p : Polder) (x : PolCtx) (ctx : BitVec 16) : Polder :=
  let used := fun (i : Nat) => (SMap.get (fun _ => Quar.mk 0 false) p.wdn.quar i).valid
  match (List.range 16).find? fun i => !used i with
  | none => (p.onWdn fun w => { w with probe := { w.probe with stuck := true } }).raise WDN 12
  | some i =>
    let p := p.onWdn fun w => { w with
      quar := SMap.insert w.quar i ⟨ctx, true⟩, probe := { w.probe with stuck := false } }
    let e := p.wdn.probe.eng
    ((p.raise WDN 8).postFault x 7 e 11 Status.internal (p.wdn.incOfEng e)).endProbe 2

/-- The suspect a probe has stopped at. -/
def Probe.guilty (b : Probe) : BitVec 16 := ((b.suspects[b.at_]?).map (·.ctx)).getD 0

/-- PROBE_TIMEOUT (R402, R404). -/
def execProbeTimeout (p : Pid) (s : State) : Host.Outcome State Fault Refusal :=
  s.watch p fun x q =>
    let b := q.wdn.probe
    if b.st ≠ 1 || ((q.eng b.eng).reqs.all fun r => r.answer.isSome) then q
    else
      let q := (q.ownReset x (.engine b.eng) 11 Status.internal).onWdn fun w => { w with probe := { b with st := 2 } }
      q.quarantine x (Probe.guilty b)

/-- QUARANTINE_RELEASE (R404, R405). -/
def execQuarantineRelease (p : Pid) (w : Who) (s : State) : Host.Outcome State Fault Refusal :=
  .next (s.writePage p (WDN + 0x94) w fun x q =>
    let i := q.sel (WDN + 0x90) w % 16
    let q := q.onWdn fun w => { w with quar := SMap.erase w.quar i }
    if q.wdn.probe.stuck then q.quarantine x (Probe.guilty q.wdn.probe) else q)

end Sys2Proof.Machine
end

