-- ==== Sys2Proof/Machine/Warden.lean ====
section
/-! DEFINITION. The Warden's commands: watchdogs, resets, ladders and recovery (R383 to R399). Readings and
choices: log 4, 40, 41. Readings and choices: log 4, 40, 41. -/

namespace Sys2Proof.Machine

/-- SEM_WAIT_WATCHDOG (R384). -/
def execSemWaitWatchdog (c : CellId) (s : State) : Host.Outcome State Fault Refusal :=
  s.watch c.p fun x q =>
    if (q.cell c.key).st = .waitSem && !q.cellDown c.key then q.halt x (q.plotOf c.key) 3 Status.internal else q

/-- A plot has been halted and is left so, or is in reset. -/
def Polder.halted (p : Polder) (k : Nat) : Bool := p.cellDown k || p.wdn.halted.any fun r => r.hasKey k

/-- What the Warden halts a plot for (R385): the first faulted cell in row-major order, else the faulted engine
of a running plot with the lowest number, else what the grid has reported: the cell it concerns, the cause, the
code. -/
def Polder.haltCause (p : Polder) : Option (Nat × Nat × Status) :=
  match List.find? (fun (e : Nat × Cell) => e.2.st = .faulted && !p.halted e.1) p.grid.cells with
  | some e => some (e.1, 1, bits (e.2.rd 0x24) 0 8)
  | none =>
    let plots := p.plots
    match List.find? (fun (e : Nat × Eng) => e.2.st = .faulted && plots.contains (p.bindOf e.1)) p.engines with
    | some e =>
      let r : Rect := p.bindOf e.1
      some (r.row0 * 160 + r.col0, 12, bits (p.rd (ENGP e.1 + 0x24)) 0 8)
    | none => p.grid.faults.head?.map fun f => (f.1, 2, f.2)

/-- PLOT_HALT (R384, R385). -/
def execPlotHalt (p : Pid) (s : State) : Host.Outcome State Fault Refusal :=
  s.watch p fun x q =>
    match q.haltCause with
    | none => q
    | some (k, cause, code) =>
      let r := q.plotOf k
      let q := q.onGrid fun g => { g with faults := g.faults.filter fun f => !r.hasKey f.1 }
      if q.halted k then q else q.halt x r cause code

/-- A hung engine: its plots are halted, its suspects kept, and it is reset (R384, R386, R400). -/
def Polder.engineHang (p : Polder) (x : PolCtx) (e cause : Nat) (code : Status) : Polder :=
  let p := p.raise WDN 0
  let p := (p.plots.filter fun r => (p.boundTo r).contains e).foldl (fun p r => p.haltPlot x r cause code) (p.suspect x e)
  p.ownReset x (.engine e) cause code

/-- ENG_WAIT_WATCHDOG (R384): the engine holds a request uncompleted. -/
def execEngWaitWatchdog (e : EngId) (s : State) : Host.Outcome State Fault Refusal :=
  s.watch e.p fun x q =>
    let v := q.eng e.key
    if (v.reqs.isEmpty && v.txns.isEmpty) || q.engDown e.key || v.probing then q
    else q.engineHang x e.key 4 Status.internal

/-- HOLD_OVERRUN (R386). -/
def execHoldOverrun (p : Pid) (s : State) : Host.Outcome State Fault Refusal :=
  s.watch p fun x q =>
    let h := q.grid.hold
    if !h.frozen || h.src = 0xFF || q.engDown h.src then q
    else q.engineHang x (if (q.eng h.src).outHold then h.src + 8 else h.src) 5 Status.holdOverrun

/-- NO_RESPONSE_WATCHDOG (R384). -/
def execNoResponseWatchdog (p : Pid) (b : BlockId) (s : State) : Host.Outcome State Fault Refusal :=
  s.watch p fun x q =>
    let d : Dom := match b with
      | .fieldDie k => .die k.val
      | .basin => .die 4
      | .sluice => .polder
    (q.raise WDN 0).ownReset x d 6 Status.resetAbort

/-- The page of a join that has lost lock counts and reports it (R522, R523). -/
def Polder.joinLost (p : Polder) (j : JoinId) : Polder :=
  match j with
  | .seam i => (p.count (SEMP i.val + 0x4C) 1).raise (SEMP i.val) 0
  | .ucl u => (p.count (UCL u.val + 0x50) 1).raise (UCL u.val) 0
  | .pll => p

/-- INTERNAL_LINK_LOST (R384, R480, R522, R523). -/
def execInternalLinkLost (p : Pid) (j : JoinId) (s : State) : Host.Outcome State Fault Refusal :=
  let s := if j = .pll && s.mod.power = .on then s.onMod fun m => m.count (CLK + 0x44) 1 else s
  s.watch p fun x q => if q.dieDown 5 then q else ((q.joinLost j).raise WDN 0).ownReset x .polder 7 Status.resetAbort

/-- LINK_STUCK (R384): an enabled external port that is not UP; `none` is the Inlet port. The record's ACTION,
SUBJECT and status code are free values: the manual gives none for it (R408, log 4). -/
def execLinkStuck (p : Pid) (port : Option (Fin 8)) (s : State) : Host.Outcome State Fault Refusal :=
  s.watch p fun x q =>
    let stuck := match port with
      | some i => cabled i.val && q.portCtl i.val 0 && !q.portUp i.val
      | none => (q.rd (INL + 0x0C)).getLsbD 0 && !q.inlet.up
    if stuck && !q.dieDown 5 then
      let w := Config.unstated x.pid.val 0 q.gauge.seq.toNat
      let q := (q.onWdn fun w => { w with cause := 0 }).raise WDN 0
      (q.raise WDN 11).postFault x (bitsN w 0 8) (bitsN w 8 16) 0 (bits w 24 8) q.wdn.polderInc
    else q

/-- A reset the runtime asks for through WDN_RESET_REQ (R391). -/
def State.resetReq (s : State) (p : Pid) (w : Who) (d : Polder → Option Dom) : Host.Outcome State Fault Refusal :=
  .next ((s.writePage p (WDN + 0x44) w fun x q =>
    match d q with
    | some d => q.startReset x d 9 0
    | none => q).followRails p)

/-- RESET_REQ_PLOT (R391): of the rectangle of WDN_RESET_RECT. -/
def execResetReqPlot (p : Pid) (w : Who) (s : State) : Host.Outcome State Fault Refusal :=
  s.resetReq p w fun q =>
    let r : Rect := q.rd (WDN + 0x48)
    if r.malformed then none else some (.plot r)

/-- RESET_REQ_ENGINE (R391). -/
def execResetReqEngine (p : Pid) (w : Who) (target : Byte) (s : State) : Host.Outcome State Fault Refusal :=
  s.resetReq p w fun _ => if target.toNat ≤ 63 then some (.engine target.toNat) else none

/-- RESET_REQ_DIE (R391). -/
def execResetReqDie (p : Pid) (w : Who) (target : Byte) (s : State) : Host.Outcome State Fault Refusal :=
  s.resetReq p w fun _ => if target.toNat ≤ 4 then some (.die target.toNat) else none

/-- RESET_REQ_POLDER (R391). -/
def execResetReqPolder (p : Pid) (w : Who) (s : State) : Host.Outcome State Fault Refusal :=
  s.resetReq p w fun _ => some .polder

/-- RESET_REQ_POWER_CYCLE (R391, R398): the keeper die answers for a polder that is FAILED and not switched
off. -/
def execResetReqPowerCycle (p : Pid) (w : Who) (s : State) : Host.Outcome State Fault Refusal :=
  if (s.pol p).wdn.st = .failed && !s.mod.offBy.getLsbD p.val && s.mod.power = .on &&
      !s.mod.denied w.req .health true && !s.mod.serverShut w.req then
    .next (s.warden p fun x q => q.beginReset x .power 9 0 0)
  else s.resetReq p w fun _ => some .power

/-- RESET_HOLDOFF_END (R392). -/
def execResetHoldoffEnd (p : Pid) (i : Nat) (s : State) : Host.Outcome State Fault Refusal :=
  s.watch p fun x q =>
    match q.wdn.ladders[i]? with
    | some l =>
      if l.waiting then
        (q.onWdn fun w => { w with ladders := w.ladders.eraseIdx i }).beginReset x l.dom l.cause l.code l.fails
      else q
    | none => q

/-- The ladder an event names, with the Warden or the power manager that acts on it. -/
def State.onLadder (s : State) (p : Pid) (i : Nat) (f : PolCtx → Polder → Ladder → Polder) :
    Host.Outcome State Fault Refusal :=
  .next (match (s.pol p).wdn.ladders[i]? with
    | some l => if l.waiting || l.capped then s else s.warden p fun x q => f x q l
    | none => s)

/-- RESET_COMPLETE (R387, R388, R397). -/
def execResetComplete (p : Pid) (i : Nat) (s : State) : Host.Outcome State Fault Refusal :=
  s.onLadder p i fun x q l => if q.canComplete l.dom then q.completeReset x l else q

/-- LADDER_TIMEOUT (R389, R391). -/
def execLadderTimeout (p : Pid) (i : Nat) (s : State) : Host.Outcome State Fault Refusal :=
  s.onLadder p i fun x q l => q.climb x l

/-- RECOVERY_PHASE_DONE (R397, R399): of the recovery begun first. -/
def execRecoveryPhaseDone (p : Pid) (s : State) : Host.Outcome State Fault Refusal :=
  .next (match (s.pol p).wdn.recovs with
    | [] => s
    | r :: _ => s.warden p fun x q => q.phaseDone x r)

/-- RECOVERY_PHASE_TIMEOUT (R391, R398). -/
def execRecoveryPhaseTimeout (p : Pid) (s : State) : Host.Outcome State Fault Refusal :=
  .next (match (s.pol p).wdn.recovs with
    | [] => s
    | r :: _ => s.warden p fun x q =>
      if r.fails = 0 then
        if q.ceiling < 5 then q.raise WDN 10 else q.beginReset x .power 10 0 1
      else ((q.failed x 10).raise WDN 7).postFault x 6 0 10 0 q.wdn.polderInc)

/-- WARDEN_RESUME (R399). -/
def execWardenResume (p : Pid) (w : Who) (s : State) : Host.Outcome State Fault Refusal :=
  .next (s.writePage p (WDN + 0x0C) w fun _ q =>
    if q.wdn.st = .ready then q.onWdn fun w => { w with st := .running } else q)

/-- WARDEN_GUARD_TIMEOUT (R383). -/
def execWardenGuardTimeout (p : Pid) (s : State) : Host.Outcome State Fault Refusal :=
  .next (if s.wdnLive p then s.warden p fun x q => q.beginReset x .power 8 0 0 else s)

end Sys2Proof.Machine
end

