-- ==== Sys2Proof/Machine/Keeper.lean ====
section
/-! DEFINITION. Keeper reset, the boot ROM and HOST_HOLD (R18, R437 to R439, R469). Readings and choices: log
44. Readings and choices: log 44. -/

namespace Sys2Proof.Machine

/-- Change every polder whose rails are on. -/
def State.onPowered (s : State) (f : PolCtx → Polder → Polder) : State :=
  (List.finRange 4).foldl (fun (s : State) q => if s.mod.powered q then s.onPol q f else s) s

/-- The boot ROM tests a slot's image; a failure names its reason (R469). -/
def Module.testSlot (m : Module) (slot : Bool) : Module × Bool :=
  match m.image? slot with
  | none => (m, false)
  | some b =>
    let r := m.fuses.fwReason b
    if r = 0 then (m, true)
    else ((m.wr (SEC + 0x48) (setField (m.rd (SEC + 0x48)) 8 4 r)).raise SEC 1, false)

/-- The boot ROM starts a slot, or the other one, or finds no image that verifies (R437, R469). -/
def Module.boot (m : Module) (slot : Bool) : Module :=
  match m.testSlot slot with
  | (m, true) => { m with keeper := .booting, running := slot, fallback := false, bootOther := false }
  | (m, false) =>
    match m.testSlot (!slot) with
    | (m, true) =>
      { m with keeper := .booting, running := !slot, fallback := true, bootOther := true }.raise KQ 3
    | (m, false) => { m with keeper := .noImage }

/-- Commands of every slot, changed. -/
def Module.onCmds (m : Module) (f : Cmd → Cmd) : Module :=
  { m with slots := m.slots.map fun e => (e.1, { e.2 with cmds := e.2.cmds.map f }) }

/-- A keeper reset holds a command fetched and not completed (R439). -/
def Cmd.hold (c : Cmd) : Cmd :=
  { c with phase := match c.phase with
    | .running => .held true
    | .held d => .held d
    | .waiting | .ready | .dispatched => .held false }

/-- A held command goes on, and completes with DEFERRED (R436, R439). -/
def Cmd.release (c : Cmd) : Cmd :=
  match c.phase with
  | .held true => { c with phase := .running, deferred := true }
  | .held false => { c with phase := .ready, deferred := true }
  | .waiting | .ready | .dispatched | .running => c

/-- The polders are held in reset while no image verifies (R469). -/
def State.holdPolders (s : State) : State :=
  if s.mod.keeper = .noImage then
    (List.finRange 4).foldl (fun (s : State) q =>
      if s.wdnLive q then s.warden q fun x p => p.startReset x .polder 0 0 else s) s
  else s

/-- A keeper reset into a slot (R253, R437 to R439). -/
def State.keeperReset (s : State) (slot : Bool) : State :=
  let s := s.onMod fun m =>
    let m := { m with
      kreset := true, hostHold := true, loading := none
      kresets := if m.kresets = 0xFF then 0xFF else m.kresets + 1 }
    (m.onCmds Cmd.hold).boot slot
  let s := s.onPowered fun x p =>
    Polder.abortTier3 x Status.resetAbort p.mem.tier3.length { p with hostHold := true }
  s.holdPolders

/-- The keeper die runs, so that it can be reset again. -/
def Module.keeperUp (m : Module) : Bool := m.power = .on && m.keeper ≠ .down

/-- KRESET (R437): it answers also while no image verifies. -/
def execKreset (w : Who) (s : State) : Host.Outcome State Fault Refusal :=
  .next (let s' := s.writeMod (KQ + 0x0C) w id
    if s.modGate .config w true = .open && s.mod.keeperUp then s'.keeperReset s.mod.running else s')

/-- KEEPER_WATCHDOG (R437). -/
def execKeeperWatchdog (s : State) : Host.Outcome State Fault Refusal :=
  .next (if s.mod.power = .on && s.mod.keeper = .ready then s.keeperReset s.mod.running else s)

/-- The polder has completed the work it has accepted (R18, R438). -/
def Polder.workDone (p : Polder) : Bool :=
  p.grid.pipe.isNone && p.grid.issues.isEmpty && p.mem.edits.isEmpty &&
  (p.chans.all fun e => e.2.st = .idle || e.2.st = .late) &&
  p.engines.all fun e => e.2.quiet && (e.2.descs.isEmpty || !(e.2.st = .armed || e.2.st = .running))

/-- HOST_HOLD_POINT (R18, R378, R438). -/
def execHostHoldPoint (p : Pid) (s : State) : Host.Outcome State Fault Refusal :=
  .next (s.event p 5 fun x q =>
    if q.hostHold && !q.stepHold && q.workDone then
      { q with stepHold := true }.notifyAll x 1 (x.ownId q) q.wdn.polderInc
    else q)

/-- KEEPER_READY (R439, R484). -/
def execKeeperReady (s : State) : Host.Outcome State Fault Refusal :=
  .next (if s.mod.power = .on && s.mod.keeper = .booting then
    let back := s.mod.kreset
    let s := s.onMod fun m =>
      let m := { m with keeper := .ready, kreset := false, hostHold := false }.onCmds Cmd.release
      if back then m.raise KQ 2 else m
    s.onPowered fun _ p => { p with hostHold := false, stepHold := false }
  else s)

/-- KEEPER_BOOT_TIMEOUT (R437). -/
def execKeeperBootTimeout (s : State) : Host.Outcome State Fault Refusal :=
  .next (if s.mod.power = .on && s.mod.keeper = .booting && !s.mod.bootOther then
    (s.onMod fun m =>
      match m.testSlot (!m.running) with
      | (m, true) => { m with running := !m.running, fallback := true, bootOther := true }.raise KQ 3
      | (m, false) => { m with keeper := .noImage }).holdPolders
  else s)

/-- HELD_COMMAND_TIMEOUT (R439). -/
def execHeldCommandTimeout (slot : Fin 64) (tag : BitVec 16) (s : State) : Host.Outcome State Fault Refusal :=
  .next (s.onMod fun m =>
    match (m.slot slot).find tag with
    | some c =>
      match c.phase with
      | .held _ => if m.kreset then m.finish slot tag Status.resetAbort true 0 else m
      | .waiting | .ready | .dispatched | .running => m
    | none => m)

end Sys2Proof.Machine
end

