-- ==== Sys2Proof/Machine/CfgGen.lean ====
section
/-! DEFINITION. Configuration generations: staging, the checks of a commit, the swap (R240, R241, R249, R333,
R413, R421, R426, R436, R440 to R445, R454). Readings and choices: log 22, 45, 50. -/

namespace Sys2Proof.Machine

/-- The listed entries of an RWS register of a polder's image, by index. -/
def Image.entries (m : Image) (pid off : Nat) : List (Nat × W32) :=
  m.vals.filterMap fun e => if e.1 / 2 ^ 13 = cfgKey pid off 0 / 2 ^ 13 then some (e.1 % 2 ^ 13, e.2) else none

/-- Bytes of the BITMAP regions of a tier, and in tier 1 of a stack, up to an entry (R241). -/
def bitmapBytes (rs : List Region) (t stack upTo : Nat) : Nat :=
  rs.foldl (fun n r =>
    if r.bitmap && r.tier == t && r.idx ≤ upTo && (t != 1 || r.base / 2 ^ 36 == stack) then n + r.size else n) 0

/-- A region lies inside its tier's decode range, or in enabled windows of tier 3 (R240). -/
def Region.inRange (r : Region) (p : Polder) : Bool :=
  match r.tier with
  | 1 => r.base / 2 ^ 36 == (r.stop - 1) / 2 ^ 36 && p.decodes 1 r.base && p.decodes 1 (r.stop - 1)
  | 2 => p.decodes 2 (r.stop - 1)
  | 3 => r.stop ≤ 2 ^ 36 && (List.range 64).all fun n =>
      !(decide (r.base < (n + 1) * 2 ^ 30) && decide (n * 2 ^ 30 < r.stop)) || (p.window (n * 2 ^ 30)).isSome
  | _ => false

/-- An entry of a staged region table breaks R240 or R241. -/
def Region.bad (r : Region) (p : Polder) (rs : List Region) : Bool :=
  r.odd || 2 < r.kind || !r.inRange p || (r.spill && r.tier == 1) ||
  (r.bitmap && (r.pool || r.tier == 3 ||
    (if r.tier = 1 then 2 ^ 33 else 2 ^ 35) < bitmapBytes rs r.tier (r.base / 2 ^ 36) r.idx)) ||
  rs.any fun q => q.idx < r.idx && q.tier == r.tier && q.base < r.stop && r.base < q.stop

/-- The first failing entry of a staged region table (R240). -/
def Image.badRegion (m : Image) (pid : Nat) (p : Polder) : Option Nat :=
  let rs := m.regions pid
  (rs.find? fun r => r.bad p rs).map (·.idx)

/-- A sum over the quota slots up to one that a staged image binds (R249). -/
def Image.boundSum (m : Image) (pid ctxOff : Nat) (upTo : Nat) (f : Nat → Nat) : Nat :=
  (List.range (upTo + 1)).foldl (fun n s =>
    if (m.get pid ctxOff s).toNat % 65536 = 0xFFFF then n else n + f s) 0

/-- The first quota slot of the Spillway that breaks R249. -/
def Image.badQuota (m : Image) (pid : Nat) : Option Nat :=
  let pool := fun (t : Nat) => ((m.regions pid).filter fun r => r.pool && r.tier == t).foldl (fun n r => n + r.size) 0
  let q := fun (off s t : Nat) => m.get pid (SPW + off) (quotaIdx s t)
  (List.range 16).find? fun s => ([1, 2, 3] : List Nat).any fun t =>
    (q 0x70 s t).toNat < (q 0x6C s t).toNat ||
    pool t / 4096 < m.boundSum pid (SPW + 0x68) s (fun k => (q 0x6C k t).toNat) ||
    (t != 1 && (bitsN (q 0x74 s t) 16 9 < bitsN (q 0x74 s t) 0 9 ||
      240 < m.boundSum pid (SPW + 0x68) s (fun k => bitsN (q 0x74 k t) 0 9)))

/-- The Gauge's registers lie in the ranges their chapter states (R413, R421, R426). -/
def Image.gaugeOk (m : Image) (pid : Nat) : Bool :=
  let ls := m.get pid (GAU + 0x44)
  let rc := m.get pid (GAU + 0x68)
  let dl := m.get pid (GAU + 0x80)
  let th := m.get pid (GAU + 0x84)
  bitsN ls 0 5 ≤ bitsN ls 8 5 && bitsN ls 8 5 ≤ 24 && 1 ≤ bitsN ls 16 16 &&
  17 ≤ bitsN rc 0 8 && 1 ≤ bitsN rc 8 8 && bitsN rc 8 8 ≤ 64 &&
  1 ≤ bitsN dl 16 8 && bitsN dl 16 8 ≤ 100 &&
  bitsN th 8 8 < bitsN th 0 8 && bitsN th 0 8 ≤ 104 &&
  (m.entries pid (GAU + 0x50)).all fun e => bitsN e.2 0 16 == 0xFFFF || bitsN e.2 16 2 ≤ 2

/-- The roles name windows 0 to 59 (R368). -/
def Image.twinOk (m : Image) (pid : Nat) : Bool := (m.entries pid (TWN + 0xA4)).all fun e => bitsN e.2 0 6 < 60

/-- Fabric egress quotas (R333). -/
def Image.flxOk (m : Image) (pid : Nat) : Bool :=
  m.boundSum pid (FLX0 + 0x58) 15 (fun s => bitsN (m.get pid (FLX0 + 0x5C) s) 0 9) ≤ 240

/-- The Inlet's registers and sums (R454, R459). -/
def Image.inletOk (m : Image) (pid : Nat) : Bool :=
  let room := bitsN (m.get pid (INL + 0x5C)) 16 8
  let sum := fun (f : Nat → Nat) => (List.range 16).foldl (fun n k => n + f k) 0
  1 ≤ room && room ≤ 64 &&
  sum (fun k => bitsN (m.get pid (INL + 0xAC) k) 0 9) ≤ 240 &&
  sum (fun k => bitsN (m.get pid (INL + 0x80) k) 8 8) ≤ 512 &&
  (m.entries pid (INL + 0xA8)).all fun e => 16 ≤ bitsN e.2 0 6 && bitsN e.2 0 6 ≤ 36

/-- The command queues' quotas (R429, R436). -/
def Image.kqOk (m : Image) : Bool :=
  (List.range 64).foldl (fun n s =>
    if (m.get 4 (KQ + 0x44) s).toNat % 65536 = 0xFFFF then n else n + bitsN (m.get 4 (KQ + 0x48) s) 0 12) 0 ≤ 2048

/-- A page's name in CFG_CHECK: block type, instance, polder, 15 for a module page (R445). -/
def checkWord (b : Blk) (pol : Nat) : W32 := BitVec.ofNat 32 (b.type * 2 ^ 16 + pol)

/-- SPW_CFG_CHECK (R240, R255). -/
def spwCheck (region quota : Option Nat) : W32 :=
  BitVec.ofNat 32 (region.getD 0xFF + quota.getD 0x1F * 2 ^ 16)

/-- The checks of one polder's pages in their order; a failure of R240 is also named in its Spillway page. -/
def State.checkPolder (s : State) (m : Image) (q : Pid) : State × Option W32 :=
  let k := q.val
  let p := s.pol q
  let r := m.badRegion k p
  let c := m.badQuota k
  if !m.gaugeOk k then (s, some (checkWord .gau k))
  else if !m.twinOk k then (s, some (checkWord .twn k))
  else if !m.flxOk k then (s, some (checkWord .flx0 k))
  else if !m.inletOk k then (s, some (checkWord .inl k))
  else
    let fails := r.isSome || c.isSome
    let s := if !s.live q 4 then s else s.onPol q fun _ p =>
      let p := p.wr (SPW + 0x88) (spwCheck r c)
      if fails then p.raise SPW 4 else p
    (s, if fails then some (checkWord .spw k) else none)

/-- The checks of a commit; the first failing page (R442). -/
def State.checkImage (s : State) (m : Image) : State × Option W32 :=
  let r := (List.finRange 4).foldl (fun (a : State × Option W32) q =>
    match a.2 with
    | some _ => a
    | none => a.1.checkPolder m q) (s, none)
  match r.2 with
  | some _ => r
  | none => (r.1, if m.kqOk then none else some (checkWord .kq 15))

/-- The configuration operations (R441), by their opcode less 0x30. -/
inductive CfgOp where
  | stage | commit | discard | rollback
  deriving DecidableEq, Repr

def CfgOp.num : CfgOp → Nat
  | .stage => 0x30 | .commit => 0x31 | .discard => 0x32 | .rollback => 0x33

/-- An operation ends: CFG_STATUS, and its command where it had one (R445). -/
def Module.endCfg (m : Module) (op : CfgOp) (o : Option (Fin 64 × BitVec 16)) (st : Status) (result : W32) : Module :=
  let m := m.wr (CFGM + 0x54) (BitVec.ofNat 32 (st.toNat + 256 * op.num))
  match o with
  | some (k, tag) => m.finish k tag st false (result.setWidth 64)
  | none => m

/-- Low halves of RWS pairs that wait for their high halves go with the shadows (R516). -/
abbrev rwsHeld : Nat := 2 ^ 50
def Module.dropHeld (m : Module) : Module := { m with effLo := SMap.keep (fun k => decide (k < rwsHeld)) m.effLo }

/-- Seal, check, and make the commit pending (R441, R442). -/
def State.sealCheck (s : State) (op : CfgOp) (o : Option (Fin 64 × BitVec 16)) (img : Image) : State :=
  let s := s.onMod fun m => { m with sealed := true }
  match s.checkImage img with
  | (s, none) => s.onMod fun m => { m with commit := some ⟨decide (op = .rollback), o⟩ }
  | (s, some page) => s.onMod fun m =>
    (({ m with sealed := false }.wr (CFGM + 0x58) page).raise CFGM 1).endCfg op o Status.internal 0

/-- A configuration operation, by register or by command (R441). -/
def State.cfgOp (s : State) (op : CfgOp) (o : Option (Fin 64 × BitVec 16)) : State :=
  let m := s.mod
  let stop := fun (st : Status) => s.onMod fun m => m.endCfg op o st 0
  match op with
  | .stage =>
    if m.staged.isSome then stop Status.refusedBusy
    else if m.cfgNext = 0xFFFFFFFF then stop Status.internal
    else s.onMod fun m =>
      { m.dropHeld with
        staged := some { m.active with gen := m.cfgNext }, sealed := false
        cfgNext := m.cfgNext + 1 }.endCfg op o Status.done m.cfgNext
  | .discard =>
    if m.commit.isSome then stop Status.refusedBusy
    else s.onMod fun m => { m.dropHeld with staged := none, sealed := false }.endCfg op o Status.done 0
  | .commit =>
    if m.commit.isSome then stop Status.refusedBusy
    else match m.staged with
      | none => stop Status.genNotStaged
      | some img => s.sealCheck op o img
  | .rollback =>
    if m.commit.isSome then stop Status.refusedBusy
    else match m.previous with
      | none => stop Status.internal
      | some img => (s.onMod fun m => { m.dropHeld with staged := some img }).sealCheck op o img

/-- CFG_CTRL with a bit set, by register (R441, R445). -/
def State.cfgCtrl (s : State) (w : Who) (op : CfgOp) : State :=
  let s' := s.writeMod (CFGM + 0x50) w id
  if s.mod.power = .on && s.modGate .config w true = .open then s'.cfgOp op none else s'

/-- CFG_CTRL_STAGE (R441). -/
def execCfgCtrlStage (w : Who) (s : State) : Host.Outcome State Fault Refusal := .next (s.cfgCtrl w .stage)

/-- CFG_CTRL_COMMIT (R441, R442). -/
def execCfgCtrlCommit (w : Who) (s : State) : Host.Outcome State Fault Refusal := .next (s.cfgCtrl w .commit)

/-- CFG_CTRL_DISCARD (R441). -/
def execCfgCtrlDiscard (w : Who) (s : State) : Host.Outcome State Fault Refusal := .next (s.cfgCtrl w .discard)

/-- CFG_CTRL_ROLLBACK (R441). -/
def execCfgCtrlRollback (w : Who) (s : State) : Host.Outcome State Fault Refusal := .next (s.cfgCtrl w .rollback)

/-- A polder is drained, or counts so (R353, R443). -/
def State.drained (s : State) (q : Pid) : Bool :=
  let p := s.pol q
  !s.mod.powered q || p.wdn.st ≠ .running ||
  (p.phaseBoundary && p.mem.edits.isEmpty && p.mem.range.isNone &&
    p.chans.all fun e => e.2.st = .idle || e.2.st = .late)

/-- Work held for a commit goes on, in the order it came (R443, R444). -/
def Polder.runHeld (p : Polder) (x : PolCtx) : Polder :=
  let l := p.held
  l.foldl (fun (p : Polder) h =>
    match h with
    | .issue ws o => p.submitIssue x ws o
    | .pipe t o => p.submitPipe x t o
    | .arm ch a o => p.submitArm x ch a o
    | .winOpen o => p.doOpen x o true
    | .mapActivate k o => p.submitActivate x k o
    | .edit ws o => p.submitEdit x ws o
    | .range op => p.startRange x op) { p with held := [] }

/-- Held work goes on at every polder. -/
def State.runHeld (s : State) : State := s.onPowered fun x p => p.runHeld x

/-- The valid bits of a region (R241). -/
def Mem.clearRegion (m : Mem) (r : Region) : Mem :=
  let out := fun g => !(decide (r.base ≤ g * granule) && decide (g * granule < r.stop))
  if r.tier = 1 then { m with valid1 := SMap.keep out m.valid1 } else { m with valid2 := SMap.keep out m.valid2 }

/-- A polder's pages apply a new generation (R241, R334, R443, R508). -/
def Polder.swapTo (p : Polder) (q : Pid) (old new : Image) : Polder :=
  let was := (old.regions q.val).filter (·.bitmap)
  let fresh := (new.regions q.val).filter fun r =>
    r.bitmap && !was.any fun o => o.tier == r.tier && o.base == r.base && o.size == r.size
  let p := p.onMem fun m => fresh.foldl (fun m r => m.clearRegion r) m
  let p := p.onFlx fun f => { f with hb := SMap.keep (fun i =>
    old.get q.val hbList i == new.get q.val hbList i) f.hb }
  p.raise CFGP 0

/-- COMMIT_SWAP (R443): held commands and work go on under the new generation. -/
def execCommitSwap (s : State) : Host.Outcome State Fault Refusal :=
  .next (match s.mod.commit, s.mod.staged with
    | some c, some img =>
      if s.mod.keeper = .ready && (List.finRange 4).all s.drained then
        let op := if c.rollback then CfgOp.rollback else CfgOp.commit
        let s := (List.finRange 4).foldl (fun (s : State) q =>
          if s.mod.powered q && !(s.pol q).unrestored.contains 5 then
            s.onPol q fun _ p => p.swapTo q s.mod.active img else s) s
        let s := s.onMod fun m =>
          let m := { m.dropHeld with
            previous := some m.active, active := img, staged := none, sealed := false, commit := none }
          let m := (m.wr (CFGM + 0x60) 0xFF).raise CFGM 0
          let m := if c.rollback then m.raise CFGM 2 else m
          m.endCfg op c.origin Status.done img.gen
        s.runHeld
      else s
    | _, _ => s)

/-- COMMIT_DRAIN_TIMEOUT (R444). -/
def execCommitDrainTimeout (s : State) : Host.Outcome State Fault Refusal :=
  .next (match s.mod.commit with
    | none => s
    | some c =>
      if (List.finRange 4).all s.drained then s
      else
        let op := if c.rollback then CfgOp.rollback else CfgOp.commit
        let bits := (List.finRange 4).foldl (fun n q => n + 2 ^ q.val * bit01 (s.drained q)) 0
        let s := s.onMod fun m =>
          let m := { m with sealed := false, commit := none }
          ((m.wr (CFGM + 0x60) (BitVec.ofNat 32 bits)).raise CFGM 1).endCfg op c.origin Status.notDrained 0
        s.runHeld)

/-- A location's register as R521 and R8 list it. -/
def regAt (b : Blk) (off : Nat) : Option RegInfo := b.find (off % 0x1000)

/-- The low halves of the RWS pairs, by location (R516). -/
def rwsLow (off : Nat) : Bool := off = INL + 0xA0 || off = TWN + 0xAC

/-- A write of an RWS register reaches its shadow, or is ignored (R8, R441, R516). -/
def Module.storeRws (m : Module) (pid off idx : Nat) (mask v : W32) : Module :=
  match m.staged, m.sealed with
  | some img, false =>
    let v := v &&& mask
    if pid = 4 && off = KQ + 0x44 && idx = 0 then m
    else if rwsLow off && pid ≠ 4 then
      { m with effLo := SMap.insert m.effLo (rwsHeld + cfgKey pid off idx) v }
    else if rwsLow (off - 4) && pid ≠ 4 then
      let lo := (SMap.find? m.effLo (rwsHeld + cfgKey pid (off - 4) idx)).getD (img.get pid (off - 4) idx)
      { m with staged := some ((img.set pid (off - 4) idx lo).set pid off idx v) }
    else { m with staged := some (img.set pid off idx v) }
  | _, _ => m.raise CFGM 3

/-- The entry of a register that its selector chooses (R517). -/
def Polder.entryOf (p : Polder) (base : Nat) (r : RegInfo) (w : Who) : Nat :=
  if r.sel = 0 then 0 else p.sel (base + r.sel) w &&& r.smask
def Module.entryOf (m : Module) (base : Nat) (r : RegInfo) (w : Who) : Nat :=
  if r.sel = 0 then 0 else m.sel (base + r.sel) w &&& r.smask

/-- The Spillway's quota registers, while SPW_Q_SEL names tier 0 (R255). -/
def Polder.deadTier (p : Polder) (g : Page) (o : Nat) (w : Who) : Bool :=
  g.blk == .spw && 0x68 ≤ o && o ≤ 0x84 && p.sel (SPW + 0x64) w / 256 % 4 == 0

/-- A write of an RWS register of a polder's page, met by a gate. -/
def State.putRws (s : State) (q : Pid) (g : Page) (off : Nat) (w : Who) (v : W32) (gate : Gate) : State :=
  match regAt g.blk off with
  | none => s
  | some r =>
    if r.acc ≠ .rws || (s.pol q).deadTier g (off % 0x1000) w then s
    else s.throughPol q gate w off fun s =>
      s.onMod fun m => m.storeRws q.val off ((s.pol q).entryOf g.base r w) (BitVec.ofNat 32 r.mask) v

/-- A write of an RWS register at a location (R8, R441). -/
def State.writeRws (s : State) (a : RegAddr) (w : Who) (v : W32) : State :=
  match a with
  | .polder q off =>
    match polPage off.toNat with
    | none => s
    | some g => s.putRws q g off.toNat w v (s.polGate q g.blk.cls off.toNat w true)
  | .module off =>
    match modPage off.toNat with
    | none => s
    | some g =>
      match regAt g.blk off.toNat with
      | none => s
      | some r =>
        if r.acc ≠ .rws then s
        else s.writeMod off.toNat w fun m =>
          m.storeRws 4 off.toNat (m.entryOf g.base r w) (BitVec.ofNat 32 r.mask) v

/-- RWS_WRITE (R8, R441): nothing at a location that holds no RWS register. -/
def execRwsWrite (a : RegAddr) (w : Who) (v : W32) (s : State) : Host.Outcome State Fault Refusal :=
  .next (s.writeRws a w v)

end Sys2Proof.Machine
end

