-- ==== Sys2Proof/Machine/Power.lean ====
section
/-! DEFINITION. Power input, rails, module reset, PERST#, PLL locks, module pins and the thermal policy (R421,
R422, R476 to R491). Readings and choices: log 3, 4, 6, 48, 49. -/

namespace Sys2Proof.Machine

/-- A polder whose rails are off and whose Warden has nothing to restore (R485): what has left it stays. -/
def Polder.dark (p : Polder) (keepJournal : Bool) : Polder :=
  { Polder.reset with
    mem := { Mem.reset with repaired := p.mem.repaired.filter (·.2.2), replies := p.mem.replies }
    flx := { Flx.reset with sent := p.flx.sent }
    inlet := { Inlet.reset with out := p.inlet.out, pfcOut := p.inlet.pfcOut }
    gauge := { Gauge.reset with seq := if keepJournal then p.gauge.seq else 0 } }

/-- What survives loss of power: boot flash, fuses, the levels of input pins, and what has left. -/
def Module.dark (m : Module) (power : Power) : Module :=
  { Module.reset with
    power := power, images := m.images, fuses := m.fuses, sensed := m.sensed, perst := m.perst
    twinSense := m.twinSense, msix := m.msix, completions := m.completions, hostWrites := m.hostWrites
    replies := m.replies }

def State.onPols (s : State) (f : Polder → Polder) : State :=
  { s with pols := ⟨f s.pols.p0, f s.pols.p1, f s.pols.p2, f s.pols.p3⟩ }

/-- The module loses its supply: every rail is off (R481, R482). -/
def State.lose (s : State) (power : Power) : State :=
  { s.onPols fun p => p.dark false with mod := s.mod.dark power }

/-- The module draws its supply or is charging. -/
def Power.up : Power → Bool
  | .charging | .modReset | .on => true
  | .off | .tripped => false

/-- INPUT_RISE (R481, R484): hot-swap charge begins. -/
def execInputRise (s : State) : Host.Outcome State Fault Refusal :=
  .next (if s.mod.power.up then s else { s with mod := { s.mod with power := .charging } })

/-- HOTSWAP_CHARGE_DONE (R484 steps 1 and 2). -/
def execHotswapChargeDone (s : State) : Host.Outcome State Fault Refusal :=
  .next (if s.mod.power = .charging then { s with ticks := 0, mod := { s.mod with power := .modReset } } else s)

/-- VIN_DIP (R481, R491). -/
def execVinDip (s : State) : Host.Outcome State Fault Refusal :=
  .next (if s.mod.power = .on then s.onMod fun m => m.raise PWR 3 else s)

/-- VIN_LOSS (R481). -/
def execVinLoss (s : State) : Host.Outcome State Fault Refusal :=
  .next (if s.mod.power.up then s.lose .off else s)

/-- INPUT_OVERCURRENT (R481). -/
def execInputOvercurrent (s : State) : Host.Outcome State Fault Refusal :=
  .next (if s.mod.power.up then s.lose .tripped else s)

/-- KEEPER_GROUP_FAULT (R482). -/
def execKeeperGroupFault (s : State) : Host.Outcome State Fault Refusal :=
  .next (if s.mod.power = .modReset || s.mod.power = .on then s.lose .off else s)

/-- MOD_RESET_ASSERT (R485). A fuse blow under way leaves its bit blown or unblown. -/
def execModResetAssert (s : State) : Host.Outcome State Fault Refusal :=
  .next (if s.mod.power = .on then
    let m := s.mod
    let fuses := match m.blow with
      | some (f, b) => if (Config.freeWord s.free).getLsbD 0 then m.fuses.blown f b else m.fuses
      | none => m.fuses
    { s.onPols fun p => p.dark true with
      free := s.free + 1
      mod := { m.dark .modReset with fuses := fuses, cfgNext := m.cfgNext, journals := m.journals } }
  else s)

/-- MOD_RESET_RELEASE (R461, R484 steps 3 and 4): the boot ROM tries slot A first. -/
def execModResetRelease (s : State) : Host.Outcome State Fault Refusal :=
  .next (if s.mod.power = .modReset then
    s.onMod fun m => ({ m with power := .on, sensed := m.fuses }.boot false)
  else s)

/-- The fused clock bin of a polder (R119, R421). -/
def Module.bin (m : Module) (q : Pid) : BitVec 3 := SMap.get (fun _ => 0) m.sensed.bins q.val

/-- The polder group may be switched on in its turn (R484 step 6). -/
def State.mayPower (s : State) (q : Pid) : Bool :=
  let p := s.pol q
  s.mod.power = .on && s.mod.keeper = .ready && !s.mod.powered q && p.wdn.st = .running && p.wdn.recovs.isEmpty

/-- POLDER_POWER_ON_SEQUENCE (R397, R484 step 6): polder groups in turn. -/
def execPolderPowerOnSequence (p : Pid) (s : State) : Host.Outcome State Fault Refusal :=
  .next (if s.mayPower p && (List.finRange 4).all fun q => p ≤ q || !s.mayPower q then
    s.warden p fun x q =>
      { q with gauge := { q.gauge with bin := x.mod.bin x.pid } }.onWdn fun w => { w with
        st := .recovering, recovs := [⟨none, 3, 0, x.ticks⟩] }
  else s)

/-- The polder is FAILED and its rails off (R398, R421, R482, R483). -/
def State.fail (s : State) (q : Pid) : State :=
  s.warden q fun x p => ((p.failed x 0).raise WDN 7).postFault x 6 0 0 0 p.wdn.polderInc

/-- POLDER_OFF (R483). -/
def execPolderOff (p : Pid) (w : Who) (s : State) : Host.Outcome State Fault Refusal :=
  .next (let s' := s.writeMod (PWR + 0x50) w id
    if s.mod.power = .on && s.modGate .platform w true = .open && !s.mod.offBy.getLsbD p.val then
      (s'.onMod fun m => { m with offBy := m.offBy ||| BitVec.ofNat 4 (2 ^ p.val) }).fail p
    else s')

/-- POLDER_ON (R483): recovery from phase B. -/
def execPolderOn (p : Pid) (w : Who) (s : State) : Host.Outcome State Fault Refusal :=
  .next (let s' := s.writeMod (PWR + 0x50) w id
    if s.mod.power = .on && s.modGate .platform w true = .open && s.mod.offBy.getLsbD p.val then
      (s'.onMod fun m => { m with offBy := m.offBy &&& ~~~(BitVec.ofNat 4 (2 ^ p.val)) }).warden p fun x q =>
        { q with gauge := { q.gauge with bin := x.mod.bin x.pid } }.onWdn fun w => { w with
          polderInc := w.polderInc + 1, st := .recovering, recovs := [⟨none, 2, 0, x.ticks⟩] }
    else s')

/-- The polder recovers from an overcurrent, or has failed a recovery once already (R398, R482). -/
def Polder.afterTrip (p : Polder) : Bool :=
  let again := p.wdn.cause == causeWord 0 5 0 0
  (p.wdn.ladders.any fun l => l.dom = .power && (again || 0 < l.fails)) ||
  p.wdn.recovs.any fun r => r.die.isNone && (again || 0 < r.fails)

/-- RAIL_FAULT: an overcurrent on a polder group (R398, R482). -/
def execRailFault (p : Pid) (s : State) : Host.Outcome State Fault Refusal :=
  .next (if s.mod.power = .on && SMap.get (fun _ => Rail.off) s.mod.rails p.val ≠ .off then
    let s := s.onMod fun m =>
      let m := { m with rails := SMap.set (fun _ => Rail.off) m.rails p.val .fault }
      ((m.count (PWR + 0x58) 1 (2 * p.val) 2).raise PWR 0).raise PWR 1
    if (s.pol p).afterTrip then s.fail p else s.warden p fun x q => q.beginReset x .power 0 0 0
  else s)

/-- PLL_LOCK_LOSS (R384, R437, R480). -/
def execPllLockLoss (l : PllId) (s : State) : Host.Outcome State Fault Refusal :=
  match l with
  | .polder p => execInternalLinkLost p .pll s
  | .keeper | .mgmt =>
    .next (if s.mod.keeperUp then (s.onMod fun m => m.count (CLK + 0x44) 1).keeperReset s.mod.running else s)

/-- A tier-3 request outstanding is on an endpoint port: with both up, which one is the part's choice. -/
def onPort (free : Nat) (both : Bool) (port i : Nat) : Bool :=
  !both || (bitsN (Config.freeWord (free + i)) 0 1) == port

/-- Tier-3 requests on a port end, from place `i` on (R486). -/
def Polder.dropPort (x : PolCtx) (both : Bool) (port : Nat) : Nat → Nat → Polder → Polder
  | 0, _, p => p
  | n + 1, i, p =>
    match p.mem.tier3[i]? with
    | none => p
    | some r =>
      if onPort x.free both port (p.mem.tier3.length - i) then
        Polder.dropPort x both port n i (p.t3Done x i r Status.resetAbort [])
      else Polder.dropPort x both port n (i + 1) p

/-- PERST_ASSERT (R486). -/
def execPerstAssert (port : Fin 2) (s : State) : Host.Outcome State Fault Refusal :=
  .next (if s.mod.perst.getLsbD port.val then
    let both := s.mod.perst == 3
    let s := { s with mod := { s.mod with perst := s.mod.perst &&& ~~~(BitVec.ofNat 2 (2 ^ port.val)) } }
    let s := s.onPowered fun x p => Polder.dropPort x both port.val (p.mem.tier3.length + 1) 0 p
    { s with free := s.free + 4096 }
  else s)

/-- PERST_RELEASE (R484, R486). -/
def execPerstRelease (port : Fin 2) (s : State) : Host.Outcome State Fault Refusal :=
  .next { s with mod := { s.mod with perst := s.mod.perst ||| BitVec.ofNat 2 (2 ^ port.val) } }

/-- MOD_PWROK (R484, R487). -/
def State.pwrOk (s : State) : Bool := s.mod.power = .modReset || s.mod.power = .on

/-- MOD_FAULT_N is pulled low (R488, R489). -/
def State.faultPin (s : State) : Bool :=
  s.mod.power = .on && (s.mod.keeper = .noImage || (List.finRange 4).any fun q => (s.pol q).wdn.st = .failed)

/-- MOD_ALERT_N is pulled low (R488, R489). -/
def State.alertPin (s : State) : Bool := s.mod.power = .on && (s.mod.pending PWR || s.mod.pending THM)

/-- The bytes of a sample, by die (R421, R491). -/
def hottestOf (ts : List Nat) : Nat := ts.foldl max 0

/-- The die a thermal record names: the first of the hottest. -/
def hottestDie (ts : List Nat) : Nat := ((List.range 6).find? fun i => (ts.getD i 0) == hottestOf ts).getD 0

/-- The clock bin changes (R408, R421). -/
def Polder.setBin (p : Polder) (x : PolCtx) (b : Nat) (action : Nat) (ts : List Nat) : Polder :=
  let old := p.gauge.bin.toNat
  let p := { p with gauge := { p.gauge with bin := BitVec.ofNat 3 b, since := 0 } }
  (if old = b then p else p.raise GAU 6).post x 6 action (hottestDie ts)
    (BitVec.ofNat 64 (old + b * 2 ^ 8 + hottestOf ts * 2 ^ 16))

/-- The thermal policy, once a millisecond (R421). -/
def Polder.thermal (p : Polder) (x : PolCtx) (ts : List Nat) : Polder :=
  let c := x.cfg p (GAU + 0x84)
  let hot := hottestOf ts
  let g := p.gauge
  let b := g.bin.toNat
  let since := min 10 (g.since + 1)
  let cool := if hot ≤ bitsN c 8 8 then min 100 (g.cool + 1) else 0
  let wasCrit := g.crit
  let p := { p with gauge := { g with
    hottest := BitVec.ofNat 8 hot, since := since, cool := cool, crit := decide (105 ≤ hot) } }
  if !(x.cfg p (GAU + 0x40)).getLsbD 5 then p
  else if 105 ≤ hot && !wasCrit then (p.setBin x 7 3 ts).raise GAU 7
  else if since < 10 then p
  else if bitsN c 0 8 ≤ hot && b < bitsN c 24 3 then p.setBin x (b + 1) 1 ts
  else if cool = 100 && (x.mod.bin x.pid).toNat < b then p.setBin x (b - 1) 2 ts
  else p

/-- THERMAL_SAMPLE (R421, R491). -/
def execThermalSample (p : Pid) (temps : BitVec 48) (s : State) : Host.Outcome State Fault Refusal :=
  .next (if s.mod.power = .on && s.mod.powered p then
    let ts := (List.range 6).map fun i => bitsN temps (8 * i) 8
    let old := fun i => (SMap.get (fun _ => (0 : Byte)) s.mod.temps (6 * p.val + i)).toNat
    let crosses := fun (at_ : Nat) => (List.range 6).any fun i => old i < at_ && at_ ≤ ts.getD i 0
    let high := bitsN (s.cfg p (GAU + 0x84)) 0 8
    let s := s.onMod fun m =>
      let m := (List.range 6).foldl (fun (m : Module) i =>
        let k := 6 * p.val + i
        let t : Byte := bits temps (8 * i) 8
        let peak := SMap.get (fun _ => (0 : Byte)) m.peaks k
        { m with
          temps := SMap.set (fun _ => 0) m.temps k t
          peaks := SMap.set (fun _ => 0) m.peaks k (if peak.toNat < t.toNat then t else peak) }) m
      let m := if crosses high then m.raise THM 0 else m
      if crosses 105 then m.raise THM 1 else m
    s.onPol p fun x q => q.thermal x ts
  else s)

/-- THERMAL_CRIT_TIMEOUT (R421). -/
def execThermalCritTimeout (p : Pid) (s : State) : Host.Outcome State Fault Refusal :=
  .next (if s.mod.power = .on && s.mod.powered p && (s.pol p).gauge.crit && (s.cfg p (GAU + 0x40)).getLsbD 5 then
    (s.fail p).onMod fun m => m.raise THM 2
  else s)

end Sys2Proof.Machine
end

