-- ==== Sys2Proof/Machine/RegRead.lean ====
section
/-! DEFINITION. What a register reads: headers (R505 to R509), registers that follow the state of their block,
captured and cleared reads (R511, R516, R518), and the answers of a direct access (R393, R466, R515). Readings
and choices: log 4, 6, 15, 16, 45, 48, 49, 50. Readings and choices: log 4, 6, 15, 16, 45, 48, 49, 50. -/

namespace Sys2Proof.Machine

/-- The clock domain of a page and the instance within it (R476, R479); `q` is the polder. -/
def Page.clock (g : Page) (q : Nat) : Nat × Nat :=
  match g.blk with
  | .gau | .grd | .twn | .cfgP | .flx0 | .flx1 | .flx2 | .int | .out | .cel => (1, q)
  | .hbc => (2, g.inst)
  | .spw | .spwKv | .pmp | .lpc | .htb => (3, q)
  | .sem | .ucl => (4, g.inst)
  | .flp => (5, g.inst)
  | .lne => if g.inst = 5 then (6, q) else (5, if g.inst = 4 then 7 else g.inst)
  | .inl => (6, q)
  | .wdn => (0xA, q)
  | .cfgM | .kq | .sec | .fus | .pwr | .clk | .thm => (9, 0)

/-- A location of the common header that no block of the page changes (R505 to R508, R512, R479). -/
def Page.header (g : Page) (q : Nat) (gen : W32) (o : Nat) : Option W32 :=
  let b := g.blk
  let c := g.clock q
  if o = 0x00 then some (fld 16 b.type ||| fld 8 g.inst ||| 0xA1)
  else if o = 0x04 then
    some (fld 0 b.nevent ||| fld 6 (bit01 b.staged) ||| fld 7 (bit01 b.fused) ||| fld 8 (bit01 b.selects))
  else if o = 0x08 then some gen
  else if o = 0x1C then some 0
  else if o = 0x30 then
    some (fld 0 c.1 ||| fld 8 c.2 ||| fld 16 (Config.syncCycles (b.type * 256 + g.inst)).toNat)
  else none

/-- A count in a 16-bit field. -/
def sat16 (n : Nat) : Nat := min 0xFFFF n

/-- The Warden's page (R405). -/
def Polder.wdnWord (p : Polder) (x : PolCtx) (o e : Nat) : Option W32 :=
  let v := p.wdn
  match o with
  | 0x10 => some (fld 0 v.st.num)
  | 0x4C => some (match v.ladders.find? fun l => !l.waiting with
    | some l => fld 0 l.dom.num ||| fld 8 l.dom.target ||| fld 16 (sat16 ((x.ticks - l.since) / 100))
    | none => 0)
  | 0x50 => some v.cause
  | 0x60 => some ((List.range 5).foldl (fun w d => w ||| fld (4 * d + 4) (v.incOfDie d).toNat) (fld 0 v.polderInc.toNat))
  | 0x70 => some (match v.recovs with
    | r :: _ => fld 0 r.phase ||| fld 16 (sat16 ((x.ticks - r.since) / 100000))
    | [] => 0)
  | 0x74 => some v.loss
  | 0x84 =>
    let b := v.probe
    some (fld 0 b.st ||| fld 4 b.at_ ||| fld 8 b.suspects.length ||| fld 12 (bit01 b.overflow) ||| fld 16 b.eng)
  | 0x8C => some (match v.probe.suspects[e]? with
    | some u => fld 0 u.ctx.toNat ||| fld 16 u.batch.length
    | none => 0)
  | 0x94 => some (match SMap.find? v.quar e with
    | some u => fld 0 u.ctx.toNat ||| fld 16 (bit01 u.valid)
    | none => 0)
  | _ => none

/-- The Gauge's page (R426). -/
def Polder.gauWord (p : Polder) (x : PolCtx) (o e : Nat) : Option W32 :=
  let v := p.gauge
  match o with
  | 0x10 =>
    some (fld 0 (bit01 (p.chans.any fun c => c.2.held)) ||| fld 1 (bit01 p.scalesBusy) ||| fld 2 (bit01 v.imgWait))
  | 0x48 => some (fld 0 v.k.toNat ||| fld 16 v.clean.toNat)
  | 0x58 => some (fld 0 (v.scale e).t.toNat)
  | 0x74 => some (((v.layer (e % 1024)).hist[e / 65536]?).getD 0)
  | 0x78 =>
    let l := v.layer e
    some (fld 0 l.oob.toNat ||| fld 16 l.hist.length)
  | 0x88 => some (fld 0 v.bin.toNat ||| fld 8 (x.mod.bin x.pid).toNat ||| fld 16 v.hottest.toNat)
  | 0x98 => some v.seq
  | _ => none

/-- GRD_WEIR_STAT of the output that GRD_WEIR_SEL names (R104, R126). -/
def Polder.weirStat (p : Polder) (sel : Nat) : W32 :=
  let c := sel % 256 * 160 + sel / 256 % 256
  let out := sel / 65536 % 8
  let v := p.grid.weir c out (sel / 524288 % 8)
  fld 0 v.port.toNat ||| fld 3 v.circ.toNat ||| fld 6 (p.grid.epoch c).toNat |||
    fld 8 (p.grid.queue c out).length ||| fld 16 (SMap.get (fun _ => (0 : BitVec 16)) p.grid.stale (c * 6 + out)).toNat

/-- The entry that GRD_TBL_SEL names (R125). -/
def Polder.tableEntry (p : Polder) (sel : Nat) : W32 :=
  let cell := sel % 256 * 160 + sel / 256 % 256
  let net := sel / 2 ^ 19 % 2
  let table := sel / 2 ^ 16 % 8
  if 159 < sel / 256 % 256 || !tableExists net cell table then 0
  else (p.grid.slotAt net cell table (sel / 2 ^ 20 % 64)).setWidth 32

/-- The pipeline start waits for its gate (R173). -/
def Polder.waitsGate (p : Polder) : Bool :=
  match p.grid.pipe with
  | some r => decide (r.phase = .gate) && r.origin.isReg
  | none => false

/-- The grid's page (R126, R91, R148, R174). -/
def Polder.grdWord (p : Polder) (o : Nat) (w : Who) : Option W32 :=
  let v := p.grid
  match o with
  | 0x10 => some (fld 0 (bit01 v.hold.frozen))
  | 0x40 => some (BitVec.ofNat 32 p.tide)
  | 0x44 => some (BitVec.ofNat 32 (p.cycle % 64))
  | 0x4C => some (fld 2 (bit01 v.recfg.busy) ||| fld 3 (bit01 v.recfg.opened))
  | 0x58 => some (p.tableEntry (p.sel (GRD + 0x54) w))
  | 0x60 => some (p.weirStat (p.sel (GRD + 0x5C) w))
  | 0x84 => some (fld 1 (bit01 p.issueBusy))
  | 0x110 => some v.rngStep
  | 0x118 => some (keyCheck v.rngKey)
  | 0x128 => some (fld 1 (bit01 p.pipeBusy) ||| fld 2 (bit01 p.waitsGate))
  | _ => none

/-- A seam or in-package UCIe link page (R522, R523): both ends live, or down. -/
def Polder.joinWord (p : Polder) (b : Blk) (i : Nat) (o : Nat) : Option W32 :=
  if o ≠ 0x40 then none
  else if b = .sem then
    let d := i / 2
    some (if p.dieDown d || p.dieDown (d ^^^ (1 + i % 2)) then 1 else fld 0 2 ||| fld 8 12)
  else
    let down := if i < 4 then p.dieDown i || p.dieDown 5 else if i = 4 then p.dieDown 4 || p.dieDown 5 else false
    some (if down then 1 else fld 0 2 ||| fld 8 (if i < 4 then 2 else if i = 4 then 4 else 1))

/-- Four semaphores as a word (R203). -/
def Eng.semWord (v : Eng) (j : Nat) : W32 :=
  wordOf 32 ((List.range 4).map fun k => SMap.get (fun _ => (0 : Byte)) v.sems (4 * j + k))

/-- An engine's page (R203). -/
def Polder.engWord (p : Polder) (e : Nat) (out : Bool) (o : Nat) : Option W32 :=
  let v := p.eng e
  let n := fun q => (v.descs.filter fun d => decide (d.pos = q)).length
  match o with
  | 0x0C => some (fld 0 (bit01 (decide (v.st = .armed) || decide (v.st = .running))))
  | 0x10 => some (fld 0 v.st.num ||| fld 3 (bit01 v.holdReq) ||| fld 4 (bit01 v.outHold))
  | 0x4C => some v.head
  | 0x58 => some (match v.base with
    | some b => BitVec.ofNat 32 (p.tide - b)
    | none => 0)
  | 0x5C => some (fld 0 (n .queued) ||| fld 16 (if out then n .executing else n .fetching))
  | 0x60 => some (BitVec.ofNat 32 v.free)
  | 0x64 => some (v.semWord 0)
  | 0x68 => some (v.semWord 1)
  | 0x6C => some (v.semWord 2)
  | 0x70 => some (v.semWord 3)
  | 0x74 => if out then some (BitVec.ofNat 32 v.txns.length) else none
  | 0x88 => some (fld 0 v.retired.toNat ||| fld 24 (min 255 v.discarded))
  | _ => none

/-- An HBM3E controller's page (R203, R256). -/
def Polder.hbcWord (p : Polder) (stack o : Nat) : Option W32 :=
  match o with
  | 0x4C => some (BitVec.ofNat 32 (p.field % 64))
  | 0x5C => some (BitVec.ofNat 32 (p.mem.ppr.filter fun r => r.1 == stack).length)
  | _ => none

/-- The Spillway's main page (R255). -/
def Polder.spwWord (p : Polder) (x : PolCtx) (o e : Nat) : Option W32 :=
  match o with
  | 0x78 =>
    let ctx := bits (x.cfg p (SPW + 0x68) (e % 16)) 0 16
    some (if e / 256 = 0 || ctx = 0xFFFF then 0 else BitVec.ofNat 32 (p.mem.usedOf (e / 256) ctx / 4096))
  | 0x98 => some (p.rd (SPW + 0x98) ||| fld 1 (bit01 p.rangeBusy))
  | 0xA0 => some (BitVec.ofNat 32 p.mem.frames.length)
  | _ => none

/-- The Spillway's cache page (R227). -/
def Polder.kvWord (p : Polder) (o : Nat) : Option W32 :=
  match o with
  | 0x60 => some (fld 1 (bit01 p.editBusy))
  | 0x78 => some (BitVec.ofNat 32 (p.rdN (SPWKV + 0x74) - p.mem.refs.length))
  | 0x7C => some (BitVec.ofNat 32 (p.mem.images.filter fun i => decide (0 < i.pins)).length)
  | _ => none

/-- A Pump channel's registers (R284). -/
def Chan.word (v : Chan) (o : Nat) : Option W32 :=
  match o with
  | 0x0C => some (fld 0 v.st.num ||| fld 3 (bit01 v.skipped) ||| fld 8 v.code.toNat)
  | 0x10 => some (BitVec.ofNat 32 v.blocks)
  | 0x14 => some (bits v.sumsq 0 32)
  | 0x18 => some (bits v.sumsq 32 32)
  | 0x1C => some v.norm
  | 0x20 => some v.clip
  | 0x24 => some (fld 0 v.k.toNat)
  | 0x28 => some (BitVec.ofNat 32 v.chunks)
  | 0x2C => some v.spread
  | 0x30 => some v.err
  | _ => none

def Polder.pmpWord (p : Polder) (o : Nat) : Option W32 :=
  if 0x40 ≤ o && o < 0x140 then (p.chan ((o - 0x40) / 0x40)).word (o % 0x40) else none

/-- A Fleavik port's page (R307). -/
def Polder.flpWord (p : Polder) (i o : Nat) : Option W32 :=
  let v := p.port i
  match o with
  | 0x10 =>
    some (fld 0 (p.portSt i).num ||| fld 3 v.width ||| fld 5 (bit01 v.reversed) ||| fld 8 v.cause ||| fld 12 v.peerKind)
  | 0x40 => some (bits v.peer 0 32)
  | 0x44 => some (bits v.peer 32 32)
  | 0x48 => some (bits v.peer 64 32)
  | 0x4C => some (bits v.peer 96 32)
  | 0x50 => some (fld 0 v.rxGood.toNat ||| fld 8 v.peerGood.toNat ||| fld 16 v.inverted.toNat ||| fld 24 v.lanes.toNat)
  | _ => none

/-- LNE_STAT of a lane; the SNR is a free value, and the Inlet's lanes follow its link (R307, log 4). -/
def Polder.lneWord (p : Polder) (x : PolCtx) (group o lane : Nat) : Option W32 :=
  if o ≠ 0x44 then none
  else
    let snr := bitsN (Config.freeWord x.free) 0 8
    if group = 5 then
      let up := bit01 p.inlet.up
      some (fld 0 up ||| fld 4 lane ||| fld 7 up ||| fld 8 snr)
    else
      let v := p.port (if group = 4 then 7 else group)
      some (fld 0 (bit01 (v.signal.getLsbD lane)) ||| fld 1 (bit01 (v.txShort.getLsbD lane)) |||
        fld 2 (bit01 (v.rxOpen.getLsbD lane)) ||| fld 3 (bit01 (v.inverted.getLsbD lane)) |||
        fld 4 (SMap.get (fun _ => 0) v.laneOf lane) ||| fld 7 (bit01 (v.trained.getLsbD lane)) ||| fld 8 snr)

/-- The head of the notice queue as four words (R340). -/
def Polder.noticeWord (p : Polder) (k : Nat) : W32 :=
  match p.flx.notices with
  | [] => 0
  | t :: _ =>
    if k = 0 then bits t.opnd 0 32
    else wordOf 32 ((t.data.drop (4 * (k - 1))).take 4)

/-- The fabric engine's first page (R340). -/
def Polder.flx0Word (p : Polder) (x : PolCtx) (o : Nat) : Option W32 :=
  let n := p.flx.notices.length
  match o with
  | 0x10 => some (fld 0 (bit01 (decide (0 < n))) ||| fld 1 (bit01 (x.module? p).isSome))
  | 0x50 => some (BitVec.ofNat 32 p.flx.reqs.length)
  | 0x90 => some (p.noticeWord 0)
  | 0x94 => some (p.noticeWord 1)
  | 0x98 => some (p.noticeWord 2)
  | 0x9C => some (p.noticeWord 3)
  | 0xA0 => some (BitVec.ofNat 32 n)
  | _ => none

/-- STATE of FLX_WIN_STAT. -/
def WinSt.num : WinSt → Nat
  | .closed => 0 | .open_ => 1 | .closing => 2

/-- The fabric engine's second page (R340). -/
def Polder.flx1Word (p : Polder) (o e : Nat) : Option W32 :=
  match o with
  | 0x50 =>
    let h := p.hbStat e
    some (fld 0 h.inc.toNat ||| fld 4 (bit01 h.lost) ||| fld 5 h.peerState.toNat ||| fld 16 h.age.toNat)
  | 0x60 => some (bits (((p.winRange e).map (·.1)).getD (p.win e).base) 0 32)
  | 0x64 => some (bits (((p.winRange e).map (·.1)).getD (p.win e).base) 32 32)
  | 0x70 =>
    some (fld 0 (p.winSt e).num ||| fld 2 (bit01 (decide (60 ≤ e))) ||| fld 16 (sat16 (p.win e).writes.length))
  | _ => none

/-- The shard-map page (R359). -/
def Polder.flx2Word (p : Polder) (o e : Nat) : Option W32 :=
  let v := p.mapSlot e
  let ep := fun (m : Option ShardMap) => (m.map (·.epoch.toNat)).getD 0
  let pend := fun (m : Option ShardMap) => match m with
    | some m => sat16 (SMap.get (fun _ => 0) v.pend m.epoch.toNat)
    | none => 0
  match o with
  | 0x4C =>
    let busy := match v.wait with
      | some w => w.isReg
      | none => false
    some (p.rd (FLX2 + 0x4C) (1 + e) ||| fld 4 (bit01 busy))
  | 0x50 =>
    some (fld 0 (ep v.cur) ||| fld 8 (ep v.prev) ||| fld 16 (ep v.stg) ||| fld 24 (bit01 v.cur.isSome) |||
      fld 25 (bit01 v.prev.isSome) ||| fld 26 (bit01 v.stg.isSome) ||| fld 27 (bit01 v.wait.isSome))
  | 0x54 => some (fld 0 (pend v.cur) ||| fld 16 (pend v.prev))
  | 0x58 => some (fld 0 ((v.cur.map (·.entries.length)).getD 0) ||| fld 16 p.mapFree)
  | _ => none

/-- The Twin's page (R381). -/
def Polder.twnWord (p : Polder) (o : Nat) : Option W32 :=
  let v := p.twin
  match o with
  | 0x10 => some (fld 0 (bit01 v.up) ||| fld 1 (bit01 v.stepWait))
  | 0x40 => some (match v.peer with
    | some i => fld 0 i.toNat ||| fld 15 1
    | none => 0)
  | 0x50 => some v.rxSeq
  | 0x54 => some v.txSeq
  | 0x58 => some v.txAck
  | 0x5C => some (bits v.step 0 32)
  | 0x60 => some (bits v.step 32 32)
  | 0x74 => some v.lost
  | 0x94 => some (p.rd (TWN + 0x94) ||| fld 1 (bit01 v.xf.isSome))
  | 0x98 => v.xf.map fun f => BitVec.ofNat 32 f.done
  | 0xBC => some (BitVec.ofNat 32 (v.relays.length + p.flx.wins.foldl (fun n w =>
      n + (w.2.writes.filter fun t => t.relayed).length) 0))
  | _ => none

/-- The Inlet's page (R459). -/
def Polder.inlWord (p : Polder) (x : PolCtx) (o e : Nat) : Option W32 :=
  let mac := SMap.get (fun _ => (0 : BitVec 48)) x.mod.sensed.macs x.pid.val
  let v := p.stream e
  match o with
  | 0x10 => some (fld 0 (bit01 p.inlet.up) ||| fld 8 p.inlet.cause)
  | 0x40 => some (bits mac 0 32)
  | 0x44 => some ((bits mac 32 16).setWidth 32)
  | 0x84 => some v.session
  | 0xB4 => some (bits v.consumed 32 32)
  | 0xB8 => some (bits v.delivered 0 32)
  | 0xBC => some (bits v.delivered 32 32)
  | _ => none

/-- Directory bits of the polder's pending pages (R513). -/
def Polder.pendWord (p : Polder) (n : Nat) : W32 :=
  p.eventPages.foldl (fun w b =>
    match polPage b with
    | some g => if p.pending b && g.dir / 32 == n then w ||| fld (g.dir % 32) 1 else w
    | none => w) 0

/-- The polder's configuration page (R445, R514). -/
def Polder.cfgPWord (p : Polder) (x : PolCtx) (drained : Bool) (o : Nat) : Option W32 :=
  match o with
  | 0x10 =>
    some (fld 0 (bit01 (x.mod.commit.isSome && decide (p.wdn.st = .running))) ||| fld 1 (bit01 drained))
  | 0x40 => some (p.pendWord 0)
  | 0x44 => some (p.pendWord 1)
  | 0x48 => some (p.pendWord 2)
  | 0x4C => some (p.pendWord 3)
  | 0x50 => some (p.pendWord 4 ||| fld 1 (bit01 !p.pendingCells.isEmpty))
  | 0x54 => some (match p.pendingCells with
    | [] => 0
    | k :: r => fld 0 (k / 160) ||| fld 8 (k % 160) ||| fld 16 (sat16 (r.length + 1)))
  | _ => none

/-- What a wire, a lane or the timing of a bank alone decides, and no command: array stalls, increments delayed, beats
held, lanes repaired, retries, corrected symbols, the round trip (R42, R110, R116, R305, R307, R522, R523). Such a
register reads as a free value of its width (log 4); a link inside the package has no FEC (R306). -/
def measured (b : Blk) (inst o : Nat) (word : W64) : Option W32 :=
  match b with
  | .cel => if o = 0x88 then some (bits word 0 32) else none
  | .grd => if o = 0x7C then some (bits word 0 32) else none
  | .sem =>
    if o = 0x44 then some (fld 0 (bitsN word 0 8))
    else if o = 0x48 then some (fld 0 (word.toNat % 9)) else none
  | .ucl =>
    if o = 0x44 then some (fld 0 (bitsN word 0 8))
    else if o = 0x48 || o = 0x4C then some (bits word 0 32) else none
  | .flp =>
    if o = 0x68 then some (fld 0 (bitsN word 0 16))
    else if (o = 0x54 || o = 0x58) && (inst < 4 || inst = 7) then some (bits word 0 32) else none
  | .lne => if o = 0x48 then some (bits word 0 32) else none
  | _ => none

/-- A register of a polder page that follows the state of its block; `e` is the entry its selector chooses. -/
def Polder.liveWord (p : Polder) (x : PolCtx) (drained : Bool) (g : Page) (o e : Nat) (w : Who) : Option W32 :=
  match measured g.blk g.inst o (Config.freeWord x.free) with
  | some v => some v
  | none =>
  match g.blk with
  | .wdn => p.wdnWord x o e
  | .gau => p.gauWord x o e
  | .grd => p.grdWord o w
  | .sem => p.joinWord .sem g.inst o
  | .ucl => p.joinWord .ucl g.inst o
  | .int => p.engWord (16 * (g.inst / 8) + g.inst % 8) false o
  | .out => p.engWord (16 * (g.inst / 8) + 8 + g.inst % 8) true o
  | .hbc => p.hbcWord g.inst o
  | .spw => p.spwWord x o e
  | .spwKv => p.kvWord o
  | .pmp => p.pmpWord o
  | .flp => p.flpWord g.inst o
  | .lne => p.lneWord x g.inst o e
  | .flx0 => p.flx0Word x o
  | .flx1 => p.flx1Word o e
  | .flx2 => p.flx2Word o e
  | .twn => p.twnWord o
  | .inl => p.inlWord x o e
  | .cfgP => p.cfgPWord x drained o
  | .lpc | .htb | .cel | .cfgM | .kq | .sec | .fus | .pwr | .clk | .thm => none

/-- A copy of a selector register (R517). -/
def Polder.selCopy (p : Polder) (g : Page) (o : Nat) (w : Who) : Option W32 :=
  if g.blk.isSel o then some (BitVec.ofNat 32 (p.sel (g.base + o) w)) else none

/-- An RWS register as it reads: its staged value while an image is staged and VIEW is 0, else the value its
page applies (R8, R441, R516). -/
def Module.rwsWord (m : Module) (pid off e : Nat) (applied : W32) : W32 :=
  match m.staged with
  | some img =>
    if (m.rd (CFGM + 0x50)).getLsbD 8 then applied
    else match SMap.find? m.effLo (rwsHeld + cfgKey pid off e) with
      | some lo => lo
      | none => img.get pid off e
  | none => applied

/-- The value a read of a polder register returns. -/
def State.polWord (s : State) (q : Pid) (g : Page) (o : Nat) (w : Who) : W32 :=
  let p := s.pol q
  let x : PolCtx := ⟨q, s.mod, s.free, s.ticks⟩
  let off := g.base + o
  match g.header q.val (x.gen p off) o with
  | some v => v
  | none =>
    match SMap.find? p.captured off with
    | some v => v
    | none =>
      match p.selCopy g o w with
      | some v => v
      | none =>
        if o < 0x40 then
          match p.liveWord x (s.drained q) g o 0 w with
          | some v => v
          | none => if o < 0x30 && o ≠ 0x10 then p.rd off else 0
        else
          match g.blk.find o with
          | none => 0
          | some r =>
            let e := p.entryOf g.base r w
            if p.deadTier g o w then 0 else
            match r.acc with
            | .wo => 0
            | .rws => s.mod.rwsWord q.val off e (x.cfg p off e)
            | _ =>
              match p.liveWord x (s.drained q) g o e w with
              | some v => v
              | none => p.rd off (if r.sel = 0 then 0 else 1 + e)

/-- The low halves whose read captures the high half, for the block changes the pair itself (R516). -/
def capturesHigh (b : Blk) (o : Nat) : Bool :=
  (b == .twn && o == 0x5C) || (b == .inl && o == 0xB8) || (b == .pmp && 0x40 ≤ o && o < 0x140 && o % 0x40 == 0x14)

/-- The high halves of such pairs. -/
def highHalf (b : Blk) (o : Nat) : Bool := 4 ≤ o && capturesHigh b (o - 4)

/-- What a read changes: a read of ERR_CODE or of such a low half captures, the high half's read ends it, and a
read of an RC register clears it (R509, R511, R516, R518). -/
def Polder.readDone (p : Polder) (g : Page) (o : Nat) (w : Who) (high : W32) : Polder :=
  let off := g.base + o
  if o = 0x24 then
    { p with captured := SMap.insert (SMap.insert p.captured (off + 4) (p.rd (off + 4))) (off + 8) (p.rd (off + 8)) }
  else if o = 0x2C then { p with captured := SMap.erase (SMap.erase p.captured (off - 4)) off }
  else if o = 0x20 then p.wr off 0
  else if capturesHigh g.blk o then { p with captured := SMap.insert p.captured (off + 4) high }
  else if highHalf g.blk o then { p with captured := SMap.erase p.captured off }
  else match g.blk.find o with
    | some r =>
      if r.acc = .rc then p.wr off (BitVec.ofNat 32 r.reset) (if r.sel = 0 then 0 else 1 + p.entryOf g.base r w) else p
    | none => p

/-- The die that THM_SEL names, by `6 * polder + die` (R504). -/
def dieKey (sel : Nat) : Nat := 6 * (sel % 4) + sel / 4

/-- Commands of a slot that are outstanding, and of all slots (R436). -/
def Slot.out (v : Slot) : Nat := v.cmds.length + v.unposted.length
def Module.outstanding (m : Module) : Nat := m.slots.foldl (fun n e => n + e.2.out) 0

/-- A module page's registers that follow the state (R445, R475, R480, R491, R504). -/
def State.modLive (s : State) (g : Page) (o e : Nat) : Option W32 :=
  let m := s.mod
  let f := m.sensed
  let quad := fun (h : Pid → Nat) => (List.finRange 4).foldl (fun (w : W32) q => w ||| BitVec.ofNat 32 (h q)) 0
  let drained := quad fun q => 2 ^ q.val * bit01 (s.drained q)
  match g.blk with
  | .sec => match o with
    | 0x10 => some (fld 0 (bit01 f.debugLock) ||| fld 1 (bit01 m.debugUsed))
    | 0x4C => some (BitVec.ofNat 32 ((m.svn? false).getD 0xFFFFFFFF))
    | 0x50 => some (BitVec.ofNat 32 ((m.svn? true).getD 0xFFFFFFFF))
    | 0x54 => some (BitVec.ofNat 32 f.arbCount)
    | 0x5C => some (if e ≤ 24 then bits f.pubKey (32 * e) 32 else 0)
    | _ => none
  | .fus =>
    if o < 0x40 then none
    else if o < 0x50 then some (bits (f.protMap.setWidth 128) (8 * (o - 0x40)) 32)
    else if o = 0x50 then
      some (fld 0 (bit01 f.debugLock) ||| fld 1 (bit01 f.fieldLock) |||
        fld 2 (bit01 (m.fuses.debugLock && !f.debugLock)) ||| fld 3 (bit01 (m.fuses.protMap != f.protMap)))
    else if o < 0x84 then some (bits f.fwKey (8 * (o - 0x54)) 32)
    else if o = 0x84 then some (bits f.serial 0 32)
    else if o = 0x88 then some (bits f.serial 32 32)
    else if o = 0x8C then some (m.rd (FUS + 0x8C) ||| fld 17 (bit01 m.blow.isSome))
    else none
  | .pwr => match o with
    | 0x40 => some (bits (Config.freeWord s.free) 0 32)
    | 0x44 => some (bits (Config.freeWord s.free) 0 32)
    | 0x48 => some (bits (Config.freeWord s.free) 0 32)
    | 0x4C => some (quad fun q =>
        2 ^ (4 * q.val) * ((SMap.get (fun _ => Rail.off) m.rails q.val).num + 4 * bit01 (m.offBy.getLsbD q.val)))
    | 0x54 => some (fld 0 (bit01 (decide (m.power = .on))) ||| fld 1 (bit01 m.twinSense) ||| fld 2 m.perst.toNat)
    | _ => none
  | .clk => match o with
    | 0x40 => some (quad (fun q => 2 ^ q.val * bit01 (m.powered q)) ||| fld 4 3)
    | 0x48 => some (quad fun q => 2 ^ (3 * q.val) * (s.pol q).gauge.bin.toNat)
    | _ => none
  | .cfgM => match o with
    | 0x10 => some (fld 0 (bit01 m.staged.isSome) ||| fld 1 (bit01 m.previous.isSome))
    | 0x40 => some m.active.gen
    | 0x44 => some ((m.previous.map (·.gen)).getD 0)
    | 0x48 => some ((m.staged.map (·.gen)).getD 0)
    | 0x4C => some m.cfgNext
    | 0x50 => some (m.rd (CFGM + 0x50) ||| fld 4 (bit01 m.commit.isSome) ||| fld 5 (bit01 m.sealed))
    | 0x60 => if m.commit.isSome then some drained else none
    | 0x64 => some (([SEC, FUS, PWR, CLK, CFGM, KQ, THM].zipIdx).foldl (fun w b => w ||| fld b.2 (bit01 (m.pending b.1))) 0)
    | _ => none
  | .kq =>
    let k : Fin 64 := Fin.ofNat 64 e
    match o with
    | 0x10 => some (fld 0 (bit01 m.hostHold))
    | 0x44 => if e = 0 then some 0 else none
    | 0x60 => some ((m.slot k).sqHead.setWidth 32)
    | 0x64 => some (fld 0 (m.slot k).out)
    | 0x74 => some (fld 0 (2048 - m.outstanding) ||| fld 12 (bit01 (decide (2048 ≤ m.outstanding))))
    | 0x78 => some (fld 0 (bit01 m.running) ||| fld 1 (bit01 m.fallback) ||| fld 8 m.kresets.toNat)
    | _ => none
  | .thm => match o with
    | 0x44 => some (fld 0 (SMap.get (fun _ => (0 : Byte)) m.temps (dieKey e)).toNat)
    | 0x48 => some (fld 0 (SMap.get (fun _ => (0 : Byte)) m.peaks (dieKey e)).toNat)
    | _ => none
  | _ => none

/-- A doorbell's slot and whether it is CQ_HEAD (R428, R445). -/
def doorbell? (off : Nat) : Option (Fin 64 × Bool) :=
  if 0x10010000 ≤ off && off < 0x10020000 && (off % 0x400 == 0 || off % 0x400 == 4) then
    some (Fin.ofNat 64 ((off - 0x10010000) / 0x400), off % 0x400 == 4)
  else none

/-- The value a read of a module register returns. -/
def State.modWord (s : State) (g : Page) (o : Nat) (w : Who) : W32 :=
  let m := s.mod
  let off := g.base + o
  match g.header 0 m.active.gen o with
  | some v => v
  | none =>
    match SMap.find? m.captured off with
    | some v => v
    | none =>
      if g.blk.isSel o then BitVec.ofNat 32 (m.sel off w)
      else if o < 0x40 then
        match s.modLive g o 0 with
        | some v => v
        | none => if o < 0x30 && o ≠ 0x10 then m.rd off else 0
      else
        match g.blk.find o with
        | none => 0
        | some r =>
          let e := m.entryOf g.base r w
          match s.modLive g o e with
          | some v => v
          | none => if r.acc = .rws then m.rwsWord 4 off e (m.cfg off e) else m.rd off (if r.sel = 0 then 0 else 1 + e)

/-- What a read of a module register changes (R509, R511, R518). -/
def Module.readDone (m : Module) (g : Page) (o : Nat) (w : Who) : Module :=
  let off := g.base + o
  if o = 0x24 then
    { m with captured := SMap.insert (SMap.insert m.captured (off + 4) (m.rd (off + 4))) (off + 8) (m.rd (off + 8)) }
  else if o = 0x2C then { m with captured := SMap.erase (SMap.erase m.captured (off - 4)) off }
  else if o = 0x20 then m.wr off 0
  else match g.blk.find o with
    | some r =>
      let e := m.entryOf g.base r w
      if r.acc ≠ .rc then m
      else if g.blk = .thm then { m with peaks := SMap.erase m.peaks (dieKey e) }
      else m.wr off (BitVec.ofNat 32 r.reset) (if r.sel = 0 then 0 else 1 + e)
    | none => m

/-- A cell's page, as a page. -/
def celPage : Page := ⟨.cel, 0, 0, 0⟩

/-- STATE of CEL_STATUS (R65): a running or waiting cell of a frozen polder is HELD. -/
def Cell.stNum (c : Cell) (frozen : Bool) : Nat :=
  match c.st with
  | .idle => 0
  | .running => if frozen then 4 else 1
  | .waitSem => if frozen then 4 else 2
  | .waitTide => if frozen then 4 else 3
  | .halted => 5
  | .faulted => 6

/-- Keys of a cell's captured error address (R509). -/
abbrev celCap : Nat := 0x1000

/-- The value a read of a cell's page returns (R65). -/
def State.cellWord (s : State) (id : CellId) (o : Nat) : W32 :=
  let p := s.pol id.p
  let c := p.cell id.key
  let gen : W32 := if p.unrestored.contains id.die then 0 else s.mod.active.gen
  match celPage.header id.p.val gen o with
  | some v => v
  | none =>
    if o = 0x0C then fld 0 (bit01 c.run) ||| fld 1 (bit01 c.shadow)
    else if o = 0x10 then fld 0 (c.stNum p.grid.hold.frozen)
    else if o = 0x28 || o = 0x2C then (SMap.find? c.regs (celCap + o)).getD (c.rd o)
    else if o < 0x30 then c.rd o
    else if o = 0x44 then c.pc.setWidth 32
    else if o = 0x48 then BitVec.ofNat 32 (c.tide p.cycle)
    else if o = 0x4C then BitVec.ofNat 32 (p.cycle % 64)
    else if 0x60 ≤ o && o < 0x70 then
      wordOf 32 ((List.range 4).map fun k => SMap.get (fun _ => (0 : Byte)) c.sems (o - 0x60 + k))
    else if 0x70 ≤ o && o < 0x80 then SMap.get (fun _ => 0) c.amax ((o - 0x70) / 4)
    else if o = 0x8C then SMap.get (fun _ => 0) s.mod.sensed.repair (id.p.val * 40960 + id.key)
    else match measured .cel 0 o (Config.freeWord s.free) with
      | some v => v
      | none => if (Blk.find .cel o).isSome then c.rd o else 0

/-- What a read of a cell's page changes (R509, R511, R518). -/
def Cell.readDone (c : Cell) (o : Nat) : Cell :=
  let keep := fun (a : Nat) (c : Cell) => { c with regs := SMap.insert c.regs (celCap + a) (c.rd a) }
  let drop := fun (a : Nat) (c : Cell) => { c with regs := SMap.erase c.regs (celCap + a) }
  if o = 0x24 then keep 0x28 (keep 0x2C c)
  else if o = 0x2C then drop 0x28 (drop 0x2C c)
  else if o = 0x20 || o = 0x80 || o = 0x84 || o = 0x88 then c.wr o 0
  else c

/-- What a register access is answered with. -/
inductive RegAns where
  | value (v : W32)
  /-- no page holds the location, or it is misaligned (R515) -/
  | noPage
  | denied
  | down
  /-- a scratchpad read that failed twice (R53, R66) -/
  | unread
  /-- a write to the program store of a running cell (R66) -/
  | busy
  /-- nothing answers: the module is off or in module reset -/
  | silent
  deriving DecidableEq, Repr

/-- The answer of a gate that is not open (R393, R466). -/
def Gate.ans (g : Gate) : RegAns :=
  match g with
  | .denied => .denied
  | .down => .down
  | .open | .quarantined => .value 0

/-- A read of a polder's page, met by a gate: its answer, and what the read changes. -/
def State.polRead (s : State) (q : Pid) (g : Page) (off : Nat) (w : Who) (gate : Gate) : State × RegAns :=
  let v := s.polWord q g (off % 0x1000) w
  let high := s.polWord q g (off % 0x1000 + 4) w
  let s' := s.throughPol q gate w off fun s => s.onPolFree q fun _ p => p.readDone g (off % 0x1000) w high
  (s', if gate = .open then .value v else gate.ans)

/-- A register read by a requester (R8, R393, R466, R515); the counter behind the free values moves on. -/
def State.regRead (s : State) (a : RegAddr) (w : Who) : State × RegAns :=
  if s.mod.power ≠ .on then (s, .silent) else
  match a with
  | .polder q off =>
    let off := off.toNat
    match polPage off with
    | none => (s, .noPage)
    | some g =>
      if off % 4 ≠ 0 then (s, .noPage) else
      s.polRead q g off w (s.polGate q g.blk.cls off w false)
  | .module off =>
    let off := off.toNat
    match modPage off with
    | none => (s, if (doorbell? off).isSome then (if s.mod.serverShut w.req then .down else .value 0) else .noPage)
    | some g =>
      if off % 4 ≠ 0 then (s, .noPage) else
      let gate := s.modGate g.blk.cls w false
      let v := s.modWord g (off % 0x1000) w
      let s := s.onMod fun m => m.noteDebug w.req
      match gate with
      | .open => ({ s.onMod fun m => m.readDone g (off % 0x1000) w with free := s.free + 1 }, .value v)
      | .denied => (s.onMod fun m => m.deny w.req off, .denied)
      | .down | .quarantined => (s, .down)

/-- The address a BAR2 location has in its polder's grid window (R65, R230). -/
def cellAt (c : CellId) (o : Nat) : Nat := o + 2 ^ 17 * c.key

/-- A read of a cell's window, 4 bytes at a local offset (R65, R66, R527). -/
def State.cellRead (s : State) (c : CellId) (o : Nat) (w : Who) : State × RegAns :=
  if s.mod.power ≠ .on then (s, .silent)
  else if o % 4 ≠ 0 || (0x16000 ≤ o && o < 0x1F000) then (s, .noPage)
  else
    let gate := s.cellGate c w false
    let cell := (s.pol c.p).cell c.key
    let put := fun (v : Cell) => s.throughPol c.p gate w (cellAt c o) fun s => s.onPolFree c.p fun _ p => p.setCell c.key v
    let ans := fun (a : RegAns) => if gate = .open then a else gate.ans
    if 0x1F000 ≤ o then (put (cell.readDone (o - 0x1F000)), ans (.value (s.cellWord c (o - 0x1F000))))
    else if 0x14000 ≤ o then
      let word := SMap.get (fun _ => (0 : W64)) cell.prog ((o - 0x14000) / 8)
      (put cell, ans (.value (bits word (32 * (o / 4 % 2)) 32)))
    else
      let r := cell.svcRead (o / 8 * 8) 1
      let v := bits ((r.2.2.head?).getD 0) (32 * (o / 4 % 2)) 32
      (put r.1, ans (if r.2.1 = Status.done then .value v else .unread))

end Sys2Proof.Machine
end

