-- ==== Sys2Proof/Machine/RegWrite.lean ====
section
/-! DEFINITION. What a register write does: stores, pairs and selectors (R8, R10, R516, R517), event bits
(R507, R510 to R512), and the actions of the control registers, each the meaning of its own row. Readings and
choices: log 15, 43. Readings and choices: log 15, 43. -/

namespace Sys2Proof.Machine

/-- The state a row of the register path leaves. -/
def afterRow (s : State) (r : Host.Outcome State Fault Refusal) : State :=
  match r with
  | .next t => t
  | _ => s

/-- Rows in turn, where a bit of the value is set. -/
def State.bitRows (s : State) (v : W32) (l : List (Nat × (State → Host.Outcome State Fault Refusal))) : State :=
  l.foldl (fun s a => if v.getLsbD a.1 then afterRow s (a.2 s) else s) s

/-- The low halves of the pairs that are not staged (R516). -/
def pairLow (b : Blk) (o : Nat) : Bool :=
  match b with
  | .wdn => o == 0x78
  | .gau => o == 0x8C
  | .grd => o == 0x120
  | .int | .out => o == 0x40
  | .pmp => o == 0x40 || o == 0x80 || o == 0xC0 || o == 0x100
  | .spw => o == 0x8C
  | .spwKv => o == 0x6C
  | .htb => o == 0x44
  | .flx1 => o == 0x60
  | .flx2 => o == 0x44
  | .twn => o == 0x44 || o == 0x80 || o == 0x88
  | .kq => o == 0x4C || o == 0x54
  | _ => false

/-- The events a page implements, as a mask (R507). -/
def Blk.events (b : Blk) : W32 := BitVec.ofNat 32 (2 ^ b.nevent - 1)

/-- Bits set in a word, from bit 0. -/
def setBits (v : W32) : List Nat := (List.range 32).filter fun i => v.getLsbD i

/-- A write of a header location other than CTRL (R505 to R512): EVENT clears, EVENT_EN stores, EVENT_FORCE
sets and counts each bit without its action. -/
def Polder.writeHeader (p : Polder) (g : Page) (o : Nat) (v : W32) : Polder :=
  let v := v &&& g.blk.events
  if o = 0x14 then p.wr (g.base + 0x14) (p.rd (g.base + 0x14) &&& ~~~v)
  else if o = 0x18 then p.wr (g.base + 0x18) v
  else if o = 0x1C then (setBits v).foldl (fun (p : Polder) i => p.raise g.base i) p
  else p

def Module.writeHeader (m : Module) (g : Page) (o : Nat) (v : W32) : Module :=
  let v := v &&& g.blk.events
  if o = 0x14 then m.wr (g.base + 0x14) (m.rd (g.base + 0x14) &&& ~~~v)
  else if o = 0x18 then m.wr (g.base + 0x18) v
  else if o = 0x1C then (setBits v).foldl (fun (m : Module) i => m.raise g.base i) m
  else m

def Cell.writeHeader (c : Cell) (o : Nat) (v : W32) : Cell :=
  let v := v &&& Blk.events .cel
  if o = 0x14 then c.wr 0x14 (c.rd 0x14 &&& ~~~v)
  else if o = 0x18 then c.wr 0x18 v
  else if o = 0x1C then (setBits v).foldl (fun (c : Cell) i => c.raise i) c
  else c

/-- A plain register is stored, its reserved bits left zero; the high half of a pair brings the held low half
into effect (R8, R10, R516). -/
def Polder.storeReg (p : Polder) (g : Page) (r : RegInfo) (e : Nat) (v : W32) : Polder :=
  let place := if r.sel = 0 then 0 else 1 + e
  let off := g.base + r.off
  let p := p.wr off (v &&& BitVec.ofNat 32 r.mask) place
  if 4 ≤ r.off && pairLow g.blk (r.off - 4) then
    let k := off - 4
    { p with effLo := SMap.set polDefault p.effLo (k + 2 ^ 26 * place) (p.rd k place) }
  else p

def Module.storeReg (m : Module) (g : Page) (r : RegInfo) (e : Nat) (v : W32) : Module :=
  let place := if r.sel = 0 then 0 else 1 + e
  let off := g.base + r.off
  let m := m.wr off (v &&& BitVec.ofNat 32 r.mask) place
  if 4 ≤ r.off && pairLow g.blk (r.off - 4) then
    let k := off - 4
    { m with effLo := SMap.set modDefault m.effLo (k + 2 ^ 32 * place) (m.rd k place) }
  else m

/-- The engine of an Intake or Outfall page. -/
def Page.engId (g : Page) (q : Pid) : EngId :=
  ⟨q, Fin.ofNat 4 (g.inst / 8), g.blk == .out, Fin.ofNat 8 (g.inst % 8)⟩

/-- A write of a polder page's CTRL. -/
def State.writeCtrl (s : State) (q : Pid) (g : Page) (w : Who) (v : W32) : State :=
  let stored := s.onPol q fun _ p => p.wr (g.base + 0x0C) (v &&& BitVec.ofNat 32 g.blk.ctrlMask)
  match g.blk with
  | .wdn => s.bitRows v [(0, execWardenResume q w)]
  | .gau => s.bitRows v [(0, execGaugeRelease q w), (1, execImgSave q w), (2, execImgLoad q w)]
  | .grd => afterRow s (execDebugHoldWrite q w (v.getLsbD 0) s)
  | .int | .out => s.bitRows v [(0, execEngineArm (g.engId q) w), (1, execEngineStop (g.engId q) w)]
  | .flp => afterRow s (execPortEnableWrite q (Fin.ofNat 8 g.inst) w v s)
  | .flx0 => stored.bitRows v [(0, execNoticePop q w), (1, execNoticeSend q w)]
  | .twn => stored.bitRows v [(1, execStepEnd q w), (2, execTwnPost q w)]
  | .inl => s.onPol q fun _ p => p.inletCtrl v
  | _ => stored

/-- A write of WDN_RESET_REQ (R391, R405). -/
def State.writeResetReq (s : State) (q : Pid) (w : Who) (v : W32) : State :=
  let s := s.onPol q fun _ p => p.wr (WDN + 0x44) (v &&& 0xFF07)
  let target : Byte := bits v 8 8
  if !v.getLsbD 16 then s
  else match bitsN v 0 3 with
    | 1 => afterRow s (execResetReqPlot q w s)
    | 2 => afterRow s (execResetReqEngine q w target s)
    | 3 => afterRow s (execResetReqDie q w target s)
    | 4 => afterRow s (execResetReqPolder q w s)
    | 5 => afterRow s (execResetReqPowerCycle q w s)
    | _ => s

/-- A write of SPW_RANGE_CTRL (R255). -/
def Polder.writeRange (p : Polder) (x : PolCtx) (v : W32) : Polder :=
  let p := p.wr (SPW + 0x98) (v &&& 0xC)
  if v.getLsbD 0 then p.rangeGo x (bitsN v 2 2) else p

/-- The record in SPW_KV_REC0 to 7 (R218, R227). -/
def Polder.editRecWords (p : Polder) : List W32 := (List.range 8).map fun k => p.rd (SPWKV + 0x40 + 4 * k)

/-- A write of TWN_XF_CTRL (R372, R381): a GO with a reserved OP does nothing. -/
def State.writeXfer (s : State) (q : Pid) (w : Who) (v : W32) : State :=
  let s := s.onPol q fun _ p => p.wr (TWN + 0x94) ((p.rd (TWN + 0x94) &&& 0xFF0000) ||| (v &&& 0xFF0C))
  if !v.getLsbD 0 then s
  else match bitsN v 2 2 with
    | 0 => afterRow s (execXfCopy q w s)
    | 1 => afterRow s (execXfZero q w s)
    | _ => s

/-- A write of TWN_STEP or TWN_STEP_HI (R516): the low half is held until the high half is written. -/
def Polder.writeStep (p : Polder) (hi : Bool) (v : W32) : Polder :=
  let k := TWN + 0x5C
  if hi then
    let lo := (SMap.find? p.captured k).getD (bits p.twin.step 0 32)
    { p with captured := SMap.erase p.captured k, twin := { p.twin with step := v ++ lo } }
  else { p with captured := SMap.insert p.captured k v }

/-- A write of GAU_SCL_T: held to the step boundary (R414, R426). -/
def Polder.writeScaleT (p : Polder) (i : Nat) (v : W32) : Polder :=
  p.onGauge fun g => g.setScale i { g.scale i with newT := some (bits v 0 8) }

/-- A register of a polder page that does more than store its value; none where it only stores. -/
def State.writeAct (s : State) (q : Pid) (g : Page) (o e : Nat) (w : Who) (v : W32) : Option State :=
  let onP := fun (f : PolCtx → Polder → Polder) => some (s.onPol q f)
  match g.blk with
  | .wdn =>
    if o = 0x44 then some (s.writeResetReq q w v)
    else if o = 0x94 then some (s.bitRows v [(17, execQuarantineRelease q w)])
    else none
  | .gau =>
    if o = 0x48 then onP fun _ p => p.onGauge fun g => { g with k := bits v 0 5, clean := bits v 16 16 }
    else if o = 0x58 then onP fun _ p => p.writeScaleT e v
    else none
  | .grd =>
    if o = 0x4C then some (s.bitRows v [(0, execRecfgGo q w), (1, execRecfgRelease q w)])
    else if o = 0x58 then some (afterRow s (execSlotTableWrite q w v s))
    else if o = 0x84 then some (s.bitRows v [(0, execIssueGo q w)])
    else if 0x100 ≤ o && o ≤ 0x110 then some (afterRow s (execRngRegisterWrite q w (Fin.ofNat 5 ((o - 0x100) / 4)) v s))
    else if o = 0x128 then some (s.bitRows v [(0, execPipeGo q w)])
    else if 0x148 ≤ o && o ≤ 0x164 then
      some (afterRow s (execHandoffRegisterWrite q w (Fin.ofNat 4 ((o - 0x148) / 8)) (o % 8 == 4) v s))
    else none
  | .int | .out =>
    let id := g.engId q
    if o = 0x48 then
      if 3 ≤ bitsN v 0 5 && bitsN v 0 5 ≤ 16 then none else some s
    else if o = 0x50 then some (afterRow s (execRingTailWrite id w v s))
    else if o = 0x54 then onP fun _ p => (p.wr (g.base + 0x54) v).setEng id.key ((p.eng id.key).touchedBy w.ctx)
    else none
  | .hbc =>
    if o = 0x44 then
      some (afterRow s (execAccessTableWrite q (Fin.ofNat 4 (g.inst / 2)) (Fin.ofNat 2 (g.inst % 2)) w v s))
    else none
  | .spw => if o = 0x98 then onP fun x p => p.writeRange x v else none
  | .spwKv =>
    if o = 0x60 then
      onP fun x p => if v.getLsbD 0 && !p.editBusy then p.submitEdit x p.editRecWords (.reg w.ctx) else p
    else if o = 0x94 then
      if bitsN v 0 2 < 2 then some s else none
    else none
  | .pmp =>
    if 0x40 ≤ o && o < 0x140 && o % 0x40 = 8 then
      let ch : Fin 4 := Fin.ofNat 4 ((o - 0x40) / 0x40)
      some (s.bitRows v [(0, execPumpArm q ch w), (1, execPumpClose q ch w)])
    else if o = 0x140 then
      if (s.cfg q (GAU + 0x40)).getLsbD 3 then some s else none
    else none
  | .flx1 =>
    if o = 0x6C then some (s.bitRows v [(0, execWindowOpen q .regPath), (1, execWindowClose q .regPath)]) else none
  | .flx2 =>
    if o = 0x4C then
      some (s.bitRows v [(0, execFlxMapStage q w), (1, execFlxMapActivate q w), (2, execFlxMapRetire q w),
        (3, execFlxMapDrop q w)])
    else none
  | .twn =>
    if o = 0x5C then onP fun _ p => p.writeStep false v
    else if o = 0x60 then onP fun _ p => p.writeStep true v
    else if o = 0x94 then some (s.writeXfer q w v)
    else none
  | .inl =>
    if o = 0x84 then some (s.sessionWrite q w v)
    else if o = 0xB4 then onP fun x p => p.writeConsumed x e (v ++ p.rd (INL + 0xB0) (1 + e))
    else none
  | _ => none

/-- A write that reaches its polder page, at an offset in it (R8, R10, R517). -/
def State.putReg (s : State) (q : Pid) (g : Page) (o : Nat) (w : Who) (v : W32) : State :=
  if o = 0x0C then s.writeCtrl q g w v
  else if o < 0x40 then s.onPol q fun _ p => p.writeHeader g o v
  else match g.blk.find o with
    | none => s
    | some r =>
      let p := s.pol q
      if r.acc = .ro || r.acc = .rc || p.deadTier g o w then s
      else if g.blk.isSel o then
        s.onPol q fun _ p => p.wr (g.base + o) (v &&& BitVec.ofNat 32 r.mask) (if w.req = .keeperFw then fwPlace else 0)
      else
        let e := p.entryOf g.base r w
        match s.writeAct q g o e w v with
        | some t => t
        | none =>
          s.onPol q fun _ p =>
            let p := p.storeReg g r e v
            -- a rewritten ring starts at its base (R364)
            if g.blk = .twn && 0x44 ≤ o && o ≤ 0x4C then p.onTwin fun t => { t with ringIdx := 0 } else p

/-- A command queue's ring and size registers, while the slot is enabled, keep their value; a size outside the
range of R431 is ignored. -/
def Module.queueFixed (m : Module) (o e : Nat) (v : W32) : Bool :=
  let z := m.kq 0x5C (Fin.ofNat 64 e)
  0x4C ≤ o && o ≤ 0x5C && (z.getLsbD 16 ||
    (o == 0x5C && !(4 ≤ bitsN v 0 4 && bitsN v 0 4 ≤ 12 && 4 ≤ bitsN v 8 4 && bitsN v 8 4 ≤ 12)))

/-- A write that reaches its module page. -/
def State.putModReg (s : State) (g : Page) (o : Nat) (w : Who) (v : W32) : State :=
  if o = 0x0C then
    match g.blk with
    | .kq => s.bitRows v [(0, execKreset w)]
    | .sec => s.bitRows v [(0, execArbAdvance w)]
    | _ => s
  else if o < 0x40 then s.onMod fun m => m.writeHeader g o v
  else match g.blk.find o with
    | none => s
    | some r =>
      if r.acc = .ro || r.acc = .rc then s
      else if g.blk.isSel o then
        s.onMod fun m =>
          m.wr (g.base + o) (v &&& BitVec.ofNat 32 r.mask) (if w.req = .keeperFw then fwPlace else 0)
      else
        let e := s.mod.entryOf g.base r w
        match g.blk, o with
        | .fus, 0x8C =>
          if v.getLsbD 16 then s.onMod fun m => m.blowFuse w.req (bitsN v 8 2) (bitsN v 0 7)
          else if w.req ≠ .keeperFw || s.mod.fuses.fieldLock then s
          else s.onMod fun m => m.wr (FUS + 0x8C) ((m.rd (FUS + 0x8C) &&& ~~~0x37F#32) ||| (v &&& 0x37F))
        | .pwr, 0x50 =>
          s.bitRows v [(0, execPolderOff 0 w), (1, execPolderOff 1 w), (2, execPolderOff 2 w), (3, execPolderOff 3 w),
            (4, execPolderOn 0 w), (5, execPolderOn 1 w), (6, execPolderOn 2 w), (7, execPolderOn 3 w)]
        | .cfgM, 0x50 =>
          (s.onMod fun m => m.wr (CFGM + 0x50) (v &&& 0x100)).bitRows v
            [(0, execCfgCtrlStage w), (1, execCfgCtrlCommit w), (2, execCfgCtrlDiscard w), (3, execCfgCtrlRollback w)]
        | .kq, _ => if s.mod.queueFixed o e v then s else s.onMod fun m => m.storeReg g r e v
        | _, _ => s.onMod fun m => m.storeReg g r e v

/-- A doorbell (R431, R445): the submission tail, or the completion head, after which completions that a full
ring kept back are posted. -/
def Module.doorbell (m : Module) (k : Fin 64) (cq : Bool) (v : W32) : Module :=
  let s := m.slot k
  if cq then
    let m := m.setSlot k { s with cqHead := bits v 0 12 }
    Module.postAll s.unposted.length m k
  else m.setSlot k { s with sqTail := bits v 0 12 }

/-- A write of a polder's page, met by a gate. -/
def State.polWrite (s : State) (q : Pid) (g : Page) (off : Nat) (w : Who) (v : W32) (gate : Gate) : State × RegAns :=
  let rws : Bool := match regAt g.blk off with
    | some r => decide (r.acc = .rws)
    | none => false
  -- the keeper die answers a request for a power cycle of a failed polder (R398)
  let cycle := off = WDN + 0x44 && bitsN v 0 3 = 5 && v.getLsbD 16
  let s' :=
    if rws then s.putRws q g off w v gate
    else if cycle && gate = .down then afterRow s (execResetReqPowerCycle q w s)
    else s.throughPol q gate w off fun s => s.putReg q g (off % 0x1000) w v
  (s', gate.ans)

/-- A register write by a requester (R8, R393, R404, R439, R466, R515). -/
def State.regWrite (s : State) (a : RegAddr) (w : Who) (v : W32) : State × RegAns :=
  if s.mod.power ≠ .on then (s, .silent) else
  match a with
  | .polder q off =>
    let off := off.toNat
    match polPage off with
    | none => (s, .noPage)
    | some g =>
      if off % 4 ≠ 0 then (s, .noPage) else
      s.polWrite q g off w v (s.polGate q g.blk.cls off w true)
  | .module off =>
    let off := off.toNat
    match modPage off with
    | none =>
      match doorbell? off with
      | some (k, cq) => (s.onMod fun m => m.doorbell k cq v, .value 0)
      | none => (s, .noPage)
    | some g =>
      if off % 4 ≠ 0 then (s, .noPage) else
      let gate := s.modGate g.blk.cls w true
      let rws : Bool := match regAt g.blk off with
        | some r => decide (r.acc = .rws)
        | none => false
      if rws then (s.writeRws a w v, gate.ans)
      else
        let s := s.onMod fun m => m.noteDebug w.req
        match gate with
        | .open => (s.putModReg g (off % 0x1000) w v, .value 0)
        | .denied => (s.onMod fun m => m.deny w.req off, .denied)
        | .down | .quarantined => (s, .down)

/-- A write of a cell's page (R65, R66): while RUN is 1, CTRL takes STOP only. -/
def State.putCellReg (s : State) (c : CellId) (o : Nat) (w : Who) (v : W32) : State :=
  let cell := (s.pol c.p).cell c.key
  let put := fun (v : Cell) => s.onPol c.p fun _ p => p.setCell c.key v
  if o = 0x0C then
    let s := if cell.run then s else put { cell with shadow := v.getLsbD 1 }
    s.bitRows v [(0, execCelRunWrite c w), (2, execCelStop c w)]
  else if o < 0x40 then put (cell.writeHeader o v)
  else match Blk.find .cel o with
    | some r => if r.acc = .rw then put (cell.wr o (v &&& BitVec.ofNat 32 r.mask)) else s
    | none => s

/-- A write of 4 bytes in a cell's window at a local offset (R65, R66, R527). -/
def State.cellWrite (s : State) (c : CellId) (o : Nat) (w : Who) (v : W32) : State × RegAns :=
  if s.mod.power ≠ .on then (s, .silent)
  else if o % 4 ≠ 0 || (0x16000 ≤ o && o < 0x1F000) then (s, .noPage)
  else
    let gate := s.cellGate c w true
    let cell := (s.pol c.p).cell c.key
    let put := fun (v : Cell) => s.throughPol c.p gate w (cellAt c o) fun s => s.onPol c.p fun _ p => p.setCell c.key v
    if 0x1F000 ≤ o then
      (s.throughPol c.p gate w (cellAt c o) fun s => s.putCellReg c (o - 0x1F000) w v, gate.ans)
    else if 0x14000 ≤ o then
      (put (cell.writeProg ((o - 0x14000) / 8) (o / 4 % 2 == 1) v),
        if gate = .open && cell.run then .busy else gate.ans)
    else
      let r := cell.svcWrite o (bytesOf v 4)
      (put r.1, if gate = .open && r.2 ≠ Status.done then .unread else gate.ans)

end Sys2Proof.Machine
end

