-- ==== Sys2Proof/Machine/RegRows.lean ====
section
/-! DEFINITION. The rows of the register path (R8, R66, R467, R509 to R512, R516, R518). Readings and choices:
log 4, 50. Readings and choices: log 4, 50. -/

namespace Sys2Proof.Machine

/-- What a direct access is answered with (R66, R393, R466, R515). What a debug read that no page answers reads
is a free value (log 4). -/
def RegAns.reply (r : Requester) (free : Nat) : RegAns → Option HostReply
  | .value v => some (.data (bytesOf v 4))
  | .noPage => some (if r = .debug then .data (bytesOf (bits (Config.freeWord free) 0 32) 4) else .abort)
  | .denied => some (if r = .debug then .data [0, 0, 0, 0] else .abort)
  | .down => some (.data [0xFF, 0xFF, 0xFF, 0xFF])
  | .unread => some .poisoned
  | .busy => some .abort
  | .silent => none

/-- A direct read's answer goes back. -/
def State.replied (r : State × RegAns) (w : Who) : State :=
  match r.2.reply w.req r.1.free with
  | some a =>
    { r.1 with
      free := if r.2 = .noPage then r.1.free + 1 else r.1.free
      mod := { r.1.mod with replies := r.1.mod.replies ++ [a] } }
  | none => r.1

/-- A direct read of a location. -/
def State.directRead (s : State) (a : RegAddr) (w : Who) : State := State.replied (s.regRead a w) w

/-- A location of the page that holds another. -/
def inPage (a : RegAddr) (o : Nat) : RegAddr :=
  match a with
  | .polder q off => .polder q (BitVec.ofNat 26 (off.toNat / 0x1000 * 0x1000 + o))
  | .module off => .module (BitVec.ofNat 32 (off.toNat / 0x1000 * 0x1000 + o))

/-- The location four bytes on. -/
def nextReg (a : RegAddr) : RegAddr :=
  match a with
  | .polder q off => .polder q (off + 4)
  | .module off => .module (off + 4)

/-- A write of a header location of a page. -/
def State.headerWrite (s : State) (a : PageAddr) (o : Nat) (w : Who) (v : W32) : State :=
  match a with
  | .page a => (s.regWrite (inPage a o) w v).1
  | .cell c => (s.cellWrite c (0x1F000 + o) w v).1

/-- DEBUG_ACCESS (R467): a read, or a write of `v`. -/
def execDebugAccess (a : RegAddr) (v : Option W32) (s : State) : Host.Outcome State Fault Refusal :=
  let w : Who := ⟨.debug, 0⟩
  .next (match v with
    | none => s.directRead a w
    | some v => (s.regWrite a w v).1)

/-- EVENT_W1C (R510) of the page that holds the location. -/
def execEventW1c (a : PageAddr) (w : Who) (v : W32) (s : State) : Host.Outcome State Fault Refusal :=
  .next (s.headerWrite a 0x14 w v)

/-- EVENT_FORCE (R512) of the page that holds the location. -/
def execEventForce (a : PageAddr) (w : Who) (v : W32) (s : State) : Host.Outcome State Fault Refusal :=
  .next (s.headerWrite a 0x1C w v)

/-- RC_REGISTER_READ (R518): a direct read of the location; of a cell's page, EVENT_COUNT. -/
def execRcRegisterRead (a : PageAddr) (w : Who) (s : State) : Host.Outcome State Fault Refusal :=
  .next (match a with
    | .page a => s.directRead a w
    | .cell c => State.replied (s.cellRead c 0x1F020 w) w)

/-- ERR_CODE_READ (R509) of the page that holds the location. -/
def execErrCodeRead (a : PageAddr) (w : Who) (s : State) : Host.Outcome State Fault Refusal :=
  .next (match a with
    | .page a => s.directRead (inPage a 0x24) w
    | .cell c => State.replied (s.cellRead c 0x1F024 w) w)

/-- LO_HI_PAIR_WRITE (R516): the low register of a pair, then the high one. -/
def execLoHiPairWrite (a : RegAddr) (w : Who) (lo : W32) (hi : W32) (s : State) :
    Host.Outcome State Fault Refusal :=
  .next (((s.regWrite a w lo).1.regWrite (nextReg a) w hi).1)

/-- REGISTER_WRITE (R8); of a cell's page, EVENT_EN. -/
def execRegisterWrite (a : PageAddr) (w : Who) (v : W32) (s : State) : Host.Outcome State Fault Refusal :=
  .next (match a with
    | .page a => (s.regWrite a w v).1
    | .cell c => (s.cellWrite c 0x1F018 w v).1)

/-- BAR2_ACCESS (R66, R527): four bytes of a cell's window, by the keeper die or the debug port. -/
def execBar2Access (c : CellId) (w : Who) (addr : BitVec 17) (v : Option W32) (s : State) :
    Host.Outcome State Fault Refusal :=
  .next (if w.req = .fabric || w.req = .twin || w.req = .inlet then s
  else match v with
    | none => State.replied (s.cellRead c addr.toNat w) w
    | some v => (s.cellWrite c addr.toNat w v).1)

end Sys2Proof.Machine
end

