-- ==== Sys2Proof/Machine/Commands.lean ====
section
/-! DEFINITION. The command queues: doorbells, fetching and admission, dispatch, and each command's own effect
(R402, R404, R429 to R436, R441, R470, R473, R474). Readings and choices: log 4, 21, 43, 44, 45. -/

namespace Sys2Proof.Machine

/-- SQ_TAIL_DOORBELL (R431, R439, R445). -/
def execSqTailDoorbell (slot : Fin 64) (v : W32) (s : State) : Host.Outcome State Fault Refusal :=
  .next (if s.mod.power = .on then s.onMod fun m => m.doorbell slot false v else s)

/-- CQ_HEAD_DOORBELL (R431, R439, R445). -/
def execCqHeadDoorbell (slot : Fin 64) (v : W32) (s : State) : Host.Outcome State Fault Refusal :=
  .next (if s.mod.power = .on then s.onMod fun m => m.doorbell slot true v else s)

/-- The context a slot is bound to; slot 0 is always bound to context 0 (R429). -/
def Module.slotCtx (m : Module) (k : Fin 64) : BitVec 16 :=
  if k = 0 then 0 else bits (m.cfg (KQ + 0x44) k.val) 0 16

/-- Entries of a slot's submission ring (R431). -/
def Module.sqSize (m : Module) (k : Fin 64) : Nat := 2 ^ bitsN (m.kq 0x5C k) 0 4

/-- Fields of a submission entry (R432). -/
def entryByte (e : BitVec 1024) (i : Nat) : Nat := bitsN e (8 * i) 8
def entryTag (e : BitVec 1024) : BitVec 16 := bits e 16 16
def entryFence (e : BitVec 1024) : Bool := e.getLsbD 8
/-- The target: a polder, or none for the module. -/
def entryTarget (e : BitVec 1024) : Option Pid := if e.getLsbD 39 then none else some (Fin.ofNat 4 (bitsN e 32 2))
def entryGen (e : BitVec 1024) : W32 := bits e 64 32
/-- Payload bytes [at, at + len) as a number. -/
def payload (e : BitVec 1024) (at_ len : Nat) : Nat := bitsN e (512 + 8 * at_) (8 * len)
def payloadAddr (e : BitVec 1024) (at_ : Nat) : W64 := bits e (512 + 8 * at_) 64
def payloadWords (e : BitVec 1024) (n : Nat) : List W32 := (List.range n).map fun k => bits e (512 + 32 * k) 32

/-- A refused command completes without having been outstanding (R436). -/
def Module.refuseCmd (m : Module) (k : Fin 64) (tag : BitVec 16) (st : Status) (head : BitVec 12) : Module :=
  let s := m.slot k
  let m := m.setSlot k { s with unposted := s.unposted ++ [(⟨k, tag, st, false, 0⟩, head)] }
  Module.postAll (s.unposted.length + 1) m k

/-- An entry is fetched and admitted (R431, R436). -/
def Module.fetch (m : Module) (k : Fin 64) (entry : BitVec 1024) : Module :=
  let s := m.slot k
  let n := m.sqSize k
  if m.cqFull k then
    if s.stalled then m else (m.setSlot k { s with stalled := true }).raise KQ 4
  else
    let head : BitVec 12 := BitVec.ofNat 12 ((s.sqHead.toNat + 1) % n)
    let tag := entryTag entry
    let u := s.out + 1
    let q := m.cfg (KQ + 0x48) k.val
    let pool := m.outstanding
    let m := m.setSlot k { s with sqHead := head, stalled := false }
    let count := fun (m : Module) (off : Nat) (ev : Nat) => (m.count (KQ + off) 1 (place := 1 + k.val)).raise KQ ev
    if bitsN q 16 12 < u then (count m 0x6C 0).refuseCmd k tag Status.refusedQuota head
    else if 2048 ≤ pool then (count m 0x70 1).refuseCmd k tag Status.refusedBusy head
    else
      let within := u ≤ bitsN q 0 12
      let c : Cmd := ⟨tag, entry, m.slotCtx k, if within then .ready else .waiting, !within, head⟩
      let s := m.slot k
      m.setSlot k { s with cmds := s.cmds ++ [c] }

/-- COMMAND_FETCH (R431, R436, R439, R469): an enabled slot with entries, while Varore or the boot ROM serves the
queues. An unbound slot fetches nothing (DESIGN CHOICE, log 21). -/
def execCommandFetch (slot : Fin 64) (entry : BitVec 1024) (s : State) : Host.Outcome State Fault Refusal :=
  .next (let m := s.mod
    let v := m.slot slot
    let n := m.sqSize slot
    if m.power = .on && (m.keeper = .ready || m.keeper = .noImage) && (m.kq 0x5C slot).getLsbD 16 &&
        m.slotCtx slot ≠ 0xFFFF && v.sqHead.toNat % n ≠ v.sqTail.toNat % n then
      s.onMod fun m => m.fetch slot entry
    else s)

/-- Payload bytes that an opcode uses, as a mask, with whether it addresses the module (R434). -/
def opShape (op : Nat) : Option (Option Bool × List (Nat × Nat)) :=
  let p : Option Bool := some false
  let md : Option Bool := some true
  match op with
  | 0x00 => some (none, [])
  | 0x01 => some (p, [(0, 32)])
  | 0x02 => some (p, [(0, 64)])
  | 0x10 => some (p, [(0, 512)])
  | 0x11 => some (p, [(0, 64)])
  | 0x12 => some (p, [(0, 256)])
  | 0x13 => some (p, [(0, 2), (64, 64)])
  | 0x14 => some (p, [(0, 3), (64, 64)])
  | 0x15 => some (p, [(0, 3)])
  | 0x16 => some (p, [(0, 192)])
  | 0x20 => some (p, [(0, 128)])
  | 0x30 | 0x31 | 0x32 | 0x33 => some (md, [])
  | 0x40 => some (md, [(0, 1), (64, 96)])
  | 0x41 => some (md, [(0, 1)])
  | 0x50 => some (md, [(0, 320)])
  | _ => none

/-- A command's opcode, its reserved fields and its target are as R432 and R434 state. -/
def entryOk (e : BitVec 1024) : Bool :=
  match opShape (entryByte e 0) with
  | none => false
  | some (target, used) =>
    let mask : Nat := used.foldl (fun n u => n ||| (2 ^ u.2 - 1) <<< u.1) 0
    (match target with
      | some t => t == (entryTarget e).isNone
      | none => true) &&
    bitsN e 9 7 == 0 && bitsN e 34 5 == 0 && bitsN e 40 24 == 0 && bitsN e 96 416 == 0 &&
    (bitsN e 512 512 &&& ~~~(BitVec.ofNat 512 mask)) == 0

/-- The commands that start work a pending commit holds (R443). -/
def startOp (op : Nat) : Bool := op == 0x10 || op == 0x11 || op == 0x12 || op == 0x13 || op == 0x15

/-- The polder, or the die, that a command needs is down (R393). -/
def State.targetDown (s : State) (q : Pid) (op : Nat) : Bool :=
  !s.mod.powered q || (s.pol q).dieDown 5 || ((op == 0x12 || op == 0x13) && (s.pol q).dieDown 4)

/-- Change the first command of a slot with a tag. -/
def Slot.update (v : Slot) (tag : BitVec 16) (f : Cmd → Cmd) : Slot :=
  let rec go : List Cmd → List Cmd
    | [] => []
    | c :: r => if c.tag = tag then f c :: r else c :: go r
  { v with cmds := go v.cmds }

def Module.updCmd (m : Module) (k : Fin 64) (tag : BitVec 16) (f : Cmd → Cmd) : Module :=
  m.setSlot k ((m.slot k).update tag f)

/-- Commands of a slot before the first that carries a tag. -/
def before (tag : BitVec 16) : List Cmd → List Cmd
  | [] => []
  | c :: r => if c.tag = tag then [] else c :: before tag r

/-- A command has not been dispatched. -/
def Cmd.queued (c : Cmd) : Bool := c.phase = .waiting || c.phase = .ready || c.phase = .held false

/-- A command may be dispatched: its queue's order to its target, FENCE, and the commands within a guarantee that
one above it waits for (R432, R435, R436). -/
def Module.mayDispatch (m : Module) (k : Fin 64) (c : Cmd) : Bool :=
  let t := entryTarget c.entry
  let earlier := (before c.tag (m.slot k).cmds).filter fun d => entryTarget d.entry == t
  let busy := m.slots.any fun e => e.2.cmds.any fun d =>
    d.phase = .ready && !(e.1 == k.val && entryTarget d.entry == t)
  (if entryFence c.entry then earlier.isEmpty else !earlier.any Cmd.queued) &&
  (match c.phase with
    | .ready => true
    | .waiting => !busy
    | _ => false)

/-- A command completes at once. -/
def State.endNow (s : State) (k : Fin 64) (tag : BitVec 16) (st : Status) (result : W64 := 0) : State :=
  s.onMod fun m => m.finish k tag st false result

/-- A command is held: it will complete with DEFERRED (R402, R444). -/
def State.holdCmd (s : State) (k : Fin 64) (tag : BitVec 16) : State :=
  s.onMod fun m => m.updCmd k tag fun c => { c with phase := .ready, deferred := true }

/-- The dispatch of a command (R393, R402, R404, R434, R435, R443, R469, R470). -/
def State.dispatch (s : State) (k : Fin 64) (c : Cmd) : State :=
  let op := entryByte c.entry 0
  let go := fun (s : State) =>
    if entryGen c.entry ≠ 0 && entryGen c.entry ≠ s.mod.active.gen then s.endNow k c.tag Status.genMismatch
    else if op = 0x40 && s.mod.loading.isSome then s.endNow k c.tag Status.refusedBusy
    else s.onMod fun m =>
      let m := if op = 0x40 then { m with loading := some (k, c.tag) } else m
      m.updCmd k c.tag fun c => { c with phase := .dispatched }
  if s.mod.keeper = .noImage && !(op == 0x40 || op == 0x41 || op == 0x50) then s.endNow k c.tag Status.internal
  else if !entryOk c.entry then s.endNow k c.tag Status.internal
  else match entryTarget c.entry with
    | none => go s
    | some q =>
      let p := s.pol q
      if p.quarantined c.ctx then s.endNow k c.tag Status.internal
      else if s.targetDown q op then (s.standIn q).endNow k c.tag Status.resetAbort
      else if p.heldCtx.contains c.ctx then s.holdCmd k c.tag
      else if startOp op && s.mod.commit.isSome && p.wdn.st = .running then s.holdCmd k c.tag
      else go s

/-- COMMAND_DISPATCH (R435). -/
def execCommandDispatch (slot : Fin 64) (tag : BitVec 16) (s : State) : Host.Outcome State Fault Refusal :=
  .next (if s.mod.power = .on && (s.mod.keeper = .ready || s.mod.keeper = .noImage) then
    match (s.mod.slot slot).find tag with
    | some c => if s.mod.mayDispatch slot c then s.dispatch slot c else s
    | none => s
  else s)

/-- A dispatched command of an opcode takes its effect. -/
def State.runCmd (s : State) (k : Fin 64) (tag : BitVec 16) (op : Nat) (f : State → Cmd → State) : State :=
  if s.mod.power ≠ .on then s else
  match (s.mod.slot k).find tag with
  | none => s
  | some c => if c.phase = .dispatched && entryByte c.entry 0 = op then f s c else s

/-- A dispatched command of a polder takes its effect; its target may have gone down, and a commit may have
become pending (R393, R443). -/
def State.runPol (s : State) (k : Fin 64) (tag : BitVec 16) (op : Nat) (f : State → Cmd → Pid → State) : State :=
  s.runCmd k tag op fun s c =>
    match entryTarget c.entry with
    | none => s
    | some q =>
      if s.targetDown q op then (s.standIn q).endNow k tag Status.resetAbort
      else if startOp op && s.mod.commit.isSome && (s.pol q).wdn.st = .running then s.holdCmd k tag
      else f s c q

/-- A command goes to its polder and is under way there until the polder ends it. -/
def State.startCmd (s : State) (k : Fin 64) (tag : BitVec 16) (q : Pid) (f : PolCtx → Polder → Polder) : State :=
  (s.onMod fun m => m.updCmd k tag fun c => { c with phase := .running }).onPol q f

/-- CMD_NOP (R434). -/
def execCmdNop (slot : Fin 64) (tag : BitVec 16) (s : State) : Host.Outcome State Fault Refusal :=
  .next (s.runCmd slot tag 0x00 fun s _ => s.endNow slot tag Status.done)

/-- The code a register command completes with (R393, R466, R515). -/
def RegAns.code : RegAns → Status × W32
  | .value v => (Status.done, v)
  | .noPage => (Status.addressInvalid, 0)
  | .denied => (Status.protection, 0)
  | .down => (Status.resetAbort, 0)
  | .unread | .busy | .silent => (Status.internal, 0)

/-- A BAR0 offset of a register command; none outside the polder's 64 MiB (R428, R515). -/
def barAddr (q : Pid) (off : Nat) : Option RegAddr := if off < 2 ^ 26 then some (.polder q (BitVec.ofNat 26 off)) else none

/-- REG_READ (R434, R462). -/
def execRegRead (slot : Fin 64) (tag : BitVec 16) (s : State) : Host.Outcome State Fault Refusal :=
  .next (s.runPol slot tag 0x01 fun s c q =>
    match barAddr q (payload c.entry 0 4) with
    | none => s.endNow slot tag Status.addressInvalid
    | some a =>
      let r := s.regRead a ⟨.keeperAgent, c.ctx⟩
      r.1.endNow slot tag r.2.code.1 (r.2.code.2.setWidth 64))

/-- REG_WRITE (R434, R462). -/
def execRegWrite (slot : Fin 64) (tag : BitVec 16) (s : State) : Host.Outcome State Fault Refusal :=
  .next (s.runPol slot tag 0x02 fun s c q =>
    match barAddr q (payload c.entry 0 4) with
    | none => s.endNow slot tag Status.addressInvalid
    | some a =>
      let r := s.regWrite a ⟨.keeperAgent, c.ctx⟩ (BitVec.ofNat 32 (payload c.entry 4 4))
      r.1.endNow slot tag r.2.code.1)

/-- PLOT_ISSUE (R138, R434). -/
def execPlotIssue (slot : Fin 64) (tag : BitVec 16) (s : State) : Host.Outcome State Fault Refusal :=
  .next (s.runPol slot tag 0x10 fun s c q =>
    s.startCmd slot tag q fun x p => p.submitIssue x (payloadWords c.entry 16) (.cmd slot tag c.ctx))

/-- PIPE_START (R170, R434). -/
def execPipeStart (slot : Fin 64) (tag : BitVec 16) (s : State) : Host.Outcome State Fault Refusal :=
  .next (s.runPol slot tag 0x11 fun s c q =>
    s.startCmd slot tag q fun x p => p.submitPipe x (payloadAddr c.entry 0) (.cmd slot tag c.ctx))

/-- KV_EDIT (R218, R434). -/
def execKvEdit (slot : Fin 64) (tag : BitVec 16) (s : State) : Host.Outcome State Fault Refusal :=
  .next (s.runPol slot tag 0x12 fun s c q =>
    s.startCmd slot tag q fun x p => p.submitEdit x (payloadWords c.entry 8) (.cmd slot tag c.ctx))

/-- UPDATE_ARM (R263, R434). -/
def execUpdateArm (slot : Fin 64) (tag : BitVec 16) (s : State) : Host.Outcome State Fault Refusal :=
  .next (s.runPol slot tag 0x13 fun s c q =>
    s.startCmd slot tag q fun x p =>
      p.submitArm x (Fin.ofNat 4 (payload c.entry 0 1 % 4)) (payloadAddr c.entry 8) (.cmd slot tag c.ctx))

/-- MAP_STAGE (R352, R434). -/
def execMapStage (slot : Fin 64) (tag : BitVec 16) (s : State) : Host.Outcome State Fault Refusal :=
  .next (s.runPol slot tag 0x14 fun s c q =>
    s.startCmd slot tag q fun x p => p.stageMap x (payload c.entry 0 1 % 8) (payloadAddr c.entry 8) (.cmd slot tag c.ctx))

/-- MAP_ACTIVATE (R353, R434). -/
def execMapActivate (slot : Fin 64) (tag : BitVec 16) (s : State) : Host.Outcome State Fault Refusal :=
  .next (s.runPol slot tag 0x15 fun s c q =>
    s.startCmd slot tag q fun x p => p.submitActivate x (payload c.entry 0 1 % 8) (.cmd slot tag c.ctx))

/-- Bytes written to server memory. -/
def State.hostWrite (s : State) (a : W64) (bs : List Byte) : State :=
  if bs.isEmpty then s else { s with mod := { s.mod with hostWrites := s.mod.hostWrites ++ [(a, bs)] } }

/-- The loader's refusals (R380): magic, version, loss exponent, a count of zero. -/
def restoreOk (counter : BitVec 512) (queue : List (BitVec 128)) : Bool :=
  bitsN counter 0 16 == 0x2408 && bitsN counter 16 8 == 3 && bitsN counter 160 8 ≤ 24 && !queue.isEmpty &&
  queue.all fun e => bitsN e 64 32 != 0

/-- The records of a converted pair (R363, R380): one STEP record, then a SAMPLES record of step STEP + 1 for each
entry. Their SEQ, which the manual leaves open, are free values (log 4). -/
def restoreRecords (src free : Nat) (counter : BitVec 512) (queue : List (BitVec 128)) : List (BitVec 512) :=
  let step : W64 := bits counter 32 64
  let seq := fun i => bits (Config.freeWord (free + i)) 0 32
  let body := bytesOf (bits counter 96 32) 4 ++ bytesOf (bits counter 128 32) 4 ++ [bits counter 160 8, 0] ++
    bytesOf (bits counter 168 16) 2 ++ List.replicate 8 0 ++ List.replicate 4 0xFF
  mirrorRecord 2 src (seq 0) step body :: (queue.zipIdx.map fun e =>
    mirrorRecord 1 src (seq (e.2 + 1)) (step + 1)
      (bytesOf (bits e.1 96 32) 4 ++ bytesOf (bits e.1 64 32) 4 ++ bytesOf (bits e.1 0 64) 8))

/-- RESTORE_2408 (R380): the images that the loader has read from server memory. -/
def execRestore2408 (slot : Fin 64) (tag : BitVec 16) (counter : BitVec 512) (queue : List (BitVec 128)) (s : State) :
    Host.Outcome State Fault Refusal :=
  if 65536 < queue.length then .fault .illFormed else
  .next (s.runPol slot tag 0x16 fun s c q =>
    if !restoreOk counter queue then s.endNow slot tag Status.internal
    else
      let x : PolCtx := ⟨q, s.mod, s.free, s.ticks⟩
      let rs := restoreRecords (x.ownId (s.pol q)) s.free counter queue
      let s := { s with free := s.free + rs.length }
      (s.hostWrite (payloadAddr c.entry 16) (rs.flatMap fun r => bytesOf r 64)).endNow slot tag Status.done
        (BitVec.ofNat 64 rs.length))

/-- JOURNAL_READ (R406, R408, R434): the records of COUNT sequence numbers from the first, those still held. -/
def execJournalRead (slot : Fin 64) (tag : BitVec 16) (s : State) : Host.Outcome State Fault Refusal :=
  .next (s.runPol slot tag 0x20 fun s c q =>
    let first : W32 := BitVec.ofNat 32 (payload c.entry 0 4)
    let n := payload c.entry 4 4
    let rs := (SMap.get (fun _ => []) s.mod.journals q.val).filter fun r => decide ((bits r 32 32 - first).toNat < n)
    (s.hostWrite (payloadAddr c.entry 8) (rs.flatMap fun r => bytesOf r 32)).endNow slot tag Status.done
      (BitVec.ofNat 64 rs.length))

/-- A configuration command (R434, R441). -/
def State.cfgCmd (s : State) (k : Fin 64) (tag : BitVec 16) (op : CfgOp) : State :=
  s.runCmd k tag op.num fun s _ =>
    (s.onMod fun m => m.updCmd k tag fun c => { c with phase := .running }).cfgOp op (some (k, tag))

/-- CFG_STAGE (R441). -/
def execCfgStage (slot : Fin 64) (tag : BitVec 16) (s : State) : Host.Outcome State Fault Refusal :=
  .next (s.cfgCmd slot tag .stage)

/-- CFG_COMMIT (R441, R442). -/
def execCfgCommit (slot : Fin 64) (tag : BitVec 16) (s : State) : Host.Outcome State Fault Refusal :=
  .next (s.cfgCmd slot tag .commit)

/-- CFG_DISCARD (R441). -/
def execCfgDiscard (slot : Fin 64) (tag : BitVec 16) (s : State) : Host.Outcome State Fault Refusal :=
  .next (s.cfgCmd slot tag .discard)

/-- CFG_ROLLBACK (R441, R442). -/
def execCfgRollback (slot : Fin 64) (tag : BitVec 16) (s : State) : Host.Outcome State Fault Refusal :=
  .next (s.cfgCmd slot tag .rollback)

/-- FW_LOAD ends: SEC_FW_STATUS (R470, R475). -/
def State.endLoad (s : State) (k : Fin 64) (tag : BitVec 16) (st : Status) (reason : Nat) : State :=
  (s.onMod fun m =>
    let m := { m with loading := none }.wr (SEC + 0x48) (fld 0 st.toNat ||| fld 8 reason)
    if reason = 0 then m else m.raise SEC 1).endNow k tag st

/-- FW_LOAD (R469, R470): what the read of the image from server memory brought, none where it failed. -/
def execFwLoad (slot : Fin 64) (tag : BitVec 16) (data : Option (List Byte)) (s : State) :
    Host.Outcome State Fault Refusal :=
  if (match data with
    | some b => decide (67108864 < b.length)
    | none => false) then .fault .illFormed else
  .next (s.runCmd slot tag 0x40 fun s c =>
    let image := decide (payload c.entry 0 1 % 2 = 1)
    let len := payload c.entry 16 4
    if image = s.mod.running && s.mod.keeper = .ready then s.endLoad slot tag Status.refusedBusy 0
    else match data with
      | none => s.endLoad slot tag Status.dataUncorrectable 0
      | some b =>
        if b.length ≠ len then s
        else if len < 512 || 512 + fwField b 12 4 ≠ len then s.endLoad slot tag Status.internal 0
        else
          let r := s.mod.fuses.fwReason b
          if r ≠ 0 then s.endLoad slot tag Status.protection r
          else (s.onMod fun m => { m with images := SMap.insert m.images (bit01 image) ⟨b⟩ }).endLoad slot tag Status.done 0)

/-- FW_ACTIVATE (R434, R437): it completes, and the keeper die resets into the slot named. -/
def execFwActivate (slot : Fin 64) (tag : BitVec 16) (s : State) : Host.Outcome State Fault Refusal :=
  .next (s.runCmd slot tag 0x41 fun s c =>
    (s.endNow slot tag Status.done).keeperReset (decide (payload c.entry 0 1 % 2 = 1)))

/-- The entries a selector can choose for an RWS register. -/
def RegInfo.entries (r : RegInfo) (b : Blk) : List Nat :=
  if r.sel = 0 then [0]
  else (List.range (r.smask + 1)).filter fun e => e &&& r.smask == e && !(b == .spw && r.smask == 0x30F && e / 256 == 0)

/-- One RWS register of a page in an image's canonical form: its 12 leading bytes and its values (R474). -/
def digestRows (m : Image) (pol : Nat) (b : Blk) (inst base : Nat) : List (List Byte × List W32) :=
  (b.regs.filter fun r => r.acc == .rws).map fun r =>
    (bytesOf (BitVec.ofNat 32 (if pol = 4 then 0xF else pol)) 4 ++
      bytesOf (BitVec.ofNat 32 (b.type * 2 ^ 16 + inst * 2 ^ 8)) 4 ++ bytesOf (BitVec.ofNat 32 r.off) 4,
     (r.entries b).map fun e => m.get pol (base + r.off) e)

/-- Lists of bytes in ascending order. -/
def bytesLe : List Byte → List Byte → Bool
  | [], _ => true
  | _ :: _, [] => false
  | a :: x, b :: y => if a = b then bytesLe x y else decide (a.toNat < b.toNat)

def insertRow (r : List Byte × List W32) : List (List Byte × List W32) → List (List Byte × List W32)
  | [] => [r]
  | a :: l => if bytesLe r.1 a.1 then r :: a :: l else a :: insertRow r l

/-- The canonical form of an image and its digest (R474): a record for each entry a register has. -/
def Image.digest (m : Image) : List Byte :=
  let pages : List (Blk × Nat × Nat) :=
    [(.gau, 0, GAU), (.twn, 0, TWN), (.flx0, 0, FLX0), (.flx1, 1, FLX1), (.flx2, 2, FLX2), (.inl, 0, INL), (.spw, 0, SPW)]
  let rows := ((List.range 4).flatMap fun q => pages.flatMap fun g => digestRows m q g.1 g.2.1 g.2.2) ++
    digestRows m 4 .kq 0 KQ
  sha384 ((rows.foldr insertRow []).flatMap fun r => r.2.flatMap fun v => r.1 ++ bytesOf v 4)

/-- Bytes 0 to 415 of an attestation report (R473). -/
def State.report (s : State) (nonce : List Byte) : List Byte :=
  let m := s.mod
  let f := m.sensed
  let zeros := fun (n : Nat) => List.replicate n (0 : Byte)
  let byte := fun (n : Nat) => ([BitVec.ofNat 8 n] : List Byte)
  let u32 := fun (n : Nat) => bytesOf (BitVec.ofNat 32 n) 4
  let digestOf := fun (slot : Bool) => match m.image? slot with
    | some b => fwDigest b
    | none => zeros 48
  u32 0x52545441 ++ bytesOf (1 : BitVec 16) 2 ++ bytesOf (512 : BitVec 16) 2 ++ nonce ++ bytesOf f.serial 8 ++
    bytesOf m.device 8 ++ byte 0xA1 ++
    byte (bit01 m.fuses.debugLock + 2 * bit01 m.debugUsed + 4 * bit01 m.fuses.fieldLock) ++ byte m.fuses.arbCount ++
    byte (bit01 m.running + 2 * bit01 m.fallback) ++ u32 ((m.svn? m.running).getD 0) ++ digestOf m.running ++
    digestOf (!m.running) ++ bytesOf f.protMap 12 ++ zeros 4 ++ bytesOf m.active.gen 4 ++
    bytesOf ((m.previous.map (·.gen)).getD 0) 4 ++ byte (bit01 m.previous.isSome + 2 * bit01 m.staged.isSome) ++
    zeros 7 ++ m.active.digest ++ (match m.previous with
      | some i => i.digest
      | none => zeros 48) ++
    ((List.finRange 4).map fun q => BitVec.ofNat 8 (s.pol q).wdn.st.num) ++
    bytesOf (BitVec.ofNat 16 ((List.finRange 4).foldl (fun n q => n + (s.pol q).wdn.polderInc.toNat * 16 ^ q.val) 0)) 2 ++
    zeros 2 ++ bytesOf (BitVec.ofNat 64 s.ticks) 8 ++ zeros 112

/-- ATTEST (R473): `ok` says that the write to server memory succeeded; the signature is a free value (log 4). -/
def execAttest (slot : Fin 64) (tag : BitVec 16) (ok : Bool) (s : State) : Host.Outcome State Fault Refusal :=
  .next (s.runCmd slot tag 0x50 fun s c =>
    if !ok then s.endNow slot tag Status.dataUncorrectable
    else
      let sig := Config.signature s.free
      let bs := s.report (bytesOf (bits c.entry 512 256) 32) ++ bytesOf sig.1 48 ++ bytesOf sig.2 48
      let s := { s with free := s.free + 1 }
      (s.hostWrite (payloadAddr c.entry 32) bs).endNow slot tag Status.done 512)

end Sys2Proof.Machine
end

