-- ==== Sys2Proof/Machine/Fabric.lean ====
section
/-! DEFINITION. Requests from the fabric, executed at the polder that their address names (R264, R310, R316 to
R320, R328, R355, R370, R393, R466). Readings and choices: log 32, 33. -/

namespace Sys2Proof.Machine

/-- The class of a fabric address; none where it decodes to no class (R310, R463, R466). -/
def fabClass (a : W64) : Option PageClass :=
  let o := gaOff a
  match gaTier a with
  | 0 => if o < 0x140000000 then some .grid else none
  | 1 | 2 | 3 => some .memory
  | 4 => if o < 0x4000000 then (polPage o).map (·.blk.cls) else none
  | _ => none

/-- Bytes of the target that an operation reaches (R317, R319). -/
def Txn.span (t : Txn) : Nat :=
  match t.op.toNat with
  | 0x01 => t.len.toNat
  | 0x02 => t.data.length
  | 0x03 => if t.mod.getLsbD 0 then t.data.length else 2 * t.data.length
  | _ => if gaTier t.addr = 4 then 4 else 8

/-- Alignment and length (R317). -/
def Txn.aligned (t : Txn) : Bool :=
  let o := gaOff t.addr
  let tier := gaTier t.addr
  let n := Txn.span t
  match t.op.toNat with
  | 0x01 | 0x02 =>
    if tier = 4 then (n == 4 || n == 8) && o % n == 0
    else decide (8 ≤ n) && decide (n ≤ 512) && n % 8 == 0 && o % 8 == 0 && o / 512 == (o + n - 1) / 512
  | 0x03 =>
    (tier == 1 || tier == 2) && decide (2 ≤ t.data.length) && decide (t.data.length ≤ 512) &&
      t.data.length % (if t.mod.getLsbD 0 then 4 else 2) == 0 && o % 4 == 0 && o / 1024 == (o + n - 1) / 1024
  | _ => if tier = 4 then o % 4 == 0 else tier ≤ 2 && o % 8 == 0

/-- Tier-0 bytes lie in one of a cell's two local ranges (R26, R310). -/
def cellSpan (o n : Nat) : Bool :=
  let l := o % 0x20000
  l + n ≤ 0x10000 || (0x10000 ≤ l && l + n ≤ 0x14000)

/-- The domain an address lies in is down: the stand-in answers (R393). -/
def Polder.fabDown (p : Polder) (a : W64) : Bool :=
  let o := gaOff a
  match gaTier a with
  | 0 => p.cellDown (o / 0x20000)
  | 1 => p.dieDown (o / 2 ^ 37)
  | 4 => p.pageDown o
  | _ => p.dieDown 4

/-- What an access of a class that may have it still meets: its code, where it is not executed (R310, R317, R320,
R393). -/
def Polder.fabCheck (p : Polder) (x : PolCtx) (t : Txn) : Option Status :=
  let o := gaOff t.addr
  let n := Txn.span t
  let tier := gaTier t.addr
  let there := match tier with
    | 0 => cellSpan o n
    | 1 | 2 | 3 => x.memOk p tier o n
    | _ => true
  if !Txn.aligned t || !there then some Status.addressInvalid
  else if p.staleInc t then some Status.incarnationStale
  else if p.fabDown t.addr then some Status.resetAbort
  else none

/-- The requester of a request that arrives over a port (R462). -/
def portRequester (port : Nat) : Requester := if port = 7 then .twin else .fabric

/-- A request leaves the inbound queue: it is refused with a code, or executed by `run`, which answers it. The
requests of the polder itself are under no map (R309, R316, R462, R466). -/
def State.fabric (s : State) (p : Pid) (port : Fin 8) (t : Txn) (write : Bool) (run : State → State) : State :=
  if !s.live p 5 then s else
  let x : PolCtx := ⟨p, s.mod, s.free, s.ticks⟩
  let q := s.pol p
  let own : Bool := decide (t.src.toNat = x.ownId q)
  let req := portRequester port.val
  if (x.module? q).isNone then s else
  let s := s.onPol p fun _ q => q.takeInbound port.val t
  if !x.isOwn q t.addr then s else
  let reply := fun (s : State) (st : Status) => s.onPol p fun x q => q.answer x t st false []
  match fabClass t.addr with
  | none => reply s Status.addressInvalid
  | some c =>
    if !own && s.mod.denied req c write then
      reply (s.onMod fun m => m.deny req t.addr.toNat t.src.toNat) Status.protection
    else match (s.pol p).fabCheck x t with
      | some st => reply (if st = Status.resetAbort then s.standIn p else s) st
      | none => run s

/-- How a request of tier 4 is met past its checks (R404). -/
def Polder.fabGate (p : Polder) (t : Txn) (write : Bool) : Gate :=
  if write && gaOff t.addr / 0x1000 ≠ 0 && p.quarantined t.ctx then .quarantined else .open

/-- Who a request of tier 4 acts as. -/
def fabWho (port : Fin 8) (t : Txn) : Who := ⟨portRequester port.val, t.ctx⟩

/-- Registers read in turn, the lower address first (R317, R515). -/
def State.fabRegs (s : State) (p : Pid) (g : Page) (w : Who) (o : Nat) : Nat → State × List W32
  | 0 => (s, [])
  | n + 1 =>
    let r := s.polRead p g o w .open
    let q := State.fabRegs r.1 p g w (o + 4) n
    (q.1, r.2.code.2 :: q.2)

/-- Registers written in turn, the lower address first (R317, R515). -/
def State.fabPut (s : State) (p : Pid) (g : Page) (w : Who) (gate : Gate) (o : Nat) : List W32 → State
  | [] => s
  | v :: r => State.fabPut (s.polWrite p g o w v gate).1 p g w gate (o + 4) r

/-- A request acts on the registers of a page, and is answered with what it reads. -/
def State.onRegs (s : State) (p : Pid) (t : Txn) (f : State → Page → State × List Byte) : State :=
  match polPage (gaOff t.addr) with
  | none => s
  | some g =>
    let r := f s g
    r.1.onPol p fun x q => q.answer x t Status.done false r.2

/-- Memory requests of the fabric (R251, R509). -/
def fabBy (t : Txn) : MemBy := ⟨3, t.src.toNat, t.ctx, false, t.cls == .background⟩

/-- A READ of tiers 0 to 3 (R53, R56, R251, R253, R317). -/
def Polder.fabRead (p : Polder) (x : PolCtx) (port : Nat) (t : Txn) : Polder :=
  let o := gaOff t.addr
  let n := Txn.span t
  match gaTier t.addr with
  | 0 =>
    let k := o / 0x20000
    let r := (p.cell k).svcRead (o % 0x20000) (n / 8)
    (p.setCell k r.1).answer x t r.2.1 false (r.2.2.flatMap fun w => bytesOf w 8)
  | 3 =>
    match p.admitBw x (fabBy t) 3 n with
    | (p, none) => p.answer x t Status.refusedQuota false []
    | (p, some d) =>
      if p.mem.onHost o then
        match p.askHost x o n (.fabric port t) d with
        | (p, none) => p
        | (p, some r) => p.answer x t r.status d r.data
      else
        let r := p.fetchData x (fabBy t) 3 o n
        r.p.answer x t r.st d r.data
  | tier =>
    let r := p.memRead x (fabBy t) tier o n
    r.p.answer x t r.st r.deferred r.data

/-- FABRIC_READ (R310, R317). -/
def execFabricRead (p : Pid) (port : Fin 8) (t : Txn) (s : State) : Host.Outcome State Fault Refusal :=
  if !t.wf then .fault .illFormed
  else .next (if t.op ≠ opRead || !Txn.known t then s
    else s.fabric p port t false fun s =>
      if gaTier t.addr = 4 then
        s.onRegs p t fun s g =>
          let r := s.fabRegs p g (fabWho port t) (gaOff t.addr) (Txn.span t / 4)
          (r.1, r.2.flatMap fun w => bytesOf w 4)
      else s.onPol p fun x q => q.fabRead x port.val t)

/-- Place of an operation in a window's op mask (R315). -/
def opPlace (op : Byte) : Nat := if op = opWrite then 0 else if op = opReduce then 1 else 2

/-- The operations a window allows: a Pump window, REDUCE_WRITE alone (R326). -/
def Polder.winMask (p : Polder) (i : Nat) : BitVec 3 := if i < 60 then (p.win i).mask else 2

/-- A span lies wholly in a window's range. -/
def spanInside (a : W64) (n : Nat) (r : W64 × Nat) : Bool :=
  r.1.toNat ≤ a.toNat && a.toNat + n ≤ r.1.toNat + r.2

/-- The window that a write meets, and whether it admits the write (R328). -/
def Polder.winHit (p : Polder) (t : Txn) : Option (Nat × Bool) :=
  let n := Txn.span t
  let meets := (List.range 64).filter fun i => match p.winRange i with
    | some r => rangesMeet t.addr n r.1 r.2
    | none => false
  let admits := fun (i : Nat) => p.winSt i == .open_ && (p.winMask i).getLsbD (opPlace t.op) &&
    match p.winRange i with
    | some r => spanInside t.addr n r
    | none => false
  match meets.find? admits with
  | some i => some (i, true)
  | none => meets.head?.map fun i => (i, false)

/-- What the window check answers: the window that admitted the write, none for the polder's own, or a
refusal (R325, R328). -/
def Polder.winAdmit (p : Polder) (x : PolCtx) (t : Txn) : Polder × Except Status (Option Nat) :=
  if t.src.toNat = x.ownId p then (p, .ok none)
  else match p.winHit t with
    | none => (p, .error Status.addressInvalid)
    | some (i, true) => (p, .ok (some i))
    | some (_, false) => ((p.count (FLX0 + 0x6C) 1).raise FLX0 6, .error Status.windowClosed)

/-- An admitted write has landed: it is answered once it is visible (R328); what failed is answered at once. -/
def Polder.landed (p : Polder) (x : PolCtx) (t : Txn) (win : Option Nat) (st : Status) (deferred : Bool)
    (data : List Byte) : Polder :=
  match win with
  | some i =>
    if st = Status.done then
      p.setWin i { p.win i with writes := (p.win i).writes ++ [⟨t, deferred, data, false⟩] }
    else p.answer x t st deferred []
  | none => p.answer x t st deferred data

/-- A WRITE of tiers 0 to 3 (R56, R245, R317, R328, R370). -/
def Polder.fabWrite (p : Polder) (x : PolCtx) (t : Txn) : Polder :=
  let o := gaOff t.addr
  if gaTier t.addr = 0 then
    let k := o / 0x20000
    let r := (p.cell k).svcWrite (o % 0x20000) t.data
    (p.setCell k r.1).answer x t r.2 false []
  else match p.winAdmit x t with
    | (p, .error st) => p.answer x t st false []
    | (p, .ok win) =>
      match win.bind fun i => (x.roleOf p i).map fun r => (i, r) with
      | some (i, r) =>
        match p.fold x i r t (fabBy t) with
        | (p, some st) => p.answer x t st false []
        | (p, none) => p
      | none =>
        let r := p.memWrite x (fabBy t) (gaTier t.addr) o (t.data.map some)
        r.p.landed x t win r.st r.deferred []

/-- FABRIC_WRITE (R310, R317, R328, R363). -/
def execFabricWrite (p : Pid) (port : Fin 8) (t : Txn) (s : State) : Host.Outcome State Fault Refusal :=
  if !t.wf then .fault .illFormed
  else if t.op ≠ opWrite || !Txn.known t then .next s
  else if mboxOk port.val t then execMirrorRecordRx p port t s
  else .next (s.fabric p port t true fun s =>
    if gaTier t.addr = 4 then
      s.onRegs p t fun s g =>
        (s.fabPut p g (fabWho port t) ((s.pol p).fabGate t true) (gaOff t.addr) (wordsOf t.data (t.data.length / 4)), [])
    else s.onPol p fun x q => q.fabWrite x t)

/-- The elements a REDUCE_WRITE carries, as FP32 (R319). -/
def Txn.elems (t : Txn) : List W32 :=
  if t.mod.getLsbD 0 then f32s t.data
  else (List.range (t.data.length / 2)).map fun i => wordOf 32 ([0, 0] ++ (t.data.drop (2 * i)).take 2)

/-- The layout epoch of a REDUCE_WRITE into a window bound to a slot: none where it proceeds (R355, R356). -/
def Polder.epochCheck (p : Polder) (x : PolCtx) (t : Txn) : Polder × Option Status :=
  match p.winHit t with
  | none => (p, none)
  | some (i, _) =>
    let b := x.cfg p (FLX2 + 0x6C) i
    if !b.getLsbD 3 then (p, none)
    else
      let v := p.mapSlot (bitsN b 0 3)
      let is := fun (m : Option ShardMap) => m.any fun m => m.epoch == t.epoch
      if is v.cur || is v.prev then (p, none)
      else if is v.stg then ((p.count (FLX2 + 0x64) 1).raise FLX2 4, some Status.refusedBusy)
      else ((p.count (FLX2 + 0x60) 1).raise FLX2 2, some Status.epochStale)

/-- A read-modify-write of own tier 1 or 2: one admission, the bytes before, and what is written of them; none
writes nothing (R251, R318, R319). -/
def Polder.readWrite (p : Polder) (x : PolCtx) (by_ : MemBy) (t o n : Nat) (f : List Byte → Option (List Byte)) :
    MemRes :=
  let r := p.memRead x by_ t o n
  if r.st ≠ Status.done then r
  else match f r.data with
    | none => r
    | some bs =>
      let w := r.p.memWrite x { by_ with background := true } t o (bs.map some)
      { w with deferred := r.deferred || w.deferred, data := r.data }

/-- REDUCE_WRITE (R264 to R268, R319, R328, R355). -/
def Polder.fabReduce (p : Polder) (x : PolCtx) (t : Txn) : Polder :=
  let o := gaOff t.addr
  let tier := gaTier t.addr
  let n := Txn.span t
  match p.epochCheck x t with
  | (p, some st) => p.answer x t st false []
  | (p, none) =>
    match (if tier = 1 then p.armedAt o n else none) with
    | some (ch, u) =>
      let late := decide ((p.chan ch).st ≠ .open_)
      let own := decide (t.src.toNat = x.ownId p)
      let r := p.reduceLand x ch u o (Txn.elems t)
      r.1.landed x t (if late || own then none else some (60 + ch)) r.2 false []
    | none =>
      match p.winAdmit x t with
      | (p, .error st) => p.answer x t st false []
      | (p, .ok win) =>
        let r := p.readWrite x (fabBy t) tier o n fun old =>
          some (bytesOf32 (((f32s old).zip (Txn.elems t)).map fun q => fadd q.1 q.2))
        r.p.landed x t win r.st r.deferred []

/-- FABRIC_REDUCE_WRITE (R310, R317, R319). -/
def execFabricReduceWrite (p : Pid) (port : Fin 8) (t : Txn) (s : State) : Host.Outcome State Fault Refusal :=
  if !t.wf then .fault .illFormed
  else .next (if t.op ≠ opReduce || !Txn.known t then s
    else s.fabric p port t true fun s => s.onPol p fun x q => q.fabReduce x t)

/-- What an ATOMIC writes, if it writes, over the old value (R318). -/
def Txn.newWord (t : Txn) (w : Nat) (old : Nat) : Option Nat :=
  if t.mod = 0 then some ((old + t.opnd.toNat) % 2 ^ w)
  else if old = t.opnd.toNat % 2 ^ w then some (natOfBytes (t.data.take 8) % 2 ^ w)
  else none

/-- A fetch-add may be the last arrival at a norm cell of this polder (R270). -/
def Polder.rootArrival (p : Polder) (x : PolCtx) (t : Txn) : Polder :=
  (List.finRange 4).foldl (fun (p : Polder) ch =>
    match (p.chan ch.val).tab with
    | some u => if u.norm + 8 = t.addr then p.rootTotal x ch false else p
    | none => p) p

/-- An ATOMIC of tiers 0 to 2 (R53, R56, R318, R328). -/
def Polder.fabAtomic (p : Polder) (x : PolCtx) (t : Txn) : Polder :=
  let o := gaOff t.addr
  let next := fun (l : List Byte) =>
    ((Txn.newWord t 64 (natOfBytes l)).map fun n => bytesOf (BitVec.ofNat 64 n) 8)
  if gaTier t.addr = 0 then
    let k := o / 0x20000
    let a := o % 0x20000
    let r := (p.cell k).svcRead a 1
    let old := r.2.2.flatMap fun w => bytesOf w 8
    let c := if r.2.1 = Status.done then
        match next old with
        | some bs => (r.1.svcWrite a bs).1
        | none => r.1
      else r.1
    (p.setCell k c).answer x t r.2.1 false old
  else match p.winAdmit x t with
    | (p, .error st) => p.answer x t st false []
    | (p, .ok win) =>
      let r := p.readWrite x (fabBy t) (gaTier t.addr) o 8 next
      let p := r.p.landed x t win r.st r.deferred r.data
      if r.st = Status.done && t.mod = 0 then p.rootArrival x t else p

/-- An ATOMIC: of tier 4 on one 32-bit register (R310, R317, R318). -/
def State.atomic (s : State) (p : Pid) (port : Fin 8) (t : Txn) : State :=
  s.fabric p port t true fun s =>
    if gaTier t.addr = 4 then
      s.onRegs p t fun s g =>
        let o := gaOff t.addr
        let w := fabWho port t
        let gate := (s.pol p).fabGate t true
        let r := s.polRead p g o w .open
        let old := r.2.code.2
        let s := match Txn.newWord t 32 old.toNat with
          | some n => (r.1.polWrite p g o w (BitVec.ofNat 32 n) gate).1
          | none => r.1
        (s, bytesOf (old.setWidth 64) 8)
    else s.onPol p fun x q => q.fabAtomic x t

/-- FABRIC_FETCH_ADD (R270, R318). -/
def execFabricFetchAdd (p : Pid) (port : Fin 8) (t : Txn) (s : State) : Host.Outcome State Fault Refusal :=
  if !t.wf then .fault .illFormed
  else .next (if t.op ≠ opAtomic || t.mod ≠ 0 then s else s.atomic p port t)

/-- FABRIC_COMPARE_SWAP (R318). -/
def execFabricCompareSwap (p : Pid) (port : Fin 8) (t : Txn) (s : State) : Host.Outcome State Fault Refusal :=
  if !t.wf then .fault .illFormed
  else .next (if t.op ≠ opAtomic || t.mod ≠ 1 then s else s.atomic p port t)

end Sys2Proof.Machine
end

