-- ==== Sys2Proof/Machine/Dispatch.lean ====
section
/-! DEFINITION. Which meaning each command has: one arm for each constructor of Instr. Readings and choices:
log 52. Readings and choices: log 52. -/

namespace Sys2Proof.Machine

/-- The effect of a command on everything but the queue. -/
def exec (i : Instr) (s : State) : Host.Outcome State Fault Refusal :=
  match i with
  | .halt c => Sys2Proof.Machine.execHalt c s
  | .cellHaltComplete c => Sys2Proof.Machine.execCellHaltComplete c s
  | .nop c => Sys2Proof.Machine.execNop c s
  | .jmp c => Sys2Proof.Machine.execJmp c s
  | .loop c => Sys2Proof.Machine.execLoop c s
  | .brc c => Sys2Proof.Machine.execBrc c s
  | .fence c => Sys2Proof.Machine.execFence c s
  | .fenceRelease c => Sys2Proof.Machine.execFenceRelease c s
  | .twait c => Sys2Proof.Machine.execTwait c s
  | .twaitRelease c => Sys2Proof.Machine.execTwaitRelease c s
  | .movs c => Sys2Proof.Machine.execMovs c s
  | .add c => Sys2Proof.Machine.execAdd c s
  | .addi c => Sys2Proof.Machine.execAddi c s
  | .sub c => Sys2Proof.Machine.execSub c s
  | .mul c => Sys2Proof.Machine.execMul c s
  | .and c => Sys2Proof.Machine.execAnd c s
  | .or c => Sys2Proof.Machine.execOr c s
  | .xor c => Sys2Proof.Machine.execXor c s
  | .shli c => Sys2Proof.Machine.execShli c s
  | .shri c => Sys2Proof.Machine.execShri c s
  | .ldi c => Sys2Proof.Machine.execLdi c s
  | .ldhi c => Sys2Proof.Machine.execLdhi c s
  | .ld c => Sys2Proof.Machine.execLd c s
  | .st c => Sys2Proof.Machine.execSt c s
  | .copy c => Sys2Proof.Machine.execCopy c s
  | .vclr c => Sys2Proof.Machine.execVclr c s
  | .svrd c => Sys2Proof.Machine.execSvrd c s
  | .svwr c => Sys2Proof.Machine.execSvwr c s
  | .serviceAccessComplete c idx => Sys2Proof.Machine.execServiceAccessComplete c idx s
  | .send c => Sys2Proof.Machine.execSend c s
  | .recv c => Sys2Proof.Machine.execRecv c s
  | .portQueueStart c => Sys2Proof.Machine.execPortQueueStart c s
  | .swait c => Sys2Proof.Machine.execSwait c s
  | .swaitRelease c => Sys2Proof.Machine.execSwaitRelease c s
  | .ssig c => Sys2Proof.Machine.execSsig c s
  | .semIncrement c sem n => Sys2Proof.Machine.execSemIncrement c sem n s
  | .engineSemIncrement e sem n => Sys2Proof.Machine.execEngineSemIncrement e sem n s
  | .wtok c => Sys2Proof.Machine.execWtok c s
  | .amxs c => Sys2Proof.Machine.execAmxs c s
  | .amxsComplete c => Sys2Proof.Machine.execAmxsComplete c s
  | .mma c => Sys2Proof.Machine.execMma c s
  | .arrayQueueStart c => Sys2Proof.Machine.execArrayQueueStart c s
  | .azero c => Sys2Proof.Machine.execAzero c s
  | .aacc c => Sys2Proof.Machine.execAacc c s
  | .ascale c => Sys2Proof.Machine.execAscale c s
  | .acvt c => Sys2Proof.Machine.execAcvt c s
  | .vadd c => Sys2Proof.Machine.execVadd c s
  | .vsub c => Sys2Proof.Machine.execVsub c s
  | .vmul c => Sys2Proof.Machine.execVmul c s
  | .vfma c => Sys2Proof.Machine.execVfma c s
  | .vmax c => Sys2Proof.Machine.execVmax c s
  | .vmin c => Sys2Proof.Machine.execVmin c s
  | .vscl c => Sys2Proof.Machine.execVscl c s
  | .vrsum c => Sys2Proof.Machine.execVrsum c s
  | .vrmax c => Sys2Proof.Machine.execVrmax c s
  | .cvt c => Sys2Proof.Machine.execCvt c s
  | .fload c => Sys2Proof.Machine.execFload c s
  | .feval c => Sys2Proof.Machine.execFeval c s
  | .fbwd c => Sys2Proof.Machine.execFbwd c s
  | .cellReset c => Sys2Proof.Machine.execCellReset c s
  | .celRunWrite c w => Sys2Proof.Machine.execCelRunWrite c w s
  | .cellStart c => Sys2Proof.Machine.execCellStart c s
  | .celStop c w => Sys2Proof.Machine.execCelStop c w s
  | .programStoreWrite c w pc hi v => Sys2Proof.Machine.execProgramStoreWrite c w pc hi v s
  | .rngRegisterWrite p w idx v => Sys2Proof.Machine.execRngRegisterWrite p w idx v s
  | .tideWrap p => Sys2Proof.Machine.execTideWrap p s
  | .beatHop c port circ => Sys2Proof.Machine.execBeatHop c port circ s
  | .controlTokenHop c input => Sys2Proof.Machine.execControlTokenHop c input s
  | .servicePacketHop p idx => Sys2Proof.Machine.execServicePacketHop p idx s
  | .weirTokenArrival c out tok => Sys2Proof.Machine.execWeirTokenArrival c out tok s
  | .tokenTakesEffect c out idx => Sys2Proof.Machine.execTokenTakesEffect c out idx s
  | .holdFreeze p => Sys2Proof.Machine.execHoldFreeze p s
  | .holdResume p => Sys2Proof.Machine.execHoldResume p s
  | .debugHoldWrite p w on => Sys2Proof.Machine.execDebugHoldWrite p w on s
  | .recfgGo p w => Sys2Proof.Machine.execRecfgGo p w s
  | .recfgWaitEnd p => Sys2Proof.Machine.execRecfgWaitEnd p s
  | .recfgDone p => Sys2Proof.Machine.execRecfgDone p s
  | .notDrained p => Sys2Proof.Machine.execNotDrained p s
  | .recfgRelease p w => Sys2Proof.Machine.execRecfgRelease p w s
  | .slotTableWrite p w v => Sys2Proof.Machine.execSlotTableWrite p w v s
  | .issueGo p w => Sys2Proof.Machine.execIssueGo p w s
  | .variantTableReadDone p => Sys2Proof.Machine.execVariantTableReadDone p s
  | .plotStart p idx => Sys2Proof.Machine.execPlotStart p idx s
  | .startTideMissed p idx => Sys2Proof.Machine.execStartTideMissed p idx s
  | .issueComplete p idx => Sys2Proof.Machine.execIssueComplete p idx s
  | .pipeGo p w => Sys2Proof.Machine.execPipeGo p w s
  | .pipeGateOpen p => Sys2Proof.Machine.execPipeGateOpen p s
  | .pipeTableReadDone p => Sys2Proof.Machine.execPipeTableReadDone p s
  | .passBegin p => Sys2Proof.Machine.execPassBegin p s
  | .stashCopyOut p stage rec => Sys2Proof.Machine.execStashCopyOut p stage rec s
  | .stashReturn p stage rec => Sys2Proof.Machine.execStashReturn p stage rec s
  | .pipeRunComplete p => Sys2Proof.Machine.execPipeRunComplete p s
  | .handoffRegisterWrite p w n isDone v => Sys2Proof.Machine.execHandoffRegisterWrite p w n isDone v s
  | .ringTailWrite e w v => Sys2Proof.Machine.execRingTailWrite e w v s
  | .descBurstFetch e => Sys2Proof.Machine.execDescBurstFetch e s
  | .descBurstLanded e => Sys2Proof.Machine.execDescBurstLanded e s
  | .descEnterFetching e => Sys2Proof.Machine.execDescEnterFetching e s
  | .engineArm e w => Sys2Proof.Machine.execEngineArm e w s
  | .engineStop e w => Sys2Proof.Machine.execEngineStop e w s
  | .engineStopped e => Sys2Proof.Machine.execEngineStopped e s
  | .engineIdle e => Sys2Proof.Machine.execEngineIdle e s
  | .intakeRequestIssue e => Sys2Proof.Machine.execIntakeRequestIssue e s
  | .handGateWaitEnd e => Sys2Proof.Machine.execHandGateWaitEnd e s
  | .intakeDataLanded e idx r => Sys2Proof.Machine.execIntakeDataLanded e idx r s
  | .intakeRetryTimer e idx => Sys2Proof.Machine.execIntakeRetryTimer e idx s
  | .intakeBeatEmit e circ => Sys2Proof.Machine.execIntakeBeatEmit e circ s
  | .intakeHoldRequest e => Sys2Proof.Machine.execIntakeHoldRequest e s
  | .descRetire e => Sys2Proof.Machine.execDescRetire e s
  | .outfallBeatTake e => Sys2Proof.Machine.execOutfallBeatTake e s
  | .outfallWaitRelease e => Sys2Proof.Machine.execOutfallWaitRelease e s
  | .outfallWrite e => Sys2Proof.Machine.execOutfallWrite e s
  | .reduceWriteSend e => Sys2Proof.Machine.execReduceWriteSend e s
  | .reduceWriteCompletion e tag status deferred => Sys2Proof.Machine.execReduceWriteCompletion e tag status deferred s
  | .outfallReissueTimer e tag => Sys2Proof.Machine.execOutfallReissueTimer e tag s
  | .hbmAccessGrant p die ctrl => Sys2Proof.Machine.execHbmAccessGrant p die ctrl s
  | .accessTableWrite p die ctrl w v => Sys2Proof.Machine.execAccessTableWrite p die ctrl w v s
  | .kvCreate p => Sys2Proof.Machine.execKvCreate p s
  | .kvAppend p => Sys2Proof.Machine.execKvAppend p s
  | .kvFork p => Sys2Proof.Machine.execKvFork p s
  | .kvPrepareWrite p => Sys2Proof.Machine.execKvPrepareWrite p s
  | .kvTruncate p => Sys2Proof.Machine.execKvTruncate p s
  | .kvDestroy p => Sys2Proof.Machine.execKvDestroy p s
  | .kvPrefetch p => Sys2Proof.Machine.execKvPrefetch p s
  | .kvResident p => Sys2Proof.Machine.execKvResident p s
  | .kvPinRelease p idx => Sys2Proof.Machine.execKvPinRelease p idx s
  | .kvPrefetchPageDone p => Sys2Proof.Machine.execKvPrefetchPageDone p s
  | .rangeClear p w => Sys2Proof.Machine.execRangeClear p w s
  | .rangeFetch p w => Sys2Proof.Machine.execRangeFetch p w s
  | .rangeEvict p w => Sys2Proof.Machine.execRangeEvict p w s
  | .rangeReservedOp p w => Sys2Proof.Machine.execRangeReservedOp p w s
  | .rangeDone p => Sys2Proof.Machine.execRangeDone p s
  | .bwWindowExpiry p => Sys2Proof.Machine.execBwWindowExpiry p s
  | .bar4Access p off a => Sys2Proof.Machine.execBar4Access p off a s
  | .tier3Completion p idx o => Sys2Proof.Machine.execTier3Completion p idx o s
  | .pumpArm p ch w => Sys2Proof.Machine.execPumpArm p ch w s
  | .pumpClose p ch w => Sys2Proof.Machine.execPumpClose p ch w s
  | .pumpDeadlineExpiry p ch => Sys2Proof.Machine.execPumpDeadlineExpiry p ch s
  | .pumpGraceExpiry p ch => Sys2Proof.Machine.execPumpGraceExpiry p ch s
  | .reductionDrained p ch => Sys2Proof.Machine.execReductionDrained p ch s
  | .normTotalReady p ch => Sys2Proof.Machine.execNormTotalReady p ch s
  | .pumpShardComplete p ch shard => Sys2Proof.Machine.execPumpShardComplete p ch shard s
  | .pumpUpdateComplete p ch => Sys2Proof.Machine.execPumpUpdateComplete p ch s
  | .snapshotHandoffWaitEnd p ch => Sys2Proof.Machine.execSnapshotHandoffWaitEnd p ch s
  | .snapshotAbort p ch => Sys2Proof.Machine.execSnapshotAbort p ch s
  | .portEnableWrite p port w v => Sys2Proof.Machine.execPortEnableWrite p port w v s
  | .laneCheckDone p port shorted => Sys2Proof.Machine.execLaneCheckDone p port shorted s
  | .negotiateRoundEnd p port lanes peer => Sys2Proof.Machine.execNegotiateRoundEnd p port lanes peer s
  | .trainDone p port failed inverted => Sys2Proof.Machine.execTrainDone p port failed inverted s
  | .alignDone p port => Sys2Proof.Machine.execAlignDone p port s
  | .waitExpiry p port => Sys2Proof.Machine.execWaitExpiry p port s
  | .retrain p port w => Sys2Proof.Machine.execRetrain p port w s
  | .laneLost p port => Sys2Proof.Machine.execLaneLost p port s
  | .downIdleEnd p port => Sys2Proof.Machine.execDownIdleEnd p port s
  | .inPackageBringup p port failed peer => Sys2Proof.Machine.execInPackageBringup p port failed peer s
  | .flitReceive p port flit => Sys2Proof.Machine.execFlitReceive p port flit s
  | .flitTransmit p port => Sys2Proof.Machine.execFlitTransmit p port s
  | .ackTimer p port => Sys2Proof.Machine.execAckTimer p port s
  | .txnRequestIssue p t => Sys2Proof.Machine.execTxnRequestIssue p t s
  | .elasticWaitExpiry p tag => Sys2Proof.Machine.execElasticWaitExpiry p tag s
  | .fabricRead p port t => Sys2Proof.Machine.execFabricRead p port t s
  | .fabricWrite p port t => Sys2Proof.Machine.execFabricWrite p port t s
  | .fabricReduceWrite p port t => Sys2Proof.Machine.execFabricReduceWrite p port t s
  | .fabricFetchAdd p port t => Sys2Proof.Machine.execFabricFetchAdd p port t s
  | .fabricCompareSwap p port t => Sys2Proof.Machine.execFabricCompareSwap p port t s
  | .windowOpen p o => Sys2Proof.Machine.execWindowOpen p o s
  | .windowClose p o => Sys2Proof.Machine.execWindowClose p o s
  | .windowWriteVisible p idx => Sys2Proof.Machine.execWindowWriteVisible p idx s
  | .fabricFence p port t => Sys2Proof.Machine.execFabricFence p port t s
  | .txnCompletion p t => Sys2Proof.Machine.execTxnCompletion p t s
  | .requestTimeout p tag => Sys2Proof.Machine.execRequestTimeout p tag s
  | .heartbeatTimer p => Sys2Proof.Machine.execHeartbeatTimer p s
  | .heartbeatRx p t => Sys2Proof.Machine.execHeartbeatRx p t s
  | .peerLossTimeout p entry => Sys2Proof.Machine.execPeerLossTimeout p entry s
  | .noticePeerLost p t => Sys2Proof.Machine.execNoticePeerLost p t s
  | .noticePeerUp p t => Sys2Proof.Machine.execNoticePeerUp p t s
  | .noticeRouteChange p t => Sys2Proof.Machine.execNoticeRouteChange p t s
  | .noticeDrain p t => Sys2Proof.Machine.execNoticeDrain p t s
  | .noticeUser p t => Sys2Proof.Machine.execNoticeUser p t s
  | .noticeSend p w => Sys2Proof.Machine.execNoticeSend p w s
  | .noticePop p w => Sys2Proof.Machine.execNoticePop p w s
  | .flitForward p port flit => Sys2Proof.Machine.execFlitForward p port flit s
  | .flxMapStage p w => Sys2Proof.Machine.execFlxMapStage p w s
  | .flxMapActivate p w => Sys2Proof.Machine.execFlxMapActivate p w s
  | .mapActivation p slot => Sys2Proof.Machine.execMapActivation p slot s
  | .flxMapRetire p w => Sys2Proof.Machine.execFlxMapRetire p w s
  | .flxMapDrop p w => Sys2Proof.Machine.execFlxMapDrop p w s
  | .mirrorRecordRx p port t => Sys2Proof.Machine.execMirrorRecordRx p port t s
  | .mirrorRecordCompletion p status => Sys2Proof.Machine.execMirrorRecordCompletion p status s
  | .twnPost p w => Sys2Proof.Machine.execTwnPost p w s
  | .stepEnd p w => Sys2Proof.Machine.execStepEnd p w s
  | .stepBoundary p => Sys2Proof.Machine.execStepBoundary p s
  | .scalesWritten p => Sys2Proof.Machine.execScalesWritten p s
  | .xfCopy p w => Sys2Proof.Machine.execXfCopy p w s
  | .xfZero p w => Sys2Proof.Machine.execXfZero p w s
  | .xfComplete p status => Sys2Proof.Machine.execXfComplete p status s
  | .semWaitWatchdog c => Sys2Proof.Machine.execSemWaitWatchdog c s
  | .plotHalt p => Sys2Proof.Machine.execPlotHalt p s
  | .engWaitWatchdog e => Sys2Proof.Machine.execEngWaitWatchdog e s
  | .holdOverrun p => Sys2Proof.Machine.execHoldOverrun p s
  | .noResponseWatchdog p b => Sys2Proof.Machine.execNoResponseWatchdog p b s
  | .internalLinkLost p j => Sys2Proof.Machine.execInternalLinkLost p j s
  | .linkStuck p port => Sys2Proof.Machine.execLinkStuck p port s
  | .resetReqPlot p w => Sys2Proof.Machine.execResetReqPlot p w s
  | .resetReqEngine p w target => Sys2Proof.Machine.execResetReqEngine p w target s
  | .resetReqDie p w target => Sys2Proof.Machine.execResetReqDie p w target s
  | .resetReqPolder p w => Sys2Proof.Machine.execResetReqPolder p w s
  | .resetReqPowerCycle p w => Sys2Proof.Machine.execResetReqPowerCycle p w s
  | .resetHoldoffEnd p idx => Sys2Proof.Machine.execResetHoldoffEnd p idx s
  | .resetComplete p idx => Sys2Proof.Machine.execResetComplete p idx s
  | .ladderTimeout p idx => Sys2Proof.Machine.execLadderTimeout p idx s
  | .recoveryPhaseDone p => Sys2Proof.Machine.execRecoveryPhaseDone p s
  | .recoveryPhaseTimeout p => Sys2Proof.Machine.execRecoveryPhaseTimeout p s
  | .wardenResume p w => Sys2Proof.Machine.execWardenResume p w s
  | .wardenGuardTimeout p => Sys2Proof.Machine.execWardenGuardTimeout p s
  | .probeStart p => Sys2Proof.Machine.execProbeStart p s
  | .probeBatchDone p => Sys2Proof.Machine.execProbeBatchDone p s
  | .probeTimeout p => Sys2Proof.Machine.execProbeTimeout p s
  | .quarantineRelease p w => Sys2Proof.Machine.execQuarantineRelease p w s
  | .amaxReport p => Sys2Proof.Machine.execAmaxReport p s
  | .pumpRatioReport p ch => Sys2Proof.Machine.execPumpRatioReport p ch s
  | .gaugeRelease p w => Sys2Proof.Machine.execGaugeRelease p w s
  | .thermalSample p temps => Sys2Proof.Machine.execThermalSample p temps s
  | .thermalCritTimeout p => Sys2Proof.Machine.execThermalCritTimeout p s
  | .imgSave p w => Sys2Proof.Machine.execImgSave p w s
  | .imgLoad p w => Sys2Proof.Machine.execImgLoad p w s
  | .sqTailDoorbell slot v => Sys2Proof.Machine.execSqTailDoorbell slot v s
  | .cqHeadDoorbell slot v => Sys2Proof.Machine.execCqHeadDoorbell slot v s
  | .commandFetch slot entry => Sys2Proof.Machine.execCommandFetch slot entry s
  | .commandDispatch slot tag => Sys2Proof.Machine.execCommandDispatch slot tag s
  | .cmdNop slot tag => Sys2Proof.Machine.execCmdNop slot tag s
  | .regRead slot tag => Sys2Proof.Machine.execRegRead slot tag s
  | .regWrite slot tag => Sys2Proof.Machine.execRegWrite slot tag s
  | .plotIssue slot tag => Sys2Proof.Machine.execPlotIssue slot tag s
  | .pipeStart slot tag => Sys2Proof.Machine.execPipeStart slot tag s
  | .kvEdit slot tag => Sys2Proof.Machine.execKvEdit slot tag s
  | .updateArm slot tag => Sys2Proof.Machine.execUpdateArm slot tag s
  | .mapStage slot tag => Sys2Proof.Machine.execMapStage slot tag s
  | .mapActivate slot tag => Sys2Proof.Machine.execMapActivate slot tag s
  | .restore2408 slot tag counter queue => Sys2Proof.Machine.execRestore2408 slot tag counter queue s
  | .journalRead slot tag => Sys2Proof.Machine.execJournalRead slot tag s
  | .cfgStage slot tag => Sys2Proof.Machine.execCfgStage slot tag s
  | .cfgCommit slot tag => Sys2Proof.Machine.execCfgCommit slot tag s
  | .cfgDiscard slot tag => Sys2Proof.Machine.execCfgDiscard slot tag s
  | .cfgRollback slot tag => Sys2Proof.Machine.execCfgRollback slot tag s
  | .cfgCtrlStage w => Sys2Proof.Machine.execCfgCtrlStage w s
  | .cfgCtrlCommit w => Sys2Proof.Machine.execCfgCtrlCommit w s
  | .cfgCtrlDiscard w => Sys2Proof.Machine.execCfgCtrlDiscard w s
  | .cfgCtrlRollback w => Sys2Proof.Machine.execCfgCtrlRollback w s
  | .commitSwap => Sys2Proof.Machine.execCommitSwap s
  | .commitDrainTimeout => Sys2Proof.Machine.execCommitDrainTimeout s
  | .rwsWrite a w v => Sys2Proof.Machine.execRwsWrite a w v s
  | .fwLoad slot tag image => Sys2Proof.Machine.execFwLoad slot tag image s
  | .fwActivate slot tag => Sys2Proof.Machine.execFwActivate slot tag s
  | .attest slot tag written => Sys2Proof.Machine.execAttest slot tag written s
  | .kreset w => Sys2Proof.Machine.execKreset w s
  | .keeperWatchdog => Sys2Proof.Machine.execKeeperWatchdog s
  | .hostHoldPoint p => Sys2Proof.Machine.execHostHoldPoint p s
  | .keeperReady => Sys2Proof.Machine.execKeeperReady s
  | .keeperBootTimeout => Sys2Proof.Machine.execKeeperBootTimeout s
  | .heldCommandTimeout slot tag => Sys2Proof.Machine.execHeldCommandTimeout slot tag s
  | .inletDataFrame p f => Sys2Proof.Machine.execInletDataFrame p f s
  | .inletCreditFrame p f => Sys2Proof.Machine.execInletCreditFrame p f s
  | .inletNackFrame p f => Sys2Proof.Machine.execInletNackFrame p f s
  | .inletPfcFrame p enable pause => Sys2Proof.Machine.execInletPfcFrame p enable pause s
  | .inletFrameDrop p cause => Sys2Proof.Machine.execInletFrameDrop p cause s
  | .inletFrameDelivered p => Sys2Proof.Machine.execInletFrameDelivered p s
  | .inletSessionWrite p w v => Sys2Proof.Machine.execInletSessionWrite p w v s
  | .inletConsumedWrite p w v => Sys2Proof.Machine.execInletConsumedWrite p w v s
  | .inletCreditTimer p stream => Sys2Proof.Machine.execInletCreditTimer p stream s
  | .inletPfcSend p prio => Sys2Proof.Machine.execInletPfcSend p prio s
  | .inletSnapshotSend p stream => Sys2Proof.Machine.execInletSnapshotSend p stream s
  | .inletBringup p laneFault strelham => Sys2Proof.Machine.execInletBringup p laneFault strelham s
  | .fuseBlowProtMap w idx => Sys2Proof.Machine.execFuseBlowProtMap w idx s
  | .fuseBlowDebugLock w => Sys2Proof.Machine.execFuseBlowDebugLock w s
  | .fuseBlowFieldLock w => Sys2Proof.Machine.execFuseBlowFieldLock w s
  | .fuseBlowDone => Sys2Proof.Machine.execFuseBlowDone s
  | .arbAdvance w => Sys2Proof.Machine.execArbAdvance w s
  | .debugAccess a v => Sys2Proof.Machine.execDebugAccess a v s
  | .pllLockLoss l => Sys2Proof.Machine.execPllLockLoss l s
  | .inputRise => Sys2Proof.Machine.execInputRise s
  | .hotswapChargeDone => Sys2Proof.Machine.execHotswapChargeDone s
  | .vinDip => Sys2Proof.Machine.execVinDip s
  | .vinLoss => Sys2Proof.Machine.execVinLoss s
  | .inputOvercurrent => Sys2Proof.Machine.execInputOvercurrent s
  | .railFault p => Sys2Proof.Machine.execRailFault p s
  | .keeperGroupFault => Sys2Proof.Machine.execKeeperGroupFault s
  | .polderOff p w => Sys2Proof.Machine.execPolderOff p w s
  | .polderOn p w => Sys2Proof.Machine.execPolderOn p w s
  | .modResetAssert => Sys2Proof.Machine.execModResetAssert s
  | .modResetRelease => Sys2Proof.Machine.execModResetRelease s
  | .polderPowerOnSequence p => Sys2Proof.Machine.execPolderPowerOnSequence p s
  | .perstAssert port => Sys2Proof.Machine.execPerstAssert port s
  | .perstRelease port => Sys2Proof.Machine.execPerstRelease port s
  | .eventW1c a w v => Sys2Proof.Machine.execEventW1c a w v s
  | .eventForce a w v => Sys2Proof.Machine.execEventForce a w v s
  | .rcRegisterRead a w => Sys2Proof.Machine.execRcRegisterRead a w s
  | .errCodeRead a w => Sys2Proof.Machine.execErrCodeRead a w s
  | .loHiPairWrite a w lo hi => Sys2Proof.Machine.execLoHiPairWrite a w lo hi s
  | .registerWrite a w v => Sys2Proof.Machine.execRegisterWrite a w v s
  | .unitQueueStart c u => Sys2Proof.Machine.execUnitQueueStart c u s
  | .bar2Access c w addr v => Sys2Proof.Machine.execBar2Access c w addr v s
  | .alignTimeout p port => Sys2Proof.Machine.execAlignTimeout p port s

end Sys2Proof.Machine
end

