-- ==== Sys2Proof/Machine/Tick.lean ====
section
/-! DEFINITION. What time does when nothing is commanded: one cycle of every clock (log 3). Readings and
choices: log 3. Readings and choices: log 3. -/

namespace Sys2Proof.Machine

/-- One cycle of a polder: the field clock runs on, the schedule clock stops under HOLD (R115). -/
def Polder.tick (p : Polder) : Polder :=
  { p with field := p.field + 1, cycle := if p.grid.hold.frozen then p.cycle else p.cycle + 1 }

/-- An image load that waited runs once no cell has RUN = 1 (R425). -/
def State.loadTick (s : State) (q : Pid) : State :=
  if (s.pol q).gauge.imgWait && s.live q 5 then s.onPol q fun x p => p.imgTick x else s

/-- One cycle of the module. -/
def State.tick (s : State) : State :=
  let s := { s with
    ticks := s.ticks + 1
    pols := ⟨s.pols.p0.tick, s.pols.p1.tick, s.pols.p2.tick, s.pols.p3.tick⟩ }
  (List.finRange 4).foldl State.loadTick s

end Sys2Proof.Machine
end

