-- ==== Sys2Proof/Safety.lean ====
section
/-! DEFINITION. The terms the claims are stated in: what a command may change, and the canonical form of the
machine's data. -/

namespace Sys2Proof.Machine

/-- No fuse that was blown is unblown, and what is fused at manufacture stays (R460). -/
structure Fuses.Grows (f g : Fuses) : Prop where
  protMap : ∀ i, f.protMap.getLsbD i = true → g.protMap.getLsbD i = true
  debugLock : f.debugLock = true → g.debugLock = true
  fieldLock : f.fieldLock = true → g.fieldLock = true
  arb : ∀ i, f.arb.getLsbD i = true → g.arb.getLsbD i = true
  made : g.fwKey = f.fwKey ∧ g.serial = f.serial ∧ g.pubKey = f.pubKey ∧ g.repair = f.repair ∧ g.bins = f.bins ∧
    g.macs = f.macs

/-- The numbers of the ACTIVE, PREVIOUS and STAGED images (R440). -/
def Module.gens (m : Module) : List W32 := (m.active :: (m.previous.toList ++ m.staged.toList)).map (·.gen)

/-- No image carries the number the next one gets, or a higher one (R440, R441). -/
def Module.GensBelow (m : Module) : Prop := ∀ g ∈ m.gens, g.toNat < m.cfgNext.toNat

/-- A command leads from `s` to `t`: the queue is left, no blown fuse is unblown, no image number is used twice,
and no polder outside `S` changes. -/
structure State.Leads (S : Pid → Prop) (s t : State) : Prop where
  pending : t.pending = s.pending
  fuses : s.mod.fuses.Grows t.mod.fuses
  gens : s.mod.GensBelow → t.mod.GensBelow
  pols : ∀ q, ¬ S q → t.pol q = s.pol q

/-- The polder a location lies in; none for a module register, which can act on every polder. -/
def RegAddr.polder? : RegAddr → Option Pid
  | .polder p _ => some p
  | .module _ => none

def PageAddr.polder? : PageAddr → Option Pid
  | .page a => RegAddr.polder? a
  | .cell c => some c.p

def PllId.polder? : PllId → Option Pid
  | .polder p => some p
  | .keeper | .mgmt => none

/-- The polder a command names (R14); none for the commands of the keeper die and the module. -/
def Instr.polder? : Instr → Option Pid
  | .halt c | .cellHaltComplete c | .nop c | .jmp c | .loop c | .brc c | .fence c | .fenceRelease c | .twait c
  | .twaitRelease c | .movs c | .add c | .addi c | .sub c | .mul c | .and c | .or c | .xor c | .shli c | .shri c
  | .ldi c | .ldhi c | .ld c | .st c | .copy c | .vclr c | .svrd c | .svwr c | .serviceAccessComplete c _ | .send c
  | .recv c | .portQueueStart c | .swait c | .swaitRelease c | .ssig c | .semIncrement c _ _ | .wtok c | .amxs c
  | .amxsComplete c | .mma c | .arrayQueueStart c | .azero c | .aacc c | .ascale c | .acvt c | .vadd c | .vsub c
  | .vmul c | .vfma c | .vmax c | .vmin c | .vscl c | .vrsum c | .vrmax c | .cvt c | .fload c | .feval c | .fbwd c
  | .cellReset c | .celRunWrite c _ | .cellStart c | .celStop c _ | .programStoreWrite c _ _ _ _ | .beatHop c _ _
  | .controlTokenHop c _ | .weirTokenArrival c _ _ | .tokenTakesEffect c _ _ | .semWaitWatchdog c
  | .unitQueueStart c _ | .bar2Access c _ _ _ => some c.p
  | .engineSemIncrement e _ _ | .ringTailWrite e _ _ | .descBurstFetch e | .descBurstLanded e | .descEnterFetching e
  | .engineArm e _ | .engineStop e _ | .engineStopped e | .engineIdle e | .intakeRequestIssue e | .handGateWaitEnd e
  | .intakeDataLanded e _ _ | .intakeRetryTimer e _ | .intakeBeatEmit e _ | .intakeHoldRequest e | .descRetire e
  | .outfallBeatTake e | .outfallWaitRelease e | .outfallWrite e | .reduceWriteSend e
  | .reduceWriteCompletion e _ _ _ | .outfallReissueTimer e _ | .engWaitWatchdog e => some e.p
  | .rngRegisterWrite p _ _ _ | .tideWrap p | .servicePacketHop p _ | .holdFreeze p | .holdResume p
  | .debugHoldWrite p _ _ | .recfgGo p _ | .recfgWaitEnd p | .recfgDone p | .notDrained p | .recfgRelease p _
  | .slotTableWrite p _ _ | .issueGo p _ | .variantTableReadDone p | .plotStart p _ | .startTideMissed p _
  | .issueComplete p _ | .pipeGo p _ | .pipeGateOpen p | .pipeTableReadDone p | .passBegin p | .stashCopyOut p _ _
  | .stashReturn p _ _ | .pipeRunComplete p | .handoffRegisterWrite p _ _ _ _ | .hbmAccessGrant p _ _
  | .accessTableWrite p _ _ _ _ | .kvCreate p | .kvAppend p | .kvFork p | .kvPrepareWrite p | .kvTruncate p
  | .kvDestroy p | .kvPrefetch p | .kvResident p | .kvPinRelease p _ | .kvPrefetchPageDone p | .rangeClear p _
  | .rangeFetch p _ | .rangeEvict p _ | .rangeReservedOp p _ | .rangeDone p | .bwWindowExpiry p | .bar4Access p _ _
  | .tier3Completion p _ _ | .pumpArm p _ _ | .pumpClose p _ _ | .pumpDeadlineExpiry p _ | .pumpGraceExpiry p _
  | .reductionDrained p _ | .normTotalReady p _ | .pumpShardComplete p _ _ | .pumpUpdateComplete p _
  | .snapshotHandoffWaitEnd p _ | .snapshotAbort p _ | .portEnableWrite p _ _ _ | .laneCheckDone p _ _
  | .negotiateRoundEnd p _ _ _ | .trainDone p _ _ _ | .alignDone p _ | .waitExpiry p _ | .retrain p _ _
  | .laneLost p _ | .downIdleEnd p _ | .inPackageBringup p _ _ _ | .flitReceive p _ _ | .flitTransmit p _
  | .ackTimer p _ | .txnRequestIssue p _ | .elasticWaitExpiry p _ | .fabricRead p _ _ | .fabricWrite p _ _
  | .fabricReduceWrite p _ _ | .fabricFetchAdd p _ _ | .fabricCompareSwap p _ _ | .windowOpen p _ | .windowClose p _
  | .windowWriteVisible p _ | .fabricFence p _ _ | .txnCompletion p _ | .requestTimeout p _ | .heartbeatTimer p
  | .heartbeatRx p _ | .peerLossTimeout p _ | .noticePeerLost p _ | .noticePeerUp p _ | .noticeRouteChange p _
  | .noticeDrain p _ | .noticeUser p _ | .noticeSend p _ | .noticePop p _ | .flitForward p _ _ | .flxMapStage p _
  | .flxMapActivate p _ | .mapActivation p _ | .flxMapRetire p _ | .flxMapDrop p _ | .mirrorRecordRx p _ _
  | .mirrorRecordCompletion p _ | .twnPost p _ | .stepEnd p _ | .stepBoundary p | .scalesWritten p | .xfCopy p _
  | .xfZero p _ | .xfComplete p _ | .plotHalt p | .holdOverrun p | .noResponseWatchdog p _ | .internalLinkLost p _
  | .linkStuck p _ | .resetReqPlot p _ | .resetReqEngine p _ _ | .resetReqDie p _ _ | .resetReqPolder p _
  | .resetReqPowerCycle p _ | .resetHoldoffEnd p _ | .resetComplete p _ | .ladderTimeout p _ | .recoveryPhaseDone p
  | .recoveryPhaseTimeout p | .wardenResume p _ | .wardenGuardTimeout p | .probeStart p | .probeBatchDone p
  | .probeTimeout p | .quarantineRelease p _ | .amaxReport p | .pumpRatioReport p _ | .gaugeRelease p _
  | .thermalSample p _ | .thermalCritTimeout p | .imgSave p _ | .imgLoad p _ | .hostHoldPoint p | .inletDataFrame p _
  | .inletCreditFrame p _ | .inletNackFrame p _ | .inletPfcFrame p _ _ | .inletFrameDrop p _ | .inletFrameDelivered p
  | .inletSessionWrite p _ _ | .inletConsumedWrite p _ _ | .inletCreditTimer p _ | .inletPfcSend p _
  | .inletSnapshotSend p _ | .inletBringup p _ _ | .railFault p | .polderOff p _ | .polderOn p _
  | .polderPowerOnSequence p | .alignTimeout p _ => some p
  | .rwsWrite a _ _ | .debugAccess a _ | .loHiPairWrite a _ _ _ => RegAddr.polder? a
  | .eventW1c a _ _ | .eventForce a _ _ | .rcRegisterRead a _ | .errCodeRead a _ | .registerWrite a _ _ => PageAddr.polder? a
  | .pllLockLoss l => PllId.polder? l
  | .sqTailDoorbell _ _ | .cqHeadDoorbell _ _ | .commandFetch _ _ | .commandDispatch _ _ | .cmdNop _ _ | .regRead _ _
  | .regWrite _ _ | .plotIssue _ _ | .pipeStart _ _ | .kvEdit _ _ | .updateArm _ _ | .mapStage _ _ | .mapActivate _ _
  | .restore2408 _ _ _ _ | .journalRead _ _ | .cfgStage _ _ | .cfgCommit _ _ | .cfgDiscard _ _ | .cfgRollback _ _
  | .fwLoad _ _ _ | .fwActivate _ _ | .attest _ _ _ | .heldCommandTimeout _ _ | .cfgCtrlStage _ | .cfgCtrlCommit _
  | .cfgCtrlDiscard _ | .cfgCtrlRollback _ | .kreset _ | .fuseBlowProtMap _ _ | .fuseBlowDebugLock _
  | .fuseBlowFieldLock _ | .arbAdvance _ | .commitSwap | .commitDrainTimeout | .keeperWatchdog | .keeperReady
  | .keeperBootTimeout | .fuseBlowDone | .inputRise | .hotswapChargeDone | .vinDip | .vinLoss | .inputOvercurrent
  | .keeperGroupFault | .modResetAssert | .modResetRelease | .perstAssert _ | .perstRelease _ => none

/-- The polders a command may change. -/
def Instr.within (i : Instr) (q : Pid) : Prop := Instr.polder? i = none ∨ Instr.polder? i = some q

/-- The row of an opcode. -/
def FieldOp.row (o : FieldOp) (c : CellId) : Instr :=
  match o with
  | .halt => .halt c | .nop => .nop c | .jmp => .jmp c | .loop => .loop c | .brc => .brc c | .fence => .fence c
  | .twait => .twait c | .movs => .movs c | .add => .add c | .addi => .addi c | .sub => .sub c | .mul => .mul c
  | .and => .and c | .or => .or c | .xor => .xor c | .shli => .shli c | .shri => .shri c | .ldi => .ldi c
  | .ldhi => .ldhi c | .ld => .ld c | .st => .st c | .copy => .copy c | .vclr => .vclr c | .svrd => .svrd c
  | .svwr => .svwr c | .send => .send c | .recv => .recv c | .swait => .swait c | .ssig => .ssig c
  | .wtok => .wtok c | .amxs => .amxs c | .mma => .mma c | .azero => .azero c | .aacc => .aacc c
  | .ascale => .ascale c | .acvt => .acvt c | .vadd => .vadd c | .vsub => .vsub c | .vmul => .vmul c
  | .vfma => .vfma c | .vmax => .vmax c | .vmin => .vmin c | .vscl => .vscl c | .vrsum => .vrsum c
  | .vrmax => .vrmax c | .cvt => .cvt c | .fload => .fload c | .feval => .feval c | .fbwd => .fbwd c

/-- The cell a command names. -/
def State.cellOf (s : State) (c : CellId) : Cell := (s.pol c.p).cell c.key

/-- The units of a cell take steps: its rails are on, it is not in reset, its polder is not frozen (R31, R393). -/
abbrev State.cellUp (s : State) (c : CellId) : Prop :=
  s.mod.powered c.p = true ∧ (s.pol c.p).cellDown c.key = false ∧ (s.pol c.p).grid.hold.frozen = false

/-- A cell's surroundings now. -/
def State.cellEnv (s : State) (c : CellId) : CellEnv := (s.pol c.p).env ⟨c.p, s.mod, s.free, s.ticks⟩ c.key

/-- The cell past the instruction at its PC. -/
def Cell.advanced (c : Cell) : Cell := { c with pc := c.pc + 1 }

/-- The sequencer of a cell issues the word `i`, which stands at its PC: the cell runs and waits for nothing (R27),
the word is read without error (R54), is legal with its operands (R36), and no queued instruction holds its
registers or tiles (R28). -/
abbrev State.Issues (s : State) (c : CellId) (i : FieldIns) : Prop :=
  s.cellUp c ∧ (s.cellOf c).issuing = true ∧
  SMap.find? (s.cellOf c).upset (8192 + 2 * (s.cellOf c).pc.toNat) = none ∧
  SMap.find? (s.cellOf c).upset (8193 + 2 * (s.cellOf c).pc.toNat) = none ∧
  decodeField (SMap.get (fun _ => 0) (s.cellOf c).prog (s.cellOf c).pc.toNat) = some i ∧ i.legal = true ∧
  (s.cellOf c).interlocked ((s.cellOf c).capture i) = false ∧ ((s.cellOf c).capture i).legal = true

/-- The instruction with the register values the cell reads. -/
def State.issued (s : State) (c : CellId) (i : FieldIns) : Issued := (s.cellOf c).capture i

/-- The surroundings at the cycle the instruction issues in (R28). -/
def State.issueEnv (s : State) (c : CellId) (i : FieldIns) : CellEnv :=
  { s.cellEnv c with now := max (s.cellEnv c).now ((s.cellOf c).readyAt (s.issued c i)) }

/-- The unit of an instruction can start it (R27, R45, R56, R58). -/
def Cell.canStart (c : Cell) (now : Nat) (i : Issued) : Bool :=
  match i.ins.op.unit with
  | .seq | .scalar => true
  | .mem => !c.mem.busy now
  | .array => !c.arr.busy now
  | .vec => !c.vec.busy now && !c.behindMma i
  | .port => c.portQ.isNone && c.portFree i
  | .sync => c.sync.isNone
  | .svc => c.svcQ.isNone && decide (c.svc.length < 4)

/-- The canonical form of the memory: addresses strictly rising, and nothing listed that an unlisted place reads as. -/
def Mem.wf (m : Mem) : Bool :=
  SMap.wf (fun _ => (0 : Byte)) m.mem1 && SMap.wf (fun _ => (0 : Byte)) m.mem2 &&
    SMap.wf (fun _ => false) m.valid1 && SMap.wf (fun _ => false) m.valid2

/-- A polder once what it had for the module has gone out. -/
def Polder.sent (p : Polder) : Polder :=
  { p with ended := [], hostOut := [], gauge := { p.gauge with queue := [] } }

/-- What a polder's blocks read around it now. -/
def State.ctxOf (s : State) (p : Pid) : PolCtx := ⟨p, s.mod, s.free, s.ticks⟩

/-- The state once an access of `w` has been noted (R467). -/
def State.noted (s : State) (w : Who) : State := s.onMod fun m => m.noteDebug w.req

/-- A write of `w` reaches the polder page at `off` (R393, R404, R439, R462 to R467, R485). -/
abbrev State.Admits (s : State) (p : Pid) (off : Nat) (w : Who) : Prop :=
  s.mod.power = .on ∧ ∃ g, polPage off = some g ∧ s.polGate p g.blk.cls off w true = .open

/-- A write of `w` reaches a cell's window (R393, R404, R439, R462 to R467, R485). -/
abbrev State.AdmitsCell (s : State) (c : CellId) (w : Who) : Prop :=
  s.mod.power = .on ∧ s.cellGate c w true = .open

/-- A write of `w` reaches the module page at `off` (R439, R462 to R467, R485). -/
abbrev State.AdmitsMod (s : State) (off : Nat) (w : Who) : Prop :=
  s.mod.power = .on ∧ ∃ g, modPage off = some g ∧ s.modGate g.blk.cls w true = .open

/-- An engine takes steps: its rails are on and it is not in reset (R393). -/
abbrev State.engUp (s : State) (e : EngId) : Prop :=
  s.mod.powered e.p = true ∧ (s.pol e.p).engDown e.key = false

/-- The state once a request that arrived over a port has left the inbound queue (R324). -/
def State.taken (s : State) (p : Pid) (port : Fin 8) (t : Txn) : State := s.onPol p fun _ q => q.takeInbound port.val t

/-- A request that arrived over a port is under its polder's map, which it passes, and its address decodes to a
class (R309, R310, R462, R466). -/
abbrev State.Passes (s : State) (p : Pid) (port : Fin 8) (t : Txn) (write : Bool) : Prop :=
  t.wf = true ∧ s.live p 5 = true ∧ ((s.ctxOf p).module? (s.pol p)).isSome = true ∧
  (s.ctxOf p).isOwn (s.pol p) t.addr = true ∧
  ∃ c, fabClass t.addr = some c ∧
    (t.src.toNat = (s.ctxOf p).ownId (s.pol p) ∨ s.mod.denied (portRequester port.val) c write = false)

/-- A request that passes the map meets this check of its address, incarnation and domain (R310, R317, R320, R393). -/
def State.fabMeets (s : State) (p : Pid) (port : Fin 8) (t : Txn) : Option Status :=
  ((s.taken p port t).pol p).fabCheck (s.ctxOf p) t

/-- A command of the queues has been dispatched and its opcode is `op` (R434, R435). -/
abbrev State.Runs (s : State) (k : Fin 64) (tag : BitVec 16) (op : Nat) (c : Cmd) : Prop :=
  s.mod.power = .on ∧ (s.mod.slot k).find tag = some c ∧ c.phase = .dispatched ∧ entryByte c.entry 0 = op

/-- The same of a command whose target polder is up and takes new work (R393, R443). -/
abbrev State.RunsAt (s : State) (k : Fin 64) (tag : BitVec 16) (op : Nat) (c : Cmd) (q : Pid) : Prop :=
  s.Runs k tag op c ∧ entryTarget c.entry = some q ∧ s.targetDown q op = false ∧ (startOp op = true → s.mod.commit = none)

/-- A command answers the state in which polder `p` is `q` and what `q` has for the module has gone out; nothing
else is changed. -/
abbrev State.Gives (s : State) (i : Instr) (p : Pid) (q : Polder) : Prop :=
  exec i s = .next (s.settle p (s.pol p).summary q)

/-- The same of a command that is a register write of `w`. -/
abbrev State.GivesW (s : State) (w : Who) (i : Instr) (p : Pid) (q : Polder) : Prop :=
  exec i s = .next ((s.noted w).settle p (s.pol p).summary q)

/-- The same of a command the Warden acts on: the rails and the incarnation copy follow it. -/
abbrev State.GivesWdn (s : State) (i : Instr) (p : Pid) (q : Polder) : Prop :=
  exec i s = .next (s.warden p fun _ _ => q)

end Sys2Proof.Machine
end

