-- ==== Sys2Proof/Certificates/Slice0/Obligations.lean ====
section
/-! DEFINITION. The statements for the provers: what each family of commands does, what every command leaves alone,
and the rules of the whole machine. -/

open Sys2Proof Sys2Proof.Machine

/-- The block takes the command at the front of its queue: a step is that command's effect on the state with the rest
of the queue. -/
def Obligations.StepTakesTheFrontCommand : Prop :=
  ∀ (c : Instr) (s : State), step { s with pending := c :: s.pending } = exec c s

/-- With no command waiting one cycle passes: the module's clock and every field clock advance, a schedule clock
unless its polder is frozen; an image load that waits may run; nothing else changes (the model's choice, log 3; R115,
R425). -/
def Obligations.AnEmptyQueuePassesACycle : Prop :=
  ∀ (s : State), s.pending = [] → ∃ t, step s = .next t ∧ t.pending = [] ∧ t.ticks = s.ticks + 1 ∧ ∀ p,
    (t.pol p).field = (s.pol p).field + 1 ∧
    (t.pol p).cycle = (s.pol p).cycle + (if (s.pol p).grid.hold.frozen then 0 else 1) ∧
    ((s.pol p).gauge.imgWait = false → t.pol p = (s.pol p).tick)

/-- Every command whose payload a wire can carry is answered with a next state; every other one stops as ill-formed.
-/
def Obligations.EveryWellFormedCommandTakesEffect : Prop :=
  ∀ (i : Instr) (s : State),
    (i.wf = true → ∃ t, exec i s = .next t) ∧ (i.wf = false → exec i s = .fault .illFormed)

/-- A command that names a polder, or a location in one, changes no other polder; no command touches the queue of
waiting commands (R14, R17). -/
def Obligations.CommandsLeaveOtherPoldersAlone : Prop :=
  ∀ (i : Instr) (s t : State), exec i s = .next t →
    t.pending = s.pending ∧ ∀ q, ¬ Instr.within i q → t.pol q = s.pol q

/-- No step clears a blown fuse, and what is fused at manufacture stays (R460). In no step does an image get the
number of another: the ACTIVE, PREVIOUS and STAGED numbers stay below CFG_NEXT (R440, R441). -/
def Obligations.StepsKeepFusesAndImageNumbers : Prop :=
  (∀ (s t : State), step s = .next t → s.mod.fuses.Grows t.mod.fuses) ∧
  (∀ (s t : State), s.mod.GensBelow → step s = .next t → t.mod.GensBelow)

/-- What a polder hands to the module goes out as journal records, completions, host writes and messages: the other
polders, the queue and every other part of the module stay. -/
def Obligations.SettlingChangesOnlyTheOutgoingQueues : Prop :=
  ∀ (s : State) (p : Pid) (b : Bool) (q : Polder),
    let t := s.settle p b q
    t.pol p = q.sent ∧ (∀ r, r ≠ p → t.pol r = s.pol r) ∧ t.pending = s.pending ∧ t.free = s.free ∧ t.ticks = s.ticks ∧
    t.mod = { s.mod with
      regs := t.mod.regs, slots := t.mod.slots, journals := t.mod.journals, msix := t.mod.msix
      completions := t.mod.completions, hostWrites := t.mod.hostWrites } ∧
    (q.gauge.queue = [] → q.ended = [] → t.mod.journals = s.mod.journals ∧ t.mod.completions = s.mod.completions)

/-- A field-program word is its fields at the bits of R32: a word reads as the fields at those bits, the word of any
fields reads back as those fields, and a legal word has zero in every field its opcode does not use and no reserved
rounding (R32, R36). -/
def Obligations.FieldWordsReadBack : Prop :=
  (∀ i : FieldIns, decodeField i.encode = some i) ∧
  (∀ (w : W64) (i : FieldIns), decodeField w = some i → i.encode = w ∧
    i.op.code = bitsN w 58 6 ∧ i.rd = bits w 53 5 ∧ i.ra = bits w 48 5 ∧ i.rb = bits w 43 5 ∧ i.rc = bits w 38 5 ∧
    i.fmt = bits w 34 4 ∧ i.rnd = bits w 32 2 ∧ i.imm = bits w 0 32) ∧
  ∀ i : FieldIns, i.legal = true → i.rnd ≠ 3 ∧ i.rd &&& ~~~i.op.form.rd = 0 ∧ (i.op.form.ra = false → i.ra = 0) ∧
    (i.op.form.rb = false → i.rb = 0) ∧ (i.op.form.rc = false → i.rc = 0) ∧ (i.op.form.fmt = false → i.fmt = 0) ∧
    (i.op.form.rnd = false → i.rnd = 0) ∧ i.imm &&& ~~~i.op.form.imm = 0

/-- A slot-table write that breaks the spacing across a seam is ignored and raises TBL_REFUSED; whatever is written,
tables that keep the spacing still keep it (R97, R129). -/
def Obligations.SlotTableWritesKeepTheSpacing : Prop :=
  ∀ (p : Pid) (s : State) (w : Who) (v : W32), s.Admits p (GRD + 0x58) w →
    let q := s.pol p
    let sel := q.sel (GRD + 0x54) w
    let cell := sel % 256 * 160 + sel / 256 % 256
    let out := sel / 2 ^ 16 % 8
    let slot := sel / 2 ^ 20 % 64
    let near := fun (i j : Nat) => (i + 64 - j) % 64 < 4 ∨ (j + 64 - i) % 64 < 4
    let spaced := fun (g : Grid) => ∀ k o i j, k < 40960 → o < 4 → crossesSeam k o = true → i < 64 → j < 64 → i ≠ j →
      (g.slotAt 0 k o i).getLsbD 15 = true → (g.slotAt 0 k o j).getLsbD 15 = true → ¬ near i j
    (∀ i, sel / 2 ^ 19 % 2 = 0 → out < 4 → crossesSeam cell out = true → v.getLsbD 15 = true → i < 64 → i ≠ slot →
      (q.grid.slotAt 0 cell out i).getLsbD 15 = true → near slot i →
      s.GivesW w (.slotTableWrite p w v) p (q.raise GRD 9)) ∧
    (spaced q.grid → ∃ t, exec (.slotTableWrite p w v) s = .next t ∧ spaced (t.pol p).grid)

/-- Reset: the module is in module reset with its rails off, generation 0 is ACTIVE, the first image will be number 1,
no command waits, the image numbers are in order and the memories of every polder are in their canonical form (R440,
R441, R484, R519). -/
def Obligations.ResetLeavesTheModuleInReset : Prop :=
  let s := State.reset
  s.pending = [] ∧ s.mod.power = .modReset ∧ (∀ p, s.mod.powered p = false) ∧ s.mod.cfgNext = 1 ∧
    s.mod.active = Image.zero ∧ s.mod.previous = none ∧ s.mod.staged = none ∧ s.mod.GensBelow ∧
    (∀ p, (s.pol p).mem.wf = true ∧ (s.pol p).grid.cells = []) ∧
    (∀ p, ∀ e ∈ [(WDN + 0x40, 0x105), (WDN + 0x54, 0x1000), (WDN + 0x58, 100000), (WDN + 0x5C, 2000), (WDN + 0x80, 10000),
      (ENGP 0 + 0x48, 3), (ENGP 8 + 0x48, 3), (PMP + 0x140, 1000), (PMP + 0x144, 16), (SPWKV + 0x94, 2), (FLP 0 + 0x74, 8),
      (FLX0 + 0x44, 100), (FLX0 + 0x48, 10000), (FLX0 + 0x4C, 50), (TWN + 0x4C, 6), (INL + 0x60, 1000), (GRD + 0x14, 0)],
      (s.pol p).rd e.1 = BitVec.ofNat 32 e.2) ∧
    (∀ p, ∀ e ∈ [(GAU + 0x40, 0x3F), (GAU + 0x68, 0x1040), (GAU + 0x7C, 0x27100032), (FLX0 + 0x40, 0xFFFF),
      (INL + 0x5C, 0x40000), (INL + 0xA8, 16)], s.cfg p e.1 = BitVec.ofNat 32 e.2) ∧
    (∀ k : Fin 64, s.mod.cfg (KQ + 0x44) k.val = if k = 0 then 0 else 0xFFFF)

/-- Scalar arithmetic writes its result to RD; a write of g0 is ignored; the PC moves on (R25, R34). MOVS reads the
tide, the slot, the stream extents, the cell's place and polder, and the loop counters (R34). -/
def Obligations.ScalarInstructionsWriteTheirResult : Prop :=
  (∀ (c : CellId) (s : State) (i : FieldIns), s.Issues c i →
     let g := (s.cellOf c).getG
     let writes := fun (row : Instr) (v : W64) =>
       ∃ t, exec row s = .next t ∧ t.cellOf c = (s.cellOf c).advanced.setG i.rd v
     (i.op = .add → writes (.add c) (g i.ra + g i.rb)) ∧
     (i.op = .addi → writes (.addi c) (g i.ra + i.imm.signExtend 64)) ∧
     (i.op = .sub → writes (.sub c) (g i.ra - g i.rb)) ∧
     (i.op = .mul → writes (.mul c) (g i.ra * g i.rb)) ∧
     (i.op = .and → writes (.and c) (g i.ra &&& g i.rb)) ∧
     (i.op = .or → writes (.or c) (g i.ra ||| g i.rb)) ∧
     (i.op = .xor → writes (.xor c) (g i.ra ^^^ g i.rb)) ∧
     (i.op = .shli → writes (.shli c) (g i.ra <<< bitsN i.imm 0 6)) ∧
     (i.op = .shri → writes (.shri c) (g i.ra >>> bitsN i.imm 0 6)) ∧
     (i.op = .ldi → writes (.ldi c) (i.imm.signExtend 64)) ∧
     (i.op = .ldhi → writes (.ldhi c) (i.imm ++ bits (g i.rd) 0 32))) ∧
  (∀ (c : CellId) (s : State) (i : FieldIns), s.Issues c i → i.op = .movs →
     let cell := s.cellOf c
     let now := (s.issueEnv c i).now
     let k := bitsN i.imm 0 4
     let reads := fun (v : Nat) =>
       ∃ t, exec (.movs c) s = .next t ∧ t.cellOf c = cell.advanced.setG i.rd (BitVec.ofNat 64 v)
     (k = 0 → reads (cell.tide now)) ∧ (k = 1 → reads (now % 64)) ∧
     (∀ j : Fin 3, k = 2 + j.val → reads (cell.extent j.val)) ∧
     (k = 5 → reads c.row.val) ∧ (k = 6 → reads c.col.val) ∧ (k = 7 → reads c.p.val) ∧
     (∀ j : BitVec 3, k = 8 + j.toNat → reads (cell.getCnt j).toNat))

/-- NOP, JMP, LOOP and BRC move the PC and the loop counters as R34 states. HALT drains the cell, and FENCE holds
issue until every earlier write has landed (R34). -/
def Obligations.ControlFlowMovesThePc : Prop :=
  (∀ (c : CellId) (s : State) (i : FieldIns), s.Issues c i →
     let cell := s.cellOf c
     let k := bits i.rd 0 3
     let target := bits i.imm 0 10
     let n := if bits i.imm 16 16 = 0 then bits (cell.getG i.ra) 0 16 else bits i.imm 16 16
     let leaves := fun (row : Instr) (d : Cell) => ∃ t, exec row s = .next t ∧ t.cellOf c = d
     (i.op = .nop → leaves (.nop c) cell.advanced) ∧
     (i.op = .jmp → leaves (.jmp c) { cell with pc := target }) ∧
     (i.op = .loop → n ≠ 0 → leaves (.loop c) (cell.advanced.setCnt k n)) ∧
     (i.op = .loop → n = 0 → leaves (.loop c) { cell with pc := target }) ∧
     (i.op = .brc → cell.getCnt k = 0 → leaves (.brc c) cell.advanced) ∧
     (i.op = .brc → cell.getCnt k = 1 → leaves (.brc c) (cell.advanced.setCnt k 0)) ∧
     (i.op = .brc → 1 < (cell.getCnt k).toNat →
       leaves (.brc c) ({ cell with pc := target }.setCnt k (cell.getCnt k - 1)))) ∧
  (∀ (c : CellId) (s : State) (i : FieldIns), s.Issues c i → (s.cellOf c).gather = [] →
     let cell := s.cellOf c
     let leaves := fun (row : Instr) (d : Cell) => ∃ t, exec row s = .next t ∧ t.cellOf c = d
     (i.op = .halt → leaves (.halt c) { cell.advanced with drain := .halt }) ∧
     (i.op = .fence → cell.writesDone = true → leaves (.fence c) cell.advanced) ∧
     (i.op = .fence → cell.writesDone = false → leaves (.fence c) { cell.advanced with drain := .fence }))

/-- Every row of the field program (HALT, NOP, JMP, LOOP, BRC, FENCE, TWAIT, MOVS, ADD, ADDI, SUB, MUL, AND, OR, XOR,
SHLI, SHRI, LDI, LDHI, LD, ST, COPY, VCLR, SVRD, SVWR, SEND, RECV, SWAIT, SSIG, WTOK, AMXS, MMA, AZERO, AACC, ASCALE,
ACVT, VADD, VSUB, VMUL, VFMA, VMAX, VMIN, VSCL, VRSUM, VRMAX, CVT, FLOAD, FEVAL, FBWD): an instruction that issues to
a free unit and meets no fault takes the effect of its opcode at once and holds its unit for its time (R27, R28, R34).
-/
def Obligations.ProgramRowsTakeTheirEffect : Prop :=
  ∀ (c : CellId) (s : State) (i : FieldIns) (d : Cell) (out : List CellOut), s.Issues c i →
    let e := s.issueEnv c i
    let j := s.issued c i
    (s.cellOf c).advanced.canStart e.now j = true → runOf i.op e j (s.cellOf c).advanced = ⟨d, none, out⟩ →
    ∃ t, exec (i.op.row c) s = .next t ∧ t.cellOf c = d.occupy e.now false j ∧
      (t.pol c.p).grid = (((s.pol c.p).setCell c.key (d.occupy e.now false j)).emit out).grid

/-- An instruction whose operation faults leaves its cell FAULTED, with the error recorded at its PC (R63). A word at
the PC with a reserved opcode, or one that is not legal, faults the cell with ILLEGAL_OP whichever row issues it, and
takes no effect (R36, R63). -/
def Obligations.FaultingInstructionsFaultTheirCell : Prop :=
  (∀ (c : CellId) (s : State) (i : FieldIns) (d : Cell) (f : CFault) (out : List CellOut), s.Issues c i →
     let e := s.issueEnv c i
     let j := s.issued c i
     (s.cellOf c).advanced.canStart e.now j = true → runOf i.op e j (s.cellOf c).advanced = ⟨d, some f, out⟩ →
     d.st ≠ .faulted →
     ∃ t, exec (i.op.row c) s = .next t ∧ (t.cellOf c).st = .faulted ∧ (t.cellOf c).run = false ∧
       (t.cellOf c).rd 0x90 = (s.cellOf c).pc.setWidth 32 ∧ (t.cellOf c).rd 0x24 = errWord f.code f.ev 1 0 ∧
       (t.cellOf c).rd 0x28 = BitVec.ofNat 32 f.addr) ∧
  (∀ (c : CellId) (s : State) (o : FieldOp), s.cellUp c → (s.cellOf c).issuing = true →
     SMap.find? (s.cellOf c).upset (8192 + 2 * (s.cellOf c).pc.toNat) = none →
     SMap.find? (s.cellOf c).upset (8193 + 2 * (s.cellOf c).pc.toNat) = none →
     let w := SMap.get (fun _ => 0) (s.cellOf c).prog (s.cellOf c).pc.toNat
     (decodeField w = none ∨ ∃ i, decodeField w = some i ∧ i.op = o ∧ i.legal = false) →
     ∃ t, exec (o.row c) s = .next t ∧ t.cellOf c = (s.cellOf c).fault CFault.illegal (s.cellOf c).pc)

/-- TWAIT and SWAIT go on, or wait (R57, R58). A halt or stop completes when everything issued has completed; a fence,
a TWAIT and an SWAIT release the sequencer when what they wait for is there (R34, R57, R58, R528). -/
def Obligations.WaitsHoldAndEnd : Prop :=
  (∀ (c : CellId) (s : State) (i : FieldIns), s.Issues c i → (s.cellOf c).sync = none →
     let cell := s.cellOf c
     let now := (s.issueEnv c i).now
     let t : W32 := bits (cell.getG i.ra) 0 32 + BitVec.ofNat 32 (bitsN i.imm 6 16)
     let slot := bitsN i.imm 0 6
     let target := t.toNat * 64 + slot
     let here := cell.tide now * 64 + now % 64
     let n := bitsN i.imm 4 8
     let k : Fin 16 := ⟨bitsN i.imm 12 4, BitVec.isLt _⟩
     let leaves := fun (row : Instr) (d : Cell) => ∃ t, exec row s = .next t ∧ t.cellOf c = d
     (i.op = .twait → target = here → leaves (.twait c) cell.advanced) ∧
     (i.op = .twait → here < target →
       leaves (.twait c) { cell.advanced with sync := some (.twait t slot), st := .waitTide }) ∧
     (i.op = .twait → target < here → leaves (.twait c) (cell.advanced.fault CFault.steerLate cell.pc)) ∧
     (i.op = .swait → n ≤ cell.sem k.val → leaves (.swait c) (cell.advanced.setSem k.val (cell.sem k.val - n))) ∧
     (i.op = .swait → cell.sem k.val < n →
       leaves (.swait c) { cell.advanced with sync := some (.swait k n), st := .waitSem })) ∧
  (∀ (c : CellId) (s : State), s.cellUp c →
     let cell := s.cellOf c
     let leaves := fun (row : Instr) (d : Cell) => ∃ t, exec row s = .next t ∧ t.cellOf c = d ∧
       ∀ k, k ≠ c.key → (t.pol c.p).cell k = (s.pol c.p).cell k
     ((cell.drain = .halt ∨ cell.drain = .stop) → cell.allDone = true → ∀ d, cell.run1 flushAll = d → d.st ≠ .faulted →
       leaves (.cellHaltComplete c) ({ d with st := .halted, run := false, drain := .none }.raise evHalted)) ∧
     (cell.drain = .fence → cell.writesDone = true → leaves (.fenceRelease c) { cell with drain := .none }) ∧
     (∀ tide slot, cell.sync = some (.twait tide slot) →
       leaves (.twaitRelease c) { cell with sync := none, st := .running }) ∧
     (∀ k n, cell.sync = some (.swait k n) → n ≤ cell.sem k.val →
       leaves (.swaitRelease c) { cell.setSem k.val (cell.sem k.val - n) with sync := none, st := .running }) ∧
     (∀ k n, cell.sync = some (.swait k n) → cell.sem k.val < n → leaves (.swaitRelease c) cell))

/-- SSIG sends an increment, WTOK a control token and AMXS a report; each leaves the cell otherwise as it was (R57,
R59, R60). -/
def Obligations.SignalsLeaveTheCell : Prop :=
  ∀ (c : CellId) (s : State) (i : FieldIns), s.Issues c i → (s.cellOf c).sync = none →
    let cell := s.cellOf c
    let now := (s.issueEnv c i).now
    let g := (s.pol c.p).grid
    let dest := bitsN i.imm 24 8 * 160 + bitsN i.imm 16 8
    (i.op = .ssig → i.imm.getLsbD 3 = false → dest ≠ c.key → ∃ t, exec (.ssig c) s = .next t ∧
      t.cellOf c = cell.advanced ∧ (t.pol c.p).grid.incrs = g.incrs ++
        [⟨false, dest, bitsN i.imm 12 4, bitsN i.imm 4 8, now + linkTime c.key dest + 4⟩]) ∧
    (i.op = .ssig → i.imm.getLsbD 3 = false → dest = c.key → ∃ t, exec (.ssig c) s = .next t ∧
      t.cellOf c = cell.advanced ∧ (t.pol c.p).grid.incrs = g.incrs ++
        [⟨false, dest, bitsN i.imm 12 4, bitsN i.imm 4 8, now + 1⟩]) ∧
    (i.op = .ssig → i.imm.getLsbD 3 = true → ∃ t, exec (.ssig c) s = .next t ∧
      t.cellOf c = cell.advanced ∧ (t.pol c.p).grid.incrs = g.incrs ++
        [⟨true, bitsN i.imm 24 8, bitsN i.imm 12 4, bitsN i.imm 4 8,
          now + linkTime c.key (engCell (bitsN i.imm 24 8)) + 6⟩]) ∧
    (i.op = .wtok → (g.nextSlot 1 c.key 6 (fun e => e.getLsbD 15) now).isSome = true →
      ∃ t, exec (.wtok c) s = .next t ∧ t.cellOf c = cell.advanced ∧ (t.pol c.p).grid.tokens = g.tokens ++
        [⟨c.key, 4, dest, bitsN i.imm 13 3, bits (cell.getG i.ra) 0 24, now⟩]) ∧
    (i.op = .amxs → ∃ t, exec (.amxs c) s = .next t ∧ t.cellOf c = { cell.advanced with
      amax := SMap.erase cell.amax (bitsN i.imm 25 2)
      sync := some (.amxs (bits i.imm 0 16) (SMap.get (fun _ => 0) cell.amax (bitsN i.imm 25 2))) })

/-- SEND and RECV begin at their start slot of the current tide, unless it has gone by (R58). SVRD sends a read of the
remote cell over SERVICE; its access stands until it is answered (R56). -/
def Obligations.PortsAndServiceReadsBegin : Prop :=
  (∀ (c : CellId) (s : State) (i : FieldIns), s.Issues c i → i.op = .send ∨ i.op = .recv →
     (s.cellOf c).portQ = none → (s.cellOf c).portFree (s.issued c i) = true →
     let cell := s.cellOf c
     let now := (s.issueEnv c i).now
     let n := (s.issued c i).count
     let a := (if i.op = .send then cell.getG i.ra else cell.getG i.rd).toNat
     let slot := bitsN i.imm 0 6
     addrOk a (32 * n) 32 4 = true → n ≠ 0 →
     (now % 64 ≤ slot → ∃ t, exec (i.op.row c) s = .next t ∧ t.cellOf c = { cell.advanced with
       ports := cell.ports ++ [{ isSend := decide (i.op = .send), circ := ⟨bitsN i.imm 29 3, BitVec.isLt _⟩, addr := a
                                 left := n, flag := i.imm.getLsbD 28, from_ := now - now % 64 + slot, began := now
                                 pc := cell.pc }] }) ∧
     (slot < now % 64 → ∃ t, exec (i.op.row c) s = .next t ∧
       t.cellOf c = cell.advanced.fault CFault.steerLate cell.pc)) ∧
  (∀ (c : CellId) (s : State) (i : FieldIns), s.Issues c i → i.op = .svrd →
     (s.cellOf c).svcQ = none → (s.cellOf c).svc.length < 4 →
     let cell := s.cellOf c
     let n := (s.issued c i).count
     let loc := (cell.getG i.rd).toNat
     let rem := (cell.getG i.ra).toNat
     let dest := bitsN i.imm 24 8 * 160 + bitsN i.imm 16 8
     addrOk loc (8 * n) 8 8 = true → addrOk rem (8 * n) 8 8 = true → n ≠ 0 →
     ∃ t, exec (.svrd c) s = .next t ∧
       t.cellOf c = { cell.advanced with svc := cell.svc ++ [
         { place := cell.svcPlace, isRead := true, target := dest, localAddr := loc, remoteAddr := rem, len := n
           sem := ⟨bitsN i.imm 12 4, BitVec.isLt _⟩, pc := cell.pc, answer := none, data := [] }] } ∧
       (t.pol c.p).grid.svc = (s.pol c.p).grid.svc ++
         [⟨c.key, dest, c.key, cell.svcPlace, (s.pol c.p).wdn.incOfCell c.key, .read rem n⟩])

/-- LD of an accumulator entry reads it whole, zero-extended; ST of 4 bytes to one writes it whole (R26, R34). VCLR
clears the valid bits of whole rows and drops what the gather buffer holds of them (R34, R50). AZERO writes zero to
every entry of its tiles, and to no other (R44). -/
def Obligations.LoadsStoresAndClearsReachTheirPlaces : Prop :=
  (∀ (c : CellId) (s : State) (i : FieldIns) (e : Nat), s.Issues c i → (s.cellOf c).shadow = false →
     (s.cellOf c).mem.busy (s.issueEnv c i).now = false → i.fmt = 2 → e < 4096 →
     SMap.find? (s.cellOf c).upset (4096 + e) = none →
     let cell := s.cellOf c
     (cell.getG i.ra + i.imm.signExtend 64).toNat = 0x10000 + 4 * e →
     (i.op = .ld → ∃ t, exec (.ld c) s = .next t ∧
       (t.cellOf c).getG i.rd = (if i.rd = 0 then 0 else (cell.getAcc e).setWidth 64) ∧
       (∀ r, r ≠ i.rd → (t.cellOf c).getG r = cell.getG r) ∧ (t.cellOf c).acc = cell.acc ∧
       (t.cellOf c).spad = cell.spad) ∧
     (i.op = .st → ∃ t, exec (.st c) s = .next t ∧ (t.cellOf c).getAcc e = bits (cell.getG i.rb) 0 32 ∧
       (∀ k, k ≠ e → (t.cellOf c).getAcc k = cell.getAcc k) ∧ (t.cellOf c).spad = cell.spad ∧
       (t.cellOf c).g = cell.g)) ∧
  (∀ (c : CellId) (s : State) (i : FieldIns), s.Issues c i → i.op = .vclr → (s.cellOf c).shadow = false →
     (s.cellOf c).mem.busy (s.issueEnv c i).now = false →
     let cell := s.cellOf c
     let n := (s.issued c i).count
     let a := (cell.getG i.ra).toNat
     a % 128 = 0 → a + 128 * n ≤ 0x10000 →
     ∃ t, exec (.vclr c) s = .next t ∧
       (∀ u, a / 16 ≤ u → u < a / 16 + 8 * n → SMap.find? (t.cellOf c).spad u = none) ∧
       (∀ u, u < a / 16 ∨ a / 16 + 8 * n ≤ u → SMap.find? (t.cellOf c).spad u = SMap.find? cell.spad u) ∧
       (∀ e ∈ (t.cellOf c).gather, e.unit < a / 16 ∨ a / 16 + 8 * n ≤ e.unit) ∧ (t.cellOf c).acc = cell.acc) ∧
  (∀ (c : CellId) (s : State) (i : FieldIns), s.Issues c i → i.op = .azero → (s.cellOf c).shadow = false →
     (s.cellOf c).vec.busy (s.issueEnv c i).now = false → (s.cellOf c).behindMma (s.issued c i) = false →
     let n := (s.issued c i).count
     i.tile + n ≤ 64 →
     ∃ t, exec (.azero c) s = .next t ∧
       (∀ k, 64 * i.tile ≤ k → k < 64 * (i.tile + n) → (t.cellOf c).getAcc k = 0) ∧
       (∀ k, k < 64 * i.tile ∨ 64 * (i.tile + n) ≤ k → (t.cellOf c).getAcc k = (s.cellOf c).getAcc k) ∧
       (t.cellOf c).spad = (s.cellOf c).spad ∧ (t.cellOf c).g = (s.cellOf c).g)

/-- What no row of the field program changes: every other cell, the tables and weirs of the routers, the beats under
way, every engine, memory, Pump channel and port, and every register outside the grid's own page. -/
def Obligations.ProgramRowsChangeTheirCellOnly : Prop :=
  ∀ (o : FieldOp) (c : CellId) (s t : State), exec (o.row c) s = .next t →
    let p := s.pol c.p
    let q := t.pol c.p
    (∀ k, k ≠ c.key → q.cell k = p.cell k) ∧
    (q.grid.slots = p.grid.slots ∧ q.grid.weirs = p.grid.weirs ∧ q.grid.epochs = p.grid.epochs ∧
      q.grid.queues = p.grid.queues ∧ q.grid.beats = p.grid.beats ∧ q.grid.edge = p.grid.edge ∧
      q.grid.hold = p.grid.hold ∧ q.grid.issues = p.grid.issues ∧ q.grid.pipe = p.grid.pipe ∧
      q.grid.rngKey = p.grid.rngKey ∧ q.grid.rngStep = p.grid.rngStep) ∧
    (q.engines = p.engines ∧ q.mem = p.mem ∧ q.chans = p.chans ∧ q.ports = p.ports ∧ q.flx = p.flx ∧
      q.twin = p.twin ∧ q.wdn = p.wdn ∧ q.inlet = p.inlet ∧ q.held = p.held) ∧
    ∀ off place, off < 2 ^ 26 → off / 0x1000 ≠ GRD / 0x1000 → q.rd off place = p.rd off place

/-- A unit that is busy takes one instruction into its queue, and the sequencer goes on (R27). An instruction in a
unit's queue leaves it and takes the effect of its opcode (R27, R41, R45, R56, R58). -/
def Obligations.UnitQueuesHoldAndStart : Prop :=
  (∀ (c : CellId) (s : State) (i : FieldIns), s.Issues c i →
     let cell := s.cellOf c
     let now := (s.issueEnv c i).now
     let j := s.issued c i
     let leaves := fun (d : Cell) => ∃ t, exec (i.op.row c) s = .next t ∧ t.cellOf c = d
     (i.op.unit = .mem → cell.mem.busy now = true → cell.mem.queue = none →
       leaves { cell.advanced with mem := { cell.mem with queue := some j } }) ∧
     (i.op.unit = .array → cell.arr.busy now = true → cell.arr.queue = none →
       leaves { cell.advanced with arr := { cell.arr with queue := some j } }) ∧
     (i.op.unit = .vec → cell.vec.busy now = true → cell.vec.queue = none →
       leaves { cell.advanced with vec := { cell.vec with queue := some j } }) ∧
     (i.op.unit = .port → cell.portQ = none → cell.portFree j = false → leaves { cell.advanced with portQ := some j }) ∧
     (i.op.unit = .sync → cell.sync ≠ none → cell.syncQ = none → leaves { cell.advanced with syncQ := some j }) ∧
     (i.op.unit = .svc → cell.svcQ = none → 4 ≤ cell.svc.length → leaves { cell.advanced with svcQ := some j })) ∧
  (∀ (c : CellId) (s : State) (i : Issued) (d : Cell) (out : List CellOut), s.cellUp c →
     let cell := s.cellOf c
     let e := s.cellEnv c
     let starts := fun (row : Instr) (from_ : Cell) (now : Nat) (queued : Bool) =>
       runOf i.ins.op { e with now := now } i from_ = ⟨d, none, out⟩ →
       ∃ t, exec row s = .next t ∧ t.cellOf c = d.occupy now queued i
     (cell.mem.queue = some i → starts (.unitQueueStart c .mem) { cell with mem := { cell.mem with queue := none } }
       (max e.now cell.mem.free) false) ∧
     (cell.vec.queue = some i → cell.vec.wait = none → cell.behindMma i = false →
       starts (.unitQueueStart c .vec) { cell with vec := { cell.vec with queue := none } } (max e.now cell.vec.free) false) ∧
     (cell.vec.queue = some i → cell.vec.wait = none → cell.behindMma i = true → ∃ t, exec (.unitQueueStart c .vec) s = .next t ∧
       t.cellOf c = { cell with vec := { cell.vec with queue := none, wait := some i } }) ∧
     (cell.svcQ = some i → cell.svc.length < 4 →
       starts (.unitQueueStart c .svc) { cell with svcQ := none } e.now false) ∧
     (cell.portQ = some i → cell.portFree i = true →
       starts (.portQueueStart c) { cell with portQ := none } e.now false) ∧
     (cell.arr.queue = some i → i.ins.op = .mma → cell.vec.wait = none → d.vec.wait = none →
       starts (.arrayQueueStart c) { cell with arr := { cell.arr with queue := none } }
         (max e.now (max cell.arr.free (cell.readyAt i))) true))

/-- An increment reaches its semaphore, which saturates at 255 with a fault; a finished SERVICE access increments the
semaphore it names; the Gauge takes an AMXS report (R56, R57, R60, R110). -/
def Obligations.IncrementsAndReportsLand : Prop :=
  ∀ (c : CellId) (s : State), s.mod.powered c.p = true → (s.pol c.p).cellDown c.key = false →
    let cell := s.cellOf c
    let p := s.pol c.p
    (∀ (k : Fin 16) (n : Byte), takeIncr false c.key k.val n.toNat p.grid.incrs = none →
      (cell.sem k.val + n.toNat ≤ 255 →
        s.Gives (.semIncrement c k n) c.p (p.setCell c.key (cell.setSem k.val (cell.sem k.val + n.toNat)))) ∧
      (255 < cell.sem k.val + n.toNat →
        s.Gives (.semIncrement c k n) c.p
          (p.setCell c.key ((cell.setSem k.val 255).fault ⟨Status.internal, evSemOverflow, 0⟩ cell.pc)))) ∧
    (∀ (i : Fin 4) (a : SvcAcc), cell.svc.find? (fun a => a.place == i.val) = some a →
      let rest := cell.svc.filter fun b => b.place ≠ a.place
      (a.answer = none → s.Gives (.serviceAccessComplete c i) c.p p) ∧
      (a.answer = some Status.done → a.isRead = false → cell.sem a.sem.val < 255 →
        s.Gives (.serviceAccessComplete c i) c.p
          (p.setCell c.key ({ cell with svc := rest }.setSem a.sem.val (cell.sem a.sem.val + 1)))) ∧
      (∀ st, a.answer = some st → st ≠ Status.done → st ≠ Status.dataUncorrectable →
        s.Gives (.serviceAccessComplete c i) c.p
          (p.setCell c.key ({ cell with svc := rest }.fault ⟨st, 31, a.remoteAddr⟩ a.pc)))) ∧
    (∀ (t : BitVec 16) (v : W32), p.grid.hold.frozen = false → cell.sync = some (.amxs t v) → cell.syncQ = none →
      s.Gives (.amxsComplete c) c.p
        ({ p with gauge := { p.gauge with inbox := p.gauge.inbox ++ [AmaxRep.mk c.key t v] } }.setCell c.key
          { cell with sync := none }))

/-- Starting, stopping and resetting a cell, and writing its program store and the polder's random-stream registers
(R64, R66, R91, R128, R527, R528). -/
def Obligations.CellControlTakesEffect : Prop :=
  ∀ (c : CellId) (s : State) (w : Who),
    let cell := s.cellOf c
    let p := s.pol c.p
    (s.mod.powered c.p = true → p.cellDown c.key = true → s.Gives (.cellReset c) c.p (p.setCell c.key Cell.reset)) ∧
    (s.AdmitsCell c w → cell.run = false → s.GivesW w (.celRunWrite c w) c.p (p.setCell c.key
      { cell with run := true, startAt := some (16 * (p.cycle / 1024 + 1)), startIssue := false })) ∧
    (s.AdmitsCell c w → cell.run = true → s.GivesW w (.celRunWrite c w) c.p (p.setCell c.key cell)) ∧
    (∀ tide, s.cellUp c → cell.startAt = some tide → cell.startIssue = false → ∃ t, exec (.cellStart c) s = .next t ∧
      t.cellOf c = { cell with st := .running, run := true, startAt := none, startIssue := false, base := some tide
                               pc := bits (cell.rd 0x40) 0 10 } ∧ 64 * tide ≤ (t.pol c.p).cycle) ∧
    (s.AdmitsCell c w → cell.startAt.isSome = true → s.GivesW w (.celStop c w) c.p (p.setCell c.key
      { cell with run := false, startAt := none, startIssue := false })) ∧
    (s.AdmitsCell c w → cell.startAt = none → cell.st = .running ∨ cell.st = .waitSem ∨ cell.st = .waitTide →
      cell.syncQ = none → (∀ u v, cell.sync ≠ some (.amxs u v)) → s.GivesW w (.celStop c w) c.p (p.setCell c.key
      { cell with drain := .stop, ports := [], portQ := none, sync := none })) ∧
    (∀ (pc : Fin 1024) (hi : Bool) (v : W32), s.AdmitsCell c w → w.req = .keeperFw ∨ w.req = .keeperAgent ∨ w.req = .debug →
      let old := SMap.get (fun _ => 0) cell.prog pc.val
      (cell.run = true → s.GivesW w (.programStoreWrite c w pc hi v) c.p (p.setCell c.key cell)) ∧
      (cell.run = false → s.GivesW w (.programStoreWrite c w pc hi v) c.p (p.setCell c.key { cell with
        prog := SMap.set (fun _ => 0) cell.prog pc.val (if hi then v ++ bits old 0 32 else bits old 32 32 ++ v)
        upset := SMap.erase cell.upset (8192 + 2 * pc.val + bit01 hi) }))) ∧
    (∀ (i : Fin 5) (v : W32), s.Admits c.p (GRD + 0x100 + 4 * i.val) w →
      (p.anyRun = true → s.GivesW w (.rngRegisterWrite c.p w i v) c.p
        (p.onGrid fun g => { g with rngHeld := SMap.insert g.rngHeld i.val v })) ∧
      (p.anyRun = false → s.GivesW w (.rngRegisterWrite c.p w i v) c.p (p.onGrid fun g => g.setRng i.val v)))

/-- A beat that enters a router leaves by the output whose weir selects its input and circuit, in that output's next
reserved slot, and one that no weir selects is discarded and counted; the LOCAL input takes the next beat of the SEND
on its circuit (R58, R99 to R104). -/
def Obligations.BeatsFollowTheWeirs : Prop :=
  ∀ (c : CellId) (port : Fin 6) (circ : Fin 8) (s : State), s.cellUp c →
    let p := s.pol c.p
    let g := p.grid
    (∀ b rest, port ≠ 4 →
      takeFirst (fun b : Beat => b.cell == c.key && b.inp == port.val && b.circ == circ.val) g.beats = some (b, rest) →
      s.Gives (.beatHop c port circ) c.p
        (((p.onGrid fun g => { g with beats := rest }).reach b.arrive).routeBeat b) ∧
      (g.selected b.cell b.inp b.circ = [] → ∃ t, exec (.beatHop c port circ) s = .next t ∧
        (t.pol c.p).grid.beats = rest ∧ (t.pol c.p).rd (GRD + 0x80) = addField (p.rd (GRD + 0x80)) 0 32 1 ∧
        (t.pol c.p).grid.cells = g.cells) ∧
      (∀ o oc, g.selected b.cell b.inp b.circ = [(o, oc)] → o < 4 →
        g.nextSlot 0 b.cell o (fun e => reserves e oc) b.arrive = some b.arrive →
        ∃ t, exec (.beatHop c port circ) s = .next t ∧ (t.pol c.p).grid.beats = rest ++
          [{ cell := neighbour b.cell o, inp := facing o, circ := oc
             cls := bitsN (g.slotAt 0 b.cell o (b.arrive % 64)) 10 2, data := b.data
             arrive := b.arrive + linkCycles b.cell o }] ∧
          (t.pol c.p).grid.cells = g.cells)) ∧
    (∀ o rest n d data,
      takeFirst (fun o : PortOp => o.isSend && o.circ.val == circ.val) (s.cellOf c).ports = some (o, rest) →
      g.nextSlot 0 c.key 6 (fun e => reserves e circ.val) o.from_ = some n →
      (n < o.began + 3 → s.Gives (.beatHop c 4 circ) c.p
        ((p.setCell c.key ((s.cellOf c).fault CFault.steerLate o.pc)).reach n)) ∧
      (o.began + 3 ≤ n → sendData o (s.cellOf c) = .ok data d → s.Gives (.beatHop c 4 circ) c.p
        (((p.setCell c.key { d with ports := if o.left ≤ 1 then rest
            else { o with addr := o.addr + 32, left := o.left - 1, from_ := n + 1 } :: rest }).reach n).routeBeat
          { cell := c.key, inp := 4, circ := circ.val, cls := bitsN (g.slotAt 0 c.key 6 (n % 64)) 10 2
            data := data, arrive := n })))

/-- Control tokens and SERVICE packets move one hop; an accepted token enters its weir's queue, one of a stale epoch
is dropped and counted, one that comes late is a fault, and a token that takes effect sets the weir (R104 to R109). -/
def Obligations.TokensReachAndSetTheWeirs : Prop :=
  ∀ (c : CellId) (s : State), s.cellUp c →
    let p := s.pol c.p
    let g := p.grid
    (∀ (k : Fin 5) t rest n o, takeFirst (fun t : CtlToken => t.cell == c.key && t.inp == k.val) g.tokens = some (t, rest) →
      k ≠ 4 →
      (g.tokenSlot c.key k.val t.arrive = some (n, o) → o ≠ 4 → s.Gives (.controlTokenHop c k) c.p
        (((p.onGrid fun g => { g with tokens := rest }).reach n).onGrid fun g => { g with tokens := g.tokens ++
          [{ t with cell := neighbour c.key o, inp := facing o, arrive := n + linkCycles c.key o }] })) ∧
      (g.tokenSlot c.key k.val t.arrive = some (n, 4) → s.Gives (.controlTokenHop c k) c.p
        (((p.onGrid fun g => { g with tokens := rest }).reach n).onGrid fun g => { g with tokens := g.tokens ++
          [{ t with inp := 5, arrive := n + 1 }] })) ∧
      (g.tokenSlot c.key k.val t.arrive = none → s.Gives (.controlTokenHop c k) c.p
        ((p.onGrid fun g => { g with tokens := rest }).gridFault Status.internal 3 c.key 0))) ∧
    (∀ (i : Nat) k, g.svc[i]? = some k → k.cell ≠ k.dest → s.Gives (.servicePacketHop c.p i) c.p
      (p.onGrid fun g => { g with svc := g.svc.eraseIdx i ++ [{ k with cell := serviceNext k.cell k.dest }] })) ∧
    (∀ (i : Nat) k a n, g.svc[i]? = some k → k.cell = k.dest → k.body = .read a n → p.cellDown k.dest = false →
      let r := (p.cell k.dest).svcRead a n
      s.Gives (.servicePacketHop c.p i) c.p
        (((p.onGrid fun g => { g with svc := g.svc.eraseIdx i }).setCell k.dest r.1).onGrid fun g =>
          { g with svc := g.svc ++ [{ k with dest := k.src, body := .reply r.2.1 r.2.2 }] })) ∧
    (∀ (out : Fin 6) (tok : BitVec 24) t rest,
      takeFirst (fun t : CtlToken => t.cell == c.key && t.inp == 5 && t.out == out.val && t.payload == tok) g.tokens =
        some (t, rest) →
      let q := (p.onGrid fun g => { g with tokens := rest }).reach t.arrive
      let d := (bitsN tok 20 4 + 16 - t.arrive / 64 % 16) % 16
      let slot := bitsN tok 14 6
      (tokenInvalid c.key out.val tok = true → s.Gives (.weirTokenArrival c out tok) c.p
        (q.gridFault Status.internal 3 c.key out.val)) ∧
      (tokenInvalid c.key out.val tok = false → bits tok 12 2 ≠ g.epoch c.key → ∃ u,
        exec (.weirTokenArrival c out tok) s = .next u ∧
        (u.pol c.p).rd (GRD + 0x64) = addField (p.rd (GRD + 0x64)) 0 32 1 ∧ (u.pol c.p).grid.queues = g.queues) ∧
      (tokenInvalid c.key out.val tok = false → bits tok 12 2 = g.epoch c.key →
        ¬ (1 ≤ d ∧ d ≤ 7 ∨ d = 0 ∧ t.arrive % 64 < slot) → s.Gives (.weirTokenArrival c out tok) c.p
        (q.gridFault Status.steerLate 0 c.key out.val)) ∧
      (tokenInvalid c.key out.val tok = false → bits tok 12 2 = g.epoch c.key →
        (1 ≤ d ∧ d ≤ 7 ∨ d = 0 ∧ t.arrive % 64 < slot) → (g.queue c.key out.val).length < 4 →
        s.Gives (.weirTokenArrival c out tok) c.p (q.onGrid fun g => { g with
          queues := SMap.insert g.queues (c.key * 6 + out.val)
            (g.queue c.key out.val ++ [⟨tok, (t.arrive / 64 + d) * 64 + slot⟩]) }))) ∧
    (∀ (out : Fin 6) (i : Fin 4) t, (g.queue c.key out.val)[i.val]? = some t →
      (∀ o ∈ (g.queue c.key out.val).take i.val, t.effect < o.effect) →
      (∀ o ∈ g.queue c.key out.val, t.effect ≤ o.effect) →
      s.Gives (.tokenTakesEffect c out i) c.p ((p.onGrid fun g => { g with
        queues := SMap.set (fun _ => []) g.queues (c.key * 6 + out.val) ((g.queue c.key out.val).eraseIdx i.val)
        weirs := SMap.set (fun _ => WeirSet.off) g.weirs (weirKey c.key out.val (bitsN t.payload 3 3))
          ⟨bits t.payload 9 3, bits t.payload 6 3⟩ }).reach t.effect))

/-- The tide advances when the slot wraps; a HOLD freezes the polder 40 cycles after its request rises, lets it go on
40 cycles after it falls, and is counted with its length (R98, R115, R117). -/
def Obligations.HoldFreezesAndResumesThePolder : Prop :=
  ∀ (p : Pid) (s : State), s.mod.powered p = true →
    let q := s.pol p
    let h := q.grid.hold
    (h.frozen = false → s.Gives (.tideWrap p) p (q.reach (64 * (q.cycle / 64 + 1)))) ∧
    (h.frozen = true → s.Gives (.tideWrap p) p q) ∧
    (∀ (w : Who) (on : Bool), s.Admits p (GRD + 0x0C) w →
      let r := q.wr (GRD + 0x0C) (setField (q.rd (GRD + 0x0C)) 0 1 (bit01 on))
      (r.holdWanted = true → h.asserted = false → s.GivesW w (.debugHoldWrite p w on) p (r.onGrid fun g => { g with hold :=
        { h with asserted := true, src := r.holdFirst, since := q.field, freezeAt := some (q.field + 40) } })) ∧
      (r.holdWanted = false → h.asserted = true → s.GivesW w (.debugHoldWrite p w on) p (r.onGrid fun g => { g with hold :=
        { h with asserted := false, resumeAt := some (q.field + 40) } })) ∧
      (r.holdWanted = h.asserted → s.GivesW w (.debugHoldWrite p w on) p r)) ∧
    (∀ n, h.freezeAt = some n → h.frozen = false → ∃ t, exec (.holdFreeze p) s = .next t ∧
      (t.pol p).grid = { q.grid with hold := { h with frozen := true, began := max q.field n, freezeAt := none } } ∧
      (t.pol p).field = max q.field n ∧ (t.pol p).cycle = q.cycle + (n - q.field) ∧
      (t.pol p).rd (GRD + 0x68) = addField (q.rd (GRD + 0x68)) 0 32 1 ∧
      (t.pol p).rd (GRD + 0x78) = BitVec.ofNat 32 h.src) ∧
    (∀ n, h.resumeAt = some n → h.frozen = true → ∃ t, exec (.holdResume p) s = .next t ∧
      let len := max q.field n - h.began
      (t.pol p).grid = { q.grid with hold := { h with frozen := false, resumeAt := none } } ∧
      (t.pol p).field = max q.field n ∧ (t.pol p).cycle = q.cycle ∧
      (t.pol p).rd (GRD + 0x6C) = addField (q.rd (GRD + 0x6C)) 0 32 len ∧
      (t.pol p).rd (GRD + 0x70) = BitVec.ofNat 32 (satAdd 32 len 0) ∧
      (t.pol p).rd (GRD + 0x74) = BitVec.ofNat 32 (max (q.rdN (GRD + 0x74)) (satAdd 32 len 0)))

/-- Reconfiguration: GO is refused while one is in progress or open; a drained rectangle's epochs advance, its weirs
are set to NONE and it opens; one not drained in four tides is reported; RELEASE closes it; slot tables are written
only inside an open rectangle (R121 to R124, R129). -/
def Obligations.ReconfigurationOpensADrainedPlot : Prop :=
  ∀ (p : Pid) (s : State) (w : Who),
    let q := s.pol p
    let r : Rect := q.rd (GRD + 0x48)
    let c := q.grid.recfg
    (s.Admits p (GRD + 0x4C) w → c.busy = true ∨ c.opened = true ∨ r.malformed = true →
      s.GivesW w (.recfgGo p w) p (q.raise GRD 18)) ∧
    (s.Admits p (GRD + 0x4C) w → c.busy = false → c.opened = false → r.malformed = false →
      s.GivesW w (.recfgGo p w) p (q.onGrid fun g => { g with recfg :=
        { busy := true, waiting := q.tooRecent r || q.issueAhead r, opened := false, rect := r
          accepted := q.tide, started := q.tide } })) ∧
    (s.live p 5 = true → c.busy = true → c.waiting = true → q.issueAhead c.rect = false →
      q.grid.hold.frozen = false → ∃ t, exec (.recfgWaitEnd p) s = .next t ∧ (t.pol p).tooRecent c.rect = false ∧
      (t.pol p).grid = { q.grid with recfg := { c with waiting := false, started := (t.pol p).tide } }) ∧
    (s.live p 5 = true → c.busy = true → c.waiting = false → q.grid.hold.frozen = false → q.tide ≤ c.started + 4 →
      q.drained c.rect = true → c.rect.malformed = false → ∃ t, exec (.recfgDone p) s = .next t ∧
      (t.pol p).grid.recfg = { c with busy := false, opened := true } ∧
      (∀ k o oc, c.rect.hasKey k = true → o < 6 → oc < 8 → (t.pol p).grid.weir k o oc = WeirSet.off) ∧
      (∀ k, (t.pol p).grid.epoch k = if c.rect.hasKey k then q.grid.epoch k + 1 else q.grid.epoch k) ∧
      (∀ k, c.rect.hasKey (k / 48) = false → SMap.find? (t.pol p).grid.weirs k = SMap.find? q.grid.weirs k) ∧
      (t.pol p).grid.cells = q.grid.cells ∧ (t.pol p).grid.slots = q.grid.slots ∧
      bits ((t.pol p).rd (GRD + 0x50)) 0 8 = Status.done) ∧
    (s.live p 5 = true → c.busy = true → c.waiting = false → q.grid.hold.frozen = false → q.drained c.rect = false →
      ∃ t, exec (.notDrained p) s = .next t ∧ (t.pol p).grid = { q.grid with recfg := { c with busy := false } } ∧
      bits ((t.pol p).rd (GRD + 0x50)) 0 8 = Status.notDrained) ∧
    (s.Admits p (GRD + 0x4C) w → s.GivesW w (.recfgRelease p w) p
      (q.onGrid fun g => { g with recfg := { c with opened := false } })) ∧
    (∀ (v : W32), s.Admits p (GRD + 0x58) w →
      let sel := q.sel (GRD + 0x54) w
      let cell := sel % 256 * 160 + sel / 256 % 256
      let e : BitVec 16 := bits v 0 16 &&& (if sel / 2 ^ 19 % 2 = 0 then 0xFC00 else 0xF000)
      (c.opened = false ∨ c.rect.hasKey cell = false → s.GivesW w (.slotTableWrite p w v) p (q.raise GRD 9)) ∧
      (c.opened = true → sel / 256 % 256 < 160 → c.rect.hasKey cell = true →
        tableExists (sel / 2 ^ 19 % 2) cell (sel / 2 ^ 16 % 8) = true →
        (sel / 2 ^ 19 % 2 = 1 ∨ q.grid.breaksSpacing cell (sel / 2 ^ 16 % 8) (sel / 2 ^ 20 % 64) e = false) →
        s.GivesW w (.slotTableWrite p w v) p (q.onGrid fun g => { g with
          slots := SMap.set (fun _ => 0) g.slots
            (slotKey (sel / 2 ^ 19 % 2) cell (sel / 2 ^ 16 % 8) (sel / 2 ^ 20 % 64)) e })))

/-- The issue unit: GO hands a record to it; an issue that passes its checks sets its plot up and waits for its start
tide; one that fails completes with the code of the check; the plot starts at the tide and completes when every cell
is HALTED (R138 to R148). What the end of an issue leaves: its code and variant in GRD_ISSUE_STATUS for an issue of
the register path, a completion for a command's, and the issue gone from the unit (R140, R146, R148, R433). -/
def Obligations.IssuesCheckStartAndComplete : Prop :=
  (∀ (p : Pid) (s : State),
     let q := s.pol p
     (∀ (w : Who), s.Admits p (GRD + 0x84) w → q.issueBusy = true → s.GivesW w (.issueGo p w) p q) ∧
     (∀ (w : Who), s.Admits p (GRD + 0x84) w → q.issueBusy = false → q.grid.issues = [] → s.mod.commit = none →
       let i : Issue := { words := q.issueRec, origin := .reg w.ctx, phase := .waiting, variant := 0, startPc := 0
                          zero := false, ready := 0, startTide := 0, fail := none }
       (recordOk q.issueRec = true → q.plotState i.rect = none → ∃ t, exec (.issueGo p w) s = .next t ∧
         (t.pol p).grid = { q.grid with issues := [{ i with phase := .reading }] }) ∧
       (recordOk q.issueRec = false → ∃ t, exec (.issueGo p w) s = .next t ∧ (t.pol p).grid = q.grid ∧
         (t.pol p).rd (GRD + 0x88) = (0x1FF : W32) ∧ (t.pol p).rd (GRD + 0x8C) = q.rd (GRD + 0x8C))) ∧
     (∀ (i : Issue) (v : Variant) (h e : MemRes) (bk : List (List Nat)) (b0 b1 b2 : Nat),
       s.live p 5 = true → q.grid.issues = [i] → i.phase = .reading →
       let vtab : W64 := recWord i.words 5 ++ recWord i.words 4
       let tier := gaTier vtab
       let x := s.ctxOf p
       let n := b0 + 8 * b1 + 64 * b2
       let i' := { i with variant := n }
       vtab.toNat % 64 = 0 → tier = 1 ∨ tier = 2 → x.isOwn q vtab = true →
       q.memRead x (blockBy i.origin.ctx) tier (gaOff vtab) 64 = h → h.st = Status.done →
       (List.range 3).map (buckets h.data (bitsN (recWord i.words 2) 8 2)) = bk.map some →
       (h.data.drop 51).all (· == 0) = true →
       bucketIdx i.words bk 0 = some b0 → bucketIdx i.words bk 1 = some b1 → bucketIdx i.words bk 2 = some b2 →
       h.p.memRead x (blockBy i.origin.ctx) tier (gaOff vtab + 64 + 16 * n) 16 = e → e.st = Status.done →
       e.p.grid.issues = [i] →
       (((e.data[1]?).getD 0).toNat < 128 → s.Gives (.variantTableReadDone p) p
         ((e.p.onGrid fun g => { g with issues := [i'] }).finishIssue x i' Status.shapeExceedsBucket 4)) ∧
       (128 ≤ ((e.data[1]?).getD 0).toNat → variantOf i.words e.data = some v →
         (64 < accDemand i.words v → s.Gives (.variantTableReadDone p) p
           (((e.p.onGrid fun g => { g with issues := [i'] }).wr (GRD + 0x8C) (demandWord (accDemand i.words v) 0 0)).finishIssue
             x i' Status.accOvercommit 5)) ∧
         (accDemand i.words v ≤ 64 → regionFail i.words v = none → recWord i.words 3 = 0 →
           ∃ t, exec (.variantTableReadDone p) s = .next t ∧
           let ready := e.p.cycle + setupCycles i.words
           (t.pol p).grid.issues = [{ i' with phase := .pending, startPc := v.pc, zero := zeroExtent i.words
                                              ready := ready, startTide := tide16 ready }] ∧
           ∀ k, i.rect.malformed = false → (t.pol p).cell k =
             if i.rect.hasKey k then (e.p.cell k).setUp i.words v.pc else e.p.cell k))) ∧
     (∀ (n : Nat) (j : Issue), s.live p 5 = true → q.grid.issues[n]? = some j → j.phase = .pending → q.grid.hold.frozen = false →
       (j.fail = none → q.mayStart = true → q.scalesBusy = false → q.faultedEngine j.rect = none →
         recWord j.words 3 ≠ 0 → q.cycle ≤ 64 * j.startTide → ∃ t, exec (.plotStart p n) s = .next t ∧
         (t.pol p).grid.issues = q.grid.issues.map (fun i => if i = j then { i with phase := .running } else i) ∧
         (t.pol p).cycle = 64 * j.startTide ∧
         ∀ k, j.rect.malformed = false → (t.pol p).cell k =
           if j.rect.hasKey k then (q.cell k).begin j.startTide else q.cell k) ∧
       (recWord j.words 3 ≠ 0 → q.mayStart = false ∨ q.scalesBusy = true → s.Gives (.startTideMissed p n) p
         ((q.reach (64 * j.startTide)).finishIssue (s.ctxOf p) j Status.steerLate 7))) ∧
     (∀ (n : Nat) (j : Issue), s.live p 5 = true → q.grid.issues[n]? = some j → j.phase = .running → j.fail = none →
       (∀ e ∈ q.grid.cells, j.rect.hasKey e.1 = true → e.2.st ≠ .faulted) →
       (∀ k ∈ j.rect.keys, (q.cell k).st = .halted) →
       s.Gives (.issueComplete p n) p (q.finishIssue (s.ctxOf p) j Status.done 0))) ∧
  (∀ (q : Polder) (x : PolCtx) (i : Issue) (code : Status) (check : Nat), i.phase ≠ .running → check < 8 → i.variant < 65536 →
     let r := q.finishIssue x i code check
     r.grid = { q.grid with issues := q.grid.issues.erase i } ∧ r.mem = q.mem ∧ r.engines = q.engines ∧
     (∀ ctx, i.origin = .reg ctx → bits (r.rd (GRD + 0x88)) 0 8 = code ∧ bitsN (r.rd (GRD + 0x88)) 8 3 = check ∧
       bitsN (r.rd (GRD + 0x88)) 16 16 = i.variant ∧ r.ended = q.ended) ∧
     (∀ slot tag ctx, i.origin = .cmd slot tag ctx → r.ended = q.ended ++ [⟨slot, tag, code, false, 0⟩] ∧
       r.rd (GRD + 0x88) = q.rd (GRD + 0x88)) ∧
     ((r.rd (GRD + 0x14)).getLsbD 11 = true) ∧ (check ≠ 0 → (r.rd (GRD + 0x14)).getLsbD 12 = true))

/-- The fused pipeline: GO reads the header and waits for the gate, which opens when every channel meets its lead; the
table is checked and the stages set up; passes follow one another; stash entries take and return their granules; the
run completes when every cell is HALTED (R149 to R174). -/
def Obligations.PipelinesRunTheirPasses : Prop :=
  ∀ (p : Pid) (s : State),
    let q := s.pol p
    let x := s.ctxOf p
    (∀ (w : Who), s.Admits p (GRD + 0x128) w → q.pipeBusy = true → s.GivesW w (.pipeGo p w) p q) ∧
    (∀ (w : Who), s.Admits p (GRD + 0x128) w → q.pipeBusy = false → s.mod.commit = none → q.grid.pipe ≠ none →
      s.GivesW w (.pipeGo p w) p (q.refusePipe (.reg w.ctx) Status.refusedBusy 2 0 0xFF)) ∧
    (∀ (w : Who) (n : Fin 4) (isDone : Bool) (v : W32), s.Admits p (GRD + 0x148 + 8 * n.val + 4 * bit01 isDone) w →
      s.GivesW w (.handoffRegisterWrite p w n isDone v) p (q.wr (GRD + 0x148 + 8 * n.val + 4 * bit01 isDone) v)) ∧
    (∀ (w : Who) (h : MemRes), s.Admits p (GRD + 0x128) w → q.pipeBusy = false → s.mod.commit = none → q.grid.pipe = none →
      let tab := q.pair (GRD + 0x120)
      let x := (s.noted w).ctxOf p
      tab.toNat % 64 = 0 → gaTier tab = 1 ∨ gaTier tab = 2 → x.isOwn q tab = true →
      q.memRead x (blockBy w.ctx) (gaTier tab) (gaOff tab) 64 = h → h.st = Status.done →
      ∃ t r, exec (.pipeGo p w) s = .next t ∧ (t.pol p).grid = { h.p.grid with pipe := some r } ∧ r.phase = .gate ∧
        r.table = tab ∧ r.gateMask = BitVec.ofNat 4 (leN h.data 10 1) ∧ r.handSeq = BitVec.ofNat 32 (leN h.data 12 4) ∧
        r.leads = wordsOf (h.data.drop 16) 4) ∧
    (∀ (r : PipeRun), s.live p 5 = true → q.grid.pipe = some r →
      (r.phase = .gate → (∀ n < 4, r.gateMask.getLsbD n = true →
          handMeets (q.handSeq n) (q.handDone n) r.handSeq ((r.leads[n]?).getD 0) = true) →
        s.Gives (.pipeGateOpen p) p (q.onGrid fun g => { g with pipe := some { r with phase := .reading } })) ∧
      (r.phase = .gate → (∃ n < 4, r.gateMask.getLsbD n = true ∧
          handMeets (q.handSeq n) (q.handDone n) r.handSeq ((r.leads[n]?).getD 0) = false) →
        s.Gives (.pipeGateOpen p) p q) ∧
      (∀ q' t, r.phase = .reading → q.readTable x r = (q', Status.done, t) →
        (t.headerOk = false → s.Gives (.pipeTableReadDone p) p (q'.refusePipe r.origin Status.internal 1 0 0xFF)) ∧
        (∀ q'' l, t.headerOk = true → (∀ j < t.stages.length, t.stageOk q' x j = true) → (∀ e ∈ t.recs, e.ok = true) →
          Polder.checkStages x r.origin.ctx t t.stages.length t.stages.length q' [] = (q'', .ok l) →
          ∃ u, exec (.pipeTableReadDone p) s = .next u ∧ (u.pol p).grid.pipe = some { r with
            phase := .pending, fused := leN t.hdr 1 1 == 1, m := leN t.hdr 2 2, period := leN t.hdr 4 4
            handSeq := BitVec.ofNat 32 (leN t.hdr 12 4), stages := l.map (·.1)
            t0 := tide16 (q''.cycle + l.foldl (fun m q => max m q.2) 0) })) ∧
      (r.phase = .pending → q.grid.hold.frozen = false → q.mayStart = true → q.scalesBusy = false →
        (∀ st ∈ r.stages, q.faultedEngine st.rect = none) →
        let begins := max r.t0 (tide16 q.cycle)
        ∃ t, exec (.passBegin p) s = .next t ∧ (t.pol p).grid.pipe = some { r with phase := .running, t0 := begins } ∧
          (t.pol p).rd (GRD + 0x130) = BitVec.ofNat 32 begins ∧ (t.pol p).rd (GRD + 0x134) = 0) ∧
      (r.phase = .running → q.grid.hold.frozen = false → r.pass + 1 < r.total →
        ∃ t, exec (.passBegin p) s = .next t ∧ (t.pol p).grid.pipe = some { r with
            pass := r.pass + 1, entries := r.entries.filter fun e => decide (r.bwd e.stage r.pass ≠ some e.micro) } ∧
          (t.pol p).rd (GRD + 0x134) = BitVec.ofNat 32 (r.pass + 1)) ∧
      (∀ (stage : Fin 64) (rec : Fin 32) (st : Stage) (rc : StashRec) (i : Nat), r.phase = .running → r.pass ≠ 0 →
        r.stages[stage.val]? = some st → st.recs[rec.val]? = some rc → r.fwd stage.val (r.pass - 1) = some i →
        rc.policy = 1 → rc.fallback = false →
        (∀ e ∈ r.entries, ¬ (e.stage = stage.val ∧ e.recIdx = rec.val ∧ e.micro = i)) →
        s.Gives (.stashCopyOut p stage rec) p (q.onGrid fun g => { g with pipe := some { r with entries := r.entries ++
          [⟨stage.val, rec.val, i, granule * st.rootAt (depthOf r.stages.length stage.val) rec.val i, rc.gran, false⟩] } })) ∧
      (∀ (stage : Fin 64) (rec : Fin 32), r.phase = .running → s.Gives (.stashReturn p stage rec) p
        (q.onGrid fun g => { g with pipe := some { r with entries := r.entries.map fun e =>
          if e.stage = stage.val ∧ e.recIdx = rec.val ∧ r.bwd stage.val (r.pass + 1) = some e.micro
          then { e with returned := true } else e } })) ∧
      (∀ c, r.fail = some c → r.phase = .running ∨ r.phase = .pending →
        s.Gives (.pipeRunComplete p) p (q.endPipe x r c)) ∧
      (r.fail = none → r.phase = .running → (∀ st ∈ r.stages, q.plotCode st.rect none = some Status.done) →
        s.Gives (.pipeRunComplete p) p (q.endPipe x r Status.done)))

/-- Engines: rings and arming, stopping and going idle, fetching descriptors and taking them in ring order; the access
tables are written only while the die's engines are idle (R175 to R183, R186, R191, R202, R203). -/
def Obligations.EnginesFetchTheirDescriptors : Prop :=
  ∀ (e : EngId) (s : State),
    let p := s.pol e.p
    let v := p.eng e.key
    let x := s.ctxOf e.p
    let leaves := fun (row : Instr) (u : Eng) => ∃ t, exec row s = .next t ∧ (t.pol e.p).eng e.key = u
    (∀ (w : Who) (tail : W32), s.Admits e.p (ENGP e.key + 0x50) w → s.GivesW w (.ringTailWrite e w tail) e.p
      ((p.wr (ENGP e.key + 0x50) tail).setEng e.key
        ({ v with published := v.published ++ [(tail, w.ctx)] }.touchedBy w.ctx))) ∧
    (∀ (w : Who), s.Admits e.p (ENGP e.key + 0x0C) w →
      (v.st = .idle → p.accessOk (e.key / 16) = true → p.probedEngine e.key = false →
        leaves (.engineArm e w) { v.touchedBy w.ctx with st := .armed, ctx := w.ctx }) ∧
      (v.st ≠ .idle ∨ p.accessOk (e.key / 16) = false ∨ p.probedEngine e.key = true → s.GivesW w (.engineArm e w) e.p
        ((p.setEng e.key (v.touchedBy w.ctx)).raise (ENGP e.key) 5)) ∧
      (v.st = .faulted ∨ v.st = .stopped → s.GivesW w (.engineStop e w) e.p p) ∧
      (v.st ≠ .faulted → v.st ≠ .stopped →
        let u := { v with descs := [], rep := none, stopping := true, holdReq := false, buf := if e.out then [] else v.buf }
        leaves (.engineStop e w) { u with free := u.space })) ∧
    (s.engUp e → v.stopping = true → v.quiet = true →
      let u := { v with st := .stopped, stopping := false, ending := false, buf := [] }
      leaves (.engineStopped e) { u with free := u.space }) ∧
    (s.engUp e → v.ending = true → v.st = .running → v.quiet = true → e.out = false ∨ v.buf = [] →
      let u : Eng := { v with st := .idle, ending := false, descs := [], buf := [], base := none, users := []
                              holdReq := false, last := [] }
      leaves (.engineIdle e) { u with free := u.space }) ∧
    (s.engUp e → v.works = true → v.burst = none → v.reqs.length < 64 →
      let n := min 8 (min (p.rd (ENGP e.key + 0x50) - v.head).toNat (256 - v.descs.length))
      n ≠ 0 →
      ((∀ k < n, p.ringOk x e.key (v.head + BitVec.ofNat 32 k) = true) → s.Gives (.descBurstFetch e) e.p
        (p.setEng e.key { v with burst := some (v.head, n), head := v.head + BitVec.ofNat 32 n })) ∧
      ((∃ k < n, p.ringOk x e.key (v.head + BitVec.ofNat 32 k) = false) → s.Gives (.descBurstFetch e) e.p
        (p.engFault e.key Status.addressInvalid 0 v.head))) ∧
    (∀ (i : W32) (n : Nat), s.engUp e → v.burst = some (i, n) →
      (v.works = false → leaves (.descBurstLanded e) { v with burst := none }) ∧
      (v.works = true →
        let u := (Polder.landBurst x e.key n i (p.setEng e.key { v with burst := none })).eng e.key
        let live := fun (q : W32 × BitVec 16) => decide (1 ≤ (q.1 - u.head).toNat) && decide ((q.1 - u.head).toNat < 2 ^ 31)
        leaves (.descBurstLanded e) { u with published := u.published.filter live })) ∧
    (∀ (d : Desc), s.engUp e → v.works = true → v.rep = none → v.descs.find? (fun d => d.pos = .queued) = some d →
      (∀ c ∈ v.descs, c.pos = .queued ∨ e.out = true ∨ c.type = 0 ∨ c.asked = c.total) →
      (d.ok (x.isOwn p d.addr) e.out = false → s.Gives (.descEnterFetching e) e.p
        (p.engFault e.key Status.internal 0 d.index)) ∧
      (d.ok (x.isOwn p d.addr) e.out = true → d.type = 0xF → s.Gives (.descEnterFetching e) e.p (p.startRepeat e.key d)) ∧
      (d.ok (x.isOwn p d.addr) e.out = true → d.type ≠ 0xF → d.type ≠ 3 → d.type ≠ 0xA ∨ d.stash = true → d.conv = 0 →
        let u := { v with
          past := (v.past ++ [(d.index, d.bits)]).drop (v.past.length + 1 - 255)
          descs := v.descs.map fun c => if c.num = d.num
            then { d with pos := .fetching, since := if v.st = .running then p.cycle else 0 } else c }
        leaves (.descEnterFetching e) (if e.out then u.advance else u))) ∧
    (∀ (w : Who) (die : Fin 4) (ctrl : Fin 2) (word : W32),
      let page := HBC (2 * die.val + ctrl.val)
      s.Admits e.p (page + 0x44) w →
      ((∀ k < 16, (p.eng (16 * die.val + k)).st = .idle) → s.GivesW w (.accessTableWrite e.p die ctrl w word) e.p
        (p.wr (page + 0x44) (word &&& 0xFFFF#32) (1 + p.sel (page + 0x40) w % 64))) ∧
      ((∃ k < 16, (p.eng (16 * die.val + k)).st ≠ .idle) → s.GivesW w (.accessTableWrite e.p die ctrl w word) e.p
        (p.raise page 0))) ∧
    (∀ (k : Fin 16) (n : Byte), s.engUp e → takeIncr true e.key k.val n.toNat p.grid.incrs = none →
      (v.sem k.val + n.toNat ≤ 255 → s.Gives (.engineSemIncrement e k n) e.p
        (p.setEng e.key (v.setSem k.val (v.sem k.val + n.toNat)))) ∧
      (255 < v.sem k.val + n.toNat → s.Gives (.engineSemIncrement e k n) e.p
        ((p.setEng e.key (v.setSem k.val 255)).engFault e.key Status.internal 0 v.oldest)))

/-- Intake engines: requests issue in order behind the weight gate, data lands converted, beats leave in their slots,
HOLD is requested for data that will be late, and descriptors retire (R184 to R197). A beat of an Intake engine leaves
in its scheduled slot and enters the engine's router two cycles later; a first beat whose slot has passed or whose
credit is not there faults the engine with STEER_LATE (R99, R100, R186, R188). -/
def Obligations.IntakeEnginesStreamTheirData : Prop :=
  (∀ (e : EngId) (s : State), s.engUp e →
     let p := s.pol e.p
     let v := p.eng e.key
     let x := s.ctxOf e.p
     let leaves := fun (row : Instr) (u : Eng) => ∃ t, exec row s = .next t ∧ (t.pol e.p).eng e.key = u
     (∀ (d : Desc), e.out = false → v.works = true → v.fetching = some d →
       (d.asked ≠ 0 ∨ p.handOpen d = true → s.Gives (.intakeRequestIssue e) e.p (p.issueReq x e.key d)) ∧
       (d.asked = 0 → p.handOpen d = false → s.Gives (.intakeRequestIssue e) e.p p) ∧
       (d.handEn = true → d.asked = 0 → p.handOpen d = true → s.Gives (.handGateWaitEnd e) e.p (p.issueReq x e.key d))) ∧
     (∀ (i : Nat) (q : EngReq) (r : ReadReply), e.out = false → v.probing = false → v.reqs[i]? = some q → q.retry = false →
       r.data.length ≤ 512 →
       (v.works = false → leaves (.intakeDataLanded e i r)
         { v with reqs := v.reqs.eraseIdx i, free := Eng.space { v with reqs := v.reqs.eraseIdx i } }) ∧
       (∀ d, v.works = true → v.descs.find? (fun d => d.num == q.desc) = some d → q.tier = 4 → q.answer = some r →
         r.status = Status.refusedBusy → s.Gives (.intakeDataLanded e i r) e.p
           ((p.count (ENGP e.key + 0x80) 1).setEng e.key
             { v with reqs := v.reqs.set i { q with retry := true, answer := none, tag := none } })) ∧
       (∀ d, v.works = true → v.descs.find? (fun d => d.num == q.desc) = some d → q.tier = 4 → q.answer = some r →
         r.status = Status.done → d.conv = 0 → r.data.length = q.len → q.len = q.out →
         ∃ t, exec (.intakeDataLanded e i r) s = .next t ∧
           ((t.pol e.p).eng e.key).reqs = v.reqs.eraseIdx i ∧ ((t.pol e.p).eng e.key).st = v.st ∧
           ((t.pol e.p).eng e.key).buf = v.buf ++ [⟨d.num, q.at_, r.data⟩])) ∧
     (∀ (i : Nat) (q : EngReq), e.out = false → v.reqs[i]? = some q → q.retry = true →
       (v.works = false → leaves (.intakeRetryTimer e i)
         { v with reqs := v.reqs.eraseIdx i, free := Eng.space { v with reqs := v.reqs.eraseIdx i } }) ∧
       (∀ p' q', v.works = true → q.tier = 4 →
         p.sendReq x e.key { q with retry := false } (.fabric q.addr) = (p', .ok q') →
         s.Gives (.intakeRetryTimer e i) e.p (p'.setEng e.key { p'.eng e.key with reqs := v.reqs.set i q' }))) ∧
     (∀ (circ : Fin 8), e.out = false → v.runs = true → p.grid.hold.frozen = false →
       s.Gives (.intakeBeatEmit e circ) e.p (p.emitBeat e.key circ.val)) ∧
     (e.out = false →
       (v.outHold = false → p.missing e.key = false → v.holdReq = false → s.Gives (.intakeHoldRequest e) e.p p) ∧
       (v.outHold = true ∨ p.missing e.key = true → ∃ t, exec (.intakeHoldRequest e) s = .next t ∧
         (t.pol e.p).eng e.key = { v with holdReq := true } ∧
         (t.pol e.p).rd (ENGP e.key + 0x78) = addField (p.rd (ENGP e.key + 0x78)) 0 32 1 ∧
         (t.pol e.p).grid.hold.asserted = true)) ∧
     (∀ (d : Desc), v.st = .running → v.stopping = false → v.descs.find? (v.retirable e.out) = some d →
       s.Gives (.descRetire e) e.p
         (((if d.sigEn && !d.signalled then p.signal e.key p.cycle d else p).retireDesc e.key d.num).unpinAll x [d])) ∧
     (∀ (die : Fin 4) (ctrl : Fin 2) (d : Desc) (o n : Nat), s.live e.p die.val = true → e.die = die → e.out = false →
       p.grantOf (2 * die.val + ctrl.val) = some e.k.val → v.works = true → v.fetching = some d →
       p.nextSource x d = (.own 1 o, n) → o / 2 ^ 36 = 2 * die.val + ctrl.val → d.asked ≠ 0 ∨ p.handOpen d = true →
       s.Gives (.hbmAccessGrant e.p die ctrl) e.p (p.issueReq x e.key d))) ∧
  (∀ (p : Polder) (e circ : Nat) (d : Desc) (due k : Nat) (bs : List Byte),
     let v := p.eng e
     v.descs.find? (fun (d : Desc) => d.pos ≠ .queued && d.type != 0 &&
       d.emissions.any fun m => m.1 == circ && m.2.2 < d.beats) = some d →
     d.circ = circ → d.sent0 = k → k < d.beats → p.dueOf e v d circ k = some due → v.beat d false k = some bs →
     (k = 0 → v.firstBeat d circ due = none → p.emitBeat e circ = p.engFault e Status.steerLate 0 d.index) ∧
     (k ≠ 0 ∨ (d.waitEn = false ∧ d.since ≤ due ∧ SMap.get (fun _ => 0) v.last circ ≤ due) →
       let q := p.emitBeat e circ
       q.grid.beats = p.grid.beats ++ [{ cell := engCell e, inp := 5, circ := circ
                                         cls := bitsN (p.injEntry e (due % 64)) 10 2
                                         data := wordOf 256 bs, arrive := due + 2 }] ∧
       q.cycle = max p.cycle due ∧ (q.eng e).last = SMap.insert v.last circ (due + 1) ∧
       (q.eng e).descs = v.descs.map (fun c => if c.num = d.num then { d with pos := .executing, sent0 := k + 1 } else c) ∧
       (∀ j, j ≠ e → q.eng j = p.eng j) ∧ q.regs = p.regs ∧ q.mem = p.mem))

/-- Outfall engines: a beat goes to the executing descriptor of its circuit, one without is an orphan; pieces are
written or sent once their WAIT is met, and a transaction's completion retires, re-sends, rejects or faults (R184 to
R187, R198 to R201). -/
def Obligations.OutfallEnginesDeliverTheirBeats : Prop :=
  ∀ (e : EngId) (s : State), s.engUp e → e.out = true →
    let p := s.pol e.p
    let v := p.eng e.key
    let x := s.ctxOf e.p
    (∀ b rest, takeFirst (fun (b : EdgeBeat) => b.eng == e.key) p.grid.edge = some (b, rest) →
      let p' := p.onGrid fun g => { g with edge := rest }
      let want := fun (d : Desc) => decide (d.pos = .executing) && d.type != 0 && d.circ == b.circ && decide (d.landed < d.total)
      (v.runs = true → v.descs.find? want = none → s.Gives (.outfallBeatTake e) e.p
        ((p'.count (ENGP e.key + 0x90) 1).engFault e.key Status.internal 3 v.oldest)) ∧
      (∀ d, v.runs = true → v.descs.find? want = some d → d.landed ≠ 0 → s.Gives (.outfallBeatTake e) e.p
        (let u := { v with buf := v.buf ++ [Chunk.mk d.num d.landed (bytesOf b.data 32)] }.putDesc { d with landed := d.landed + 32 }
         (p'.putEng e.key u.advance).askHold e.key))) ∧
    (∀ (d : Desc), v.st = .running → v.stopping = false →
      v.descs.find? (fun d => decide (d.pos = .executing) && d.type != 0 && d.waitEn && !d.waited &&
        decide (d.waitN ≤ v.sem d.waitSem)) = some d →
      s.Gives (.outfallWaitRelease e) e.p
        (p.setEng e.key ((v.setSem d.waitSem (v.sem d.waitSem - d.waitN)).putDesc { d with waited := true }))) ∧
    (∀ d o t bs, p.nextPiece x e.key (fun d => d.type != 0x9) = some (d, .own t o, bs) →
      s.Gives (.outfallWrite e) e.p (p.putPiece x e.key d t o bs)) ∧
    (∀ d a bs, p.nextPiece x e.key (fun d => d.type == 0x9) = some (d, .fabric a, bs) → d.sigEn = false → d.map = false →
      s.Gives (.reduceWriteSend e) e.p
        (((p.freePiece e.key d bs.length 1).countPend 0 d.epoch true).sendTxn x e.key
          { tag := 0, desc := d.num, txn := outTxn d a v.ctx bs, slot := if d.type = 0x9 then some 0 else none
            retry := false, answer := none })) ∧
    (∀ tag q rest st deferred,
      takeFirst (fun (q : EngTxn) => q.tag == tag && !q.retry && q.answer == some (st, deferred)) v.txns = some (q, rest) →
      (st = Status.refusedBusy → ∃ t, exec (.reduceWriteCompletion e tag st deferred) s = .next t ∧
        (t.pol e.p).eng e.key = { v with txns := rest ++ [{ q with retry := true, answer := none }] }) ∧
      (st = Status.done → deferred = false → ∃ t, exec (.reduceWriteCompletion e tag st deferred) s = .next t ∧
        (t.pol e.p).eng e.key = { v with txns := rest, descs := v.descs.map fun c =>
          if c.num = q.desc then { c with pend := c.pend - 1 } else c }) ∧
      (st = Status.windowClosed → q.slot ≠ none → ∃ t, exec (.reduceWriteCompletion e tag st deferred) s = .next t ∧
        ((t.pol e.p).eng e.key).st = v.st ∧ ((t.pol e.p).eng e.key).txns = rest ∧
        (t.pol e.p).rd (ENGP e.key + 0x80) = addField (p.rd (ENGP e.key + 0x80)) 8 8 1)) ∧
    (∀ tag q rest, takeFirst (fun (q : EngTxn) => q.tag == tag && q.retry) v.txns = some (q, rest) →
      (v.st = .running → v.stopping = false → s.Gives (.outfallReissueTimer e tag) e.p
        ((p.setEng e.key { v with txns := rest }).sendTxn x e.key q)) ∧
      (v.stopping = true → q.slot = none → s.Gives (.outfallReissueTimer e tag) e.p
        (p.setEng e.key { v with txns := rest })))

/-- The cache manager: the edit at the head of the queue, with a well-formed record and every page it needs at hand,
takes its operation's effect and completes with the head's version, or with the code it fails with (R218, R219).
Publishing an image makes it the head's current one, advances the head's version past 0xFFFF_FFFF to 1, and leaves
every other head; CREATE makes a LIVE head of version 1 over an empty image (R213, R218, R219). -/
def Obligations.CacheEditsRunInTurn : Prop :=
  (∀ (p : Pid) (s : State) (e : KvEdit) (rest : List KvEdit) (k : Nat), s.live p 4 = true →
     let q := s.pol p
     let x := s.ctxOf p
     let r := editRec e.words
     let swept := fun (q : Polder) => q.onMem fun m => { m with staged := [] }
     let runs := fun (row : Instr) (op : Nat) (f : EditCtx → Polder → KvTry Polder) => r.op = op → q.editWaits r k = [] →
       (∀ q', f ⟨x, r, e.origin.ctx, k⟩ q = .ok q' →
         s.Gives row p ((swept q').finishEdit e Status.done (q'.mem.verOf k))) ∧
       (∀ q' st, f ⟨x, r, e.origin.ctx, k⟩ q = .error (q', st) → s.Gives row p ((swept q').finishEdit e st 0))
     let waits := fun (row : Instr) (op : Nat) => r.op = op → q.editWaits r k ≠ [] →
       s.Gives row p ((q.editWaits r k).foldl Polder.readBack q)
     q.mem.edits = e :: rest → r.ok = true → q.headAt x r.seq = .ok k →
     runs (.kvCreate p) 1 editCreate ∧ runs (.kvAppend p) 2 editAppend ∧ runs (.kvFork p) 3 editFork ∧
     runs (.kvPrepareWrite p) 4 editPrepare ∧ runs (.kvTruncate p) 5 editTruncate ∧ runs (.kvDestroy p) 6 editDestroy ∧
     runs (.kvPrefetch p) 7 editPrefetch ∧ runs (.kvResident p) 8 editResident ∧
     waits (.kvPrepareWrite p) 4 ∧ waits (.kvPrefetch p) 7 ∧ waits (.kvResident p) 8) ∧
  ((∀ (q : Polder) (x : PolCtx) (k a ring : Nat) (h : KvHead) (l : List Pte) (j : Nat),
     let r := (q.placeImage x k a h ring l false).1
     SMap.find? r.mem.heads j = (if j = k then some { h with cur := a, ver := if h.ver = 0xFFFFFFFF then 1 else h.ver + 1 }
       else SMap.find? q.mem.heads j)) ∧
   (∀ (c : EditCtx) (q r : Polder), editCreate c q = .ok r → ∃ a, SMap.find? r.mem.heads c.k = some ⟨a, 1, .live, c.ctx⟩ ∧
     ∃ i ∈ r.mem.images, i.addr = a ∧ i.head = c.k ∧ i.ver = 1 ∧ i.ptes = [] ∧ i.ringLen = 4096 * c.r.count ∧ i.pins = 0 ∧
       i.current = true))

/-- A walk whose data has landed releases its pin; the pages a pin asked for come back in turn; a bandwidth window
that ends admits its bytes anew; a tier-3 answer reaches the request it belongs to (R220, R225, R251, R253). The range
engine: CLEAR clears the valid bits of its range and no other, FETCH starts a frame for each page, EVICT turns the
range's HIGH pages EVICTING, the reserved operation ends with INTERNAL, a GO while busy is ignored, and a range ends
when its copies have (R243, R247, R255). -/
def Obligations.PinsPagesAndRangesEnd : Prop :=
  (∀ (p : Pid) (s : State),
     let q := s.pol p
     let x := s.ctxOf p
     (s.live p 4 = true →
       (∀ (i : Nat) (im : KvImage) (e : Nat) (d : Desc), q.mem.images[i]? = some im → q.landedWalk im.addr = some (e, d) →
         let v := SMap.get (fun _ => Eng.reset) q.engines e
         let v' := { v with descs := v.descs.map fun c => if c.num = d.num then { c with pin := none } else c }
         s.Gives (.kvPinRelease p i) p
           (({ q with engines := SMap.set (fun _ => Eng.reset) q.engines e v' } : Polder).unpin x im.addr)) ∧
       (∀ (f : KvPrefetch) (rest : List KvPrefetch) (r : Nat) (more : List Nat), q.mem.prefetch = f :: rest →
         f.pages = r :: more →
         (q.mem.awaited [r] ≠ [] → s.Gives (.kvPrefetchPageDone p) p q) ∧
         (q.mem.awaited [r] = [] → ∀ q',
           (q.onMem fun m => { m with prefetch := if more.isEmpty then rest else { f with pages := more } :: rest }).bringBack x r =
             .ok q' → s.Gives (.kvPrefetchPageDone p) p q')) ∧
       (∀ (i : Nat) (r : Tier3Req) (o : PcieOutcome), o.wf = true → q.mem.tier3[i]? = some r →
         s.Gives (.tier3Completion p i o) p
           ((q.notePcie o).t3Done x i r (pcieReply o r.len).1 (pcieReply o r.len).2))) ∧
     (s.mod.powered p = true → ∃ t, exec (.bwWindowExpiry p) s = .next t ∧ (t.pol p).mem = { q.mem with used := [] } ∧
       (t.pol p).flx = { q.flx with used := [] } ∧ (t.pol p).regs = q.regs ∧
       ∀ k : Fin 16, ((t.pol p).stream k.val) = { q.stream k.val with used := 0 })) ∧
  (∀ (p : Pid) (s : State) (w : Who),
     let q := s.pol p
     let rows := [(Instr.rangeClear p w, 0), (.rangeFetch p w, 1), (.rangeEvict p w, 2), (.rangeReservedOp p w, 3)]
     (s.Admits p (SPW + 0x98) w →
       (q.rangeBusy = true → ∀ e ∈ rows, s.GivesW w e.1 p (q.wr (SPW + 0x98) (fld 2 e.2))) ∧
       (q.rangeBusy = false → s.GivesW w (.rangeReservedOp p w) p ((q.wr (SPW + 0x98) (fld 2 3)).endRange Status.internal)) ∧
       (q.rangeBusy = false → s.mod.commit = none →
         let v := fun op => q.wr (SPW + 0x98) (fld 2 op)
         let x := (s.noted w).ctxOf p
         let o := gaOff q.rangeOf.1
         let len := q.rangeOf.2
         (∀ e ∈ rows, e.2 < 3 → (v e.2).rangeRegion x e.2 = none →
           s.GivesW w e.1 p ((v e.2).endRange Status.addressInvalid)) ∧
         (∀ g, (v 0).rangeRegion x 0 = some g → g.tier = 1 ∨ g.tier = 2 → ∃ t, exec (.rangeClear p w) s = .next t ∧
           (t.pol p).mem.range = some ⟨0, g.tier, o, len, Status.done⟩ ∧ (t.pol p).mem.mem1 = q.mem.mem1 ∧
           (t.pol p).mem.mem2 = q.mem.mem2 ∧ ∀ k, (t.pol p).mem.valid g.tier k =
             (q.mem.valid g.tier k && !(decide (o / granule ≤ k) && decide (k < o / granule + len / granule)))) ∧
         (∀ g, (v 1).rangeRegion x 1 = some g → s.GivesW w (.rangeFetch p w) p
           ((pagesOf o len).foldl (fun r k => r.startFill x g k)
             ((v 1).onMem fun m => { m with range := some ⟨1, g.tier, o, len, Status.done⟩ }))) ∧
         (∀ g, (v 2).rangeRegion x 2 = some g → s.GivesW w (.rangeEvict p w) p
           ((v 2).onMem fun m => { m with
             range := some ⟨2, g.tier, o, len, Status.done⟩
             frames := m.frames.map fun f =>
               if f.tier = g.tier ∧ (pagesOf o len).contains f.page ∧ f.st = .high then { f with st := .evicting } else f })))) ∧
     (s.live p 4 = true → ∀ r, q.mem.range = some r →
       (q.mem.copied r = false → s.Gives (.rangeDone p) p q) ∧
       (q.mem.copied r = true → s.Gives (.rangeDone p) p
         (((q.mem.frames.filter fun f => f.tier == r.tier && (pagesOf r.off r.len).contains f.page).foldl Polder.finishCopy q).endRange
           r.code))))

/-- The server's window onto the polder's memory: reads answer and writes land unit by unit; a map that denies answers
Completer Abort, and a basin that is down reads as ones (R254, R393, R464). Bytes of tiers 1 and 2 read as last
written, a write leaves every other byte, and the memory keeps its canonical form (R231, R233). -/
def Obligations.ServerWindowReachesMemory : Prop :=
  (∀ (p : Pid) (s : State) (off : BitVec 36) (n : Nat) (bs : List (Option Byte)),
     let q := s.pol p
     let x := s.ctxOf p
     let rd := Instr.bar4Access p off (.read n)
     let wr := Instr.bar4Access p off (.write bs)
     let ps := fun len => bar4Pieces (len / 64 + 2) off.toNat (off.toNat + len)
     ((Access.read n).wf = true →
       (s.mod.denied .keeperAgent .memory false = false → s.mod.serverShut .keeperAgent = false →
         (s.live p 4 = true →
           let r := Polder.bar4Read x (ps n) q []
           s.Gives rd p (r.1.reply r.2)) ∧
         (s.live p 4 = false → ∃ t, exec rd s = .next t ∧
           (t.pol p).mem.replies = q.mem.replies ++ [.data (List.replicate n 0xFF)])) ∧
       (s.mod.denied .keeperAgent .memory false = true → ∃ t, exec rd s = .next t ∧
         (t.pol p).mem.replies = q.mem.replies ++ [.abort] ∧ (t.pol p).mem.mem1 = q.mem.mem1 ∧
         (t.pol p).mem.mem2 = q.mem.mem2)) ∧
     ((Access.write bs).wf = true → s.mod.denied .keeperAgent .memory true = false →
       s.mod.serverShut .keeperAgent = false → s.live p 4 = true →
       s.Gives wr p (Polder.bar4Write x (ps bs.length) q bs)) ∧
     ((Access.write bs).wf = true → s.mod.denied .keeperAgent .memory true = true → ∃ t, exec wr s = .next t ∧
       (t.pol p).mem = q.mem)) ∧
  ((∀ (m : Mem) (t o : Nat) (bs : List (Option Byte)) (u a : Nat), t = 1 ∨ t = 2 → u = 1 ∨ u = 2 →
     (m.putRaw t o bs).byte u a =
       if u = t ∧ o ≤ a then ((bs[a - o]?).getD none).getD (m.byte u a) else m.byte u a) ∧
   (∀ (m : Mem) (t o : Nat) (bs : List (Option Byte)), m.wf = true → (m.putRaw t o bs).wf = true) ∧
   (∀ (m : Mem) (t g : Nat) (b : Bool), m.wf = true → (m.setValid t g b).wf = true) ∧
   (∀ (p : Pid), (State.reset.pol p).mem.wf = true))

/-- A Pump channel: arming opens it with the table it read, or reports the code; it closes at the register, at its
deadline or when a contributor is lost, with DONE_PARTIAL; its sums end and the step is decided on the total (R263,
R266, R267, R270, R271). The step decision: a total that is not finite skips the step; a finite one leaves the norm,
its square root, and the clip factor, which never exceeds 1, and the update begins (R86, R271, R412). -/
def Obligations.PumpsArmCloseAndSum : Prop :=
  (∀ (p : Pid) (ch : Fin 4) (s : State) (w : Who),
     let q := s.pol p
     let v := q.chan ch.val
     let off := PMP + 0x40 + 0x40 * ch.val
     let x := s.ctxOf p
     (s.Admits p (off + 8) w →
       let a := q.pair off &&& 0xFFFFFFFFFFFFFFC0#64
       let x := (s.noted w).ctxOf p
       (s.mod.commit = none → v.st ≠ .idle → v.st ≠ .late → s.GivesW w (.pumpArm p ch w) p
         ((q.setChan ch.val { v with code := Status.refusedBusy }).raise PMP 7)) ∧
       (s.mod.commit = none → v.st = .idle ∨ v.st = .late →
         (∀ st r, EStateM.run (readUpdTable x ch.val a) q = .error st r → s.GivesW w (.pumpArm p ch w) p
           ((r.setChan ch.val { r.chan ch.val with code := st }).raise PMP 7)) ∧
         (∀ t r, EStateM.run (readUpdTable x ch.val a) q = .ok t r → ∃ u, exec (.pumpArm p ch w) s = .next u ∧
           let c := (u.pol p).chan ch.val
           c.st = .open_ ∧ c.tab = some t ∧ c.k = q.gauge.k ∧ c.blocks = 0 ∧ c.sumsq = 0 ∧ c.pooled = v.pooled)) ∧
       (v.st ≠ .open_ → s.GivesW w (.pumpClose p ch w) p q) ∧
       (v.st = .open_ → ∃ u, exec (.pumpClose p ch w) s = .next u ∧ (u.pol p).chan ch.val =
         { v with st := .closing, close := Status.donePartial })) ∧
     (s.live p 4 = true →
       (v.first = none → s.Gives (.pumpDeadlineExpiry p ch) p q) ∧
       (v.first.isSome = true → v.st = .open_ → ∃ u, exec (.pumpDeadlineExpiry p ch) s = .next u ∧
         (u.pol p).chan ch.val = { v with st := .closing, close := Status.donePartial }) ∧
       (v.lost = true → v.lostMember = false → v.st = .open_ → ∃ u, exec (.pumpGraceExpiry p ch) s = .next u ∧
         (u.pol p).chan ch.val = { v with st := .closing, close := Status.donePartial }) ∧
       (v.lost = false → v.lostMember = true → s.Gives (.pumpGraceExpiry p ch) p (q.rootTotal x ch true)) ∧
       (∀ t, v.tab = some t → v.st = .closing →
         (SMap.get (fun _ => Win.reset) q.flx.wins (60 + ch.val)).writes = [] →
         ∃ u, exec (.reductionDrained p ch) s = .next u ∧ ((u.pol p).chan ch.val).st = .summing ∧
           ((u.pol p).chan ch.val).poolOld = 0) ∧
       (∀ t, v.tab = some t → v.st = .summing →
         let r := (q.rootTotal x ch false).pumpRead x t.norm 24
         (r.st ≠ Status.done ∨ BitVec.ofNat 32 (leN r.data 20 4) ≠ t.seq → s.Gives (.normTotalReady p ch) p r.p) ∧
         (r.st = Status.done → BitVec.ofNat 32 (leN r.data 20 4) = t.seq →
           s.Gives (.normTotalReady p ch) p (r.p.decideStep x ch t (BitVec.ofNat 32 (leN r.data 16 4))))))) ∧
  (∀ (q : Polder) (x : PolCtx) (ch : Fin 4) (t : UpdTable) (total : W32), (q.takeActions x t).2 = [] →
     let r := q.decideStep x ch t total
     let v := r.chan ch.val
     let g := f64 (toF64 (f32 total).sqrt)
     ((f32 total).isFinite = false → v.st = .updating ∧ v.skipped = true ∧ v.chunks = t.nchunk ∧
       r.gauge.outcomes = q.gauge.outcomes ++ [⟨true, false, (q.chan ch.val).k⟩]) ∧
     ((f32 total).isFinite = true → v.st = .updating ∧ v.skipped = (q.chan ch.val).skipped ∧
       v.norm = toF32 g ∧ r.gauge.outcomes = q.gauge.outcomes ++ [⟨false, false, (q.chan ch.val).k⟩] ∧
       (t.clipMax = 0 ∨ g.isZero = true → v.clip = 0x3F800000) ∧
       (t.clipMax ≠ 0 → g.isZero = false → v.clip =
         if (Num.fin false 1 0).lt ((f32 t.clipMax).div g) then 0x3F800000 else toF32 ((f32 t.clipMax).div g))))

/-- The update pass: the next shard of its Pump completes, its chunks are announced, and the pass ends with its code
when nothing is left; the snapshot's bytes are handed over as there is room, or it is aborted (R272, R277, R279, R281,
R282, R458). -/
def Obligations.UpdatesTakeShardsInTurn : Prop :=
  ∀ (p : Pid) (ch : Fin 4) (s : State) (t : UpdTable), s.live p 4 = true →
    let q := s.pol p
    let v := q.chan ch.val
    let x := s.ctxOf p
    v.tab = some t → v.st = .updating →
    (∀ k sh, t.shards[k]? = some sh → v.skipped = false → v.held = false →
      (v.isNext t k sh = false ∨ v.handed t k = false → exec (.pumpShardComplete p ch k) s =
        .next { s.settle p q.summary q with free := s.free + 1 }) ∧
      (v.isNext t k sh = true → v.handed t k = true → ∃ u, exec (.pumpShardComplete p ch k) s = .next u ∧
        u.free = s.free + 1 ∧ ((u.pol p).chan ch.val).shards = v.shards ++ [k] ∧
        (v.skips.contains sh.tensor = true → (u.pol p).gauge.ratios = q.gauge.ratios) ∧
        (v.skips.contains sh.tensor = false → ∃ r, (u.pol p).gauge.ratios = q.gauge.ratios ++ [r] ∧ r.ch = ch ∧
          r.tensor = sh.tensor))) ∧
    (q.updateOver ch t = true → s.Gives (.pumpUpdateComplete p ch) p ((q.setChan ch.val { v with
      st := .late, snap := .none
      code := if v.bad ≠ Status.done then v.bad else if v.skipped then Status.done else v.close }).raise PMP 2)) ∧
    (q.updateOver ch t = false → s.Gives (.pumpUpdateComplete p ch) p q) ∧
    (v.held = false → v.snapAt < t.image → s.Gives (.snapshotHandoffWaitEnd p ch) p (q.handOver x ch.val t)) ∧
    (v.snap = .sending → v.snapAt < t.image → s.Gives (.snapshotAbort p ch) p (q.abortSnap x ch.val t))

/-- A port's bring-up goes from LANE_CHECK over NEGOTIATE, TRAIN and ALIGN to UP; a refused peer makes it wait, lanes
that fail send it back, and a wait or an idle time that ends lets it go on (R288 to R296, R304, R306). A port's CTRL
register: clearing ENABLE takes the port down, setting it starts LANE_CHECK, and RETRAIN of an enabled port restarts
it with CAUSE 10 and leaves a disabled one (R288, R293, R307). -/
def Obligations.PortsComeUpInStages : Prop :=
  (∀ (p : Pid) (port : Fin 8) (s : State), s.live p 5 = true →
     let q := s.pol p
     let i := port.val
     let v := q.port i
     let x := s.ctxOf p
     (∀ b, q.portSt i = .laneCheck → cabled i = true → v.idle = false →
       let r := q.setPort i { v with
         st := .negotiate, txShort := b, returns := 0, failed := 0, rxOpen := 0, inverted := 0, trained := 0 }
       s.Gives (.laneCheckDone p port b) p (if b = 0 then r else r.raise (LNE (groupOf i)) 0)) ∧
     (∀ lanes peer, lanes.length = 8 → q.portSt i = .negotiate →
       (s.Gives (.negotiateRoundEnd p port lanes peer) p (q.roundEnd x i lanes peer)) ∧
       ((peerCheck x i (q.portCtl i 3) lanes).1 ≠ 0 → ∃ t, exec (.negotiateRoundEnd p port lanes peer) s = .next t ∧
         ((t.pol p).port i).st = .wait ∧ ((t.pol p).port i).cause = (peerCheck x i (q.portCtl i 3) lanes).1)) ∧
     (∀ f inv, q.portSt i = .train →
       (f &&& v.rxUsed = 0 → s.Gives (.trainDone p port f inv) p (q.setPort i { v with
         trained := v.rxUsed &&& ~~~(f &&& v.rxUsed), inverted := inv &&& v.rxUsed, st := .align })) ∧
       (f &&& v.rxUsed ≠ 0 → v.returns < 2 → ∃ t, exec (.trainDone p port f inv) s = .next t ∧
         ((t.pol p).port i).st = .negotiate ∧ ((t.pol p).port i).returns = v.returns + 1) ∧
       (f &&& v.rxUsed ≠ 0 → 2 ≤ v.returns → ∃ t, exec (.trainDone p port f inv) s = .next t ∧
         ((t.pol p).port i).st = .laneCheck ∧ ((t.pol p).port i).cause = 7)) ∧
     (q.portSt i = .align → ∃ t, exec (.alignDone p port) s = .next t ∧
       let u := (t.pol p).port i
       u.st = .up ∧ u.seq = 0 ∧ u.expect = 0 ∧ u.replay = [] ∧ u.width = v.width ∧ u.spent = [] ∧ u.queue = v.queue) ∧
     (q.portSt i = .align → ∃ t, exec (.alignTimeout p port) s = .next t ∧ ((t.pol p).port i).st = .laneCheck) ∧
     (q.portSt i = .wait → s.Gives (.waitExpiry p port) p (q.setPort i (v.restart v.cause false))) ∧
     (q.portUp i = true → ∃ t, exec (.laneLost p port) s = .next t ∧ (t.pol p).port i = v.restart 8 true ∧
       ((t.pol p).rd (FLP i + 0x14)).getLsbD 1 = true) ∧
     (v.idle = true → s.Gives (.downIdleEnd p port) p (q.setPort i { v with idle := false })) ∧
     (v.idle = false → s.Gives (.downIdleEnd p port) p q) ∧
     (∀ bad pg wd l, q.portSt i = .laneCheck → cabled i = false → v.idle = false →
       let g := ~~~bad &&& pg
       widthOf (if q.portCtl i 2 then g &&& 0x0F#8 else g) = some (wd, l) →
       ∃ t, exec (.inPackageBringup p port bad (some pg)) s = .next t ∧ ((t.pol p).port i).st = .up ∧
         ((t.pol p).port i).width = wd ∧ ((t.pol p).port i).lanes = l)) ∧
  (∀ (p : Pid) (port : Fin 8) (s : State) (w : Who) (v : W32),
     let q := s.pol p
     let i := port.val
     s.Admits p (FLP i + 0x0C) w →
     s.GivesW w (.portEnableWrite p port w v) p (q.portCtrl ((s.noted w).ctxOf p) i v) ∧
     (v.getLsbD 0 = false → ∃ t, exec (.portEnableWrite p port w v) s = .next t ∧ (t.pol p).portSt i = .disabled ∧
       ((t.pol p).port i).replay = [] ∧ ((t.pol p).port i).cause = 0) ∧
     (v.getLsbD 0 = true → q.portCtl i 0 = false → ∃ t, exec (.portEnableWrite p port w v) s = .next t ∧
       (t.pol p).portSt i = .laneCheck) ∧
     (v.getLsbD 0 = true → v.getLsbD 1 = false → q.portCtl i 0 = true →
       s.GivesW w (.portEnableWrite p port w v) p (q.wr (FLP i + 0x0C) (v &&& 0xD#32))) ∧
     (q.portCtl i 0 = false → s.GivesW w (.retrain p port w) p q) ∧
     (q.portCtl i 0 = true → ∃ t, exec (.retrain p port w) s = .next t ∧ (t.pol p).portSt i = .laneCheck ∧
       ((t.pol p).port i).cause = 10 ∧ ((t.pol p).port i).idle = q.portUp i))

/-- Flits: a receiver delivers the flit it expects and counts one whose CRC or header is wrong; a sender repeats what
a NAK asks for before anything new, keeps what it sends until it is acknowledged, and sends a NULL flit when it has
nothing (R299 to R303, R313, R339). -/
def Obligations.FlitsAreDeliveredInOrder : Prop :=
  ∀ (p : Pid) (port : Fin 8) (s : State) (f : BitVec 2048), s.live p 5 = true →
    let q := s.pol p
    let i := port.val
    let v := q.port i
    let x := s.ctxOf p
    let h := linkHdr (flitWord f 0)
    (q.portUp i = false → s.Gives (.flitReceive p port f) p q ∧ s.Gives (.flitTransmit p port) p q ∧
      s.Gives (.ackTimer p port) p q) ∧
    (q.portUp i = true →
      s.Gives (.flitReceive p port f) p (q.receive x i f) ∧
      (crcOk f && h.ok = false → ∃ t, exec (.flitReceive p port f) s = .next t ∧
        (t.pol p).port i = v.askNak ∧ (t.pol p).flx = q.flx ∧
        (t.pol p).rd (FLP i + 0x5C) = addField (q.rd (FLP i + 0x5C)) 0 32 1) ∧
      (crcOk f = true → h.ok = true → h.ak = 0 → h.type = 1 → h.seq = v.expect → parityOk f = true →
        (x.module? q).isSome = true → (routeOf (flitWord f 1)).dest ≠ x.ownId q →
        ∃ t, exec (.flitReceive p port f) s = .next t ∧ ((t.pol p).port i).expect = v.expect + 1 ∧
          ((t.pol p).port i).unacked = v.unacked + 1 ∧ ((t.pol p).port i).rxq = v.rxq ++ [f]) ∧
      (∀ e, 0 < v.resend → v.replay[v.replay.length - v.resend]? = some e → ∃ t, exec (.flitTransmit p port) s = .next t ∧
        ((t.pol p).port i).tx = some (formFlit (v.header 1 e.1 e.2.1).word e.2.2) ∧
        ((t.pol p).port i).replay = v.replay ∧ ((t.pol p).port i).resend = v.resend - 1) ∧
      (v.resend = 0 → v.replay.length < 512 → ∀ q' c pay, q.nextFlit x i = some (q', c, pay) →
        ∃ t, exec (.flitTransmit p port) s = .next t ∧
        ((t.pol p).port i).tx = some (formFlit (v.header 1 v.seq c).word pay) ∧
        ((t.pol p).port i).replay = v.replay ++ [(v.seq, c, pay)] ∧ ((t.pol p).port i).seq = v.seq + 1) ∧
      (v.resend = 0 → v.replay.length < 512 → q.nextFlit x i = none → s.Gives (.flitTransmit p port) p
        (q.setPort i (v.sent (formFlit (v.header 0 (v.seq - 1) 0).word 0)))) ∧
      (v.unacked = 0 → s.Gives (.ackTimer p port) p q) ∧
      (0 < v.unacked → s.Gives (.ackTimer p port) p (q.transmit x i))) ∧
    ((x.module? q).isSome = true → (routeOf (flitWord f 1)).dest ≠ x.ownId q →
      s.Gives (.flitForward p port f) p (q.forward x i f))

/-- Flits and transactions read back as they were formed: the CRC and the parity of a formed flit are right, its words
are those it was formed from, and header, route and transaction parse to themselves (R297 to R299, R311 to R314). -/
def Obligations.FlitsAndTransactionsReadBack : Prop :=
  (∀ (w : W64) (pay : BitVec 1920), let f := formFlit w pay
    crcOk f = true ∧ parityOk f = true ∧ flitWord f 0 = w ∧ flitPay f = pay) ∧
  (∀ h : LinkHdr, h.type < 16 → h.ak < 4 → h.cls < 4 → h.credits < 4096 → h.cclass < 4 → h.low < 2 ^ 18 →
    linkHdr h.word = h) ∧
  (∀ (r : Route) (w : W64) (data : List Byte), r.dest < 4096 → r.src < 4096 → r.used < 256 → r.start < 256 →
    routeOf r.word = r ∧ (data.length = r.used → r.used ≤ 232 →
      let f := formFlit w (formPay r data)
      routeOf (flitWord f 1) = r ∧ flitData f r = data)) ∧
  (∀ (t : Txn) (rest : List Byte), t.data.length = dataLen t.op.toNat t.len.toNat →
    parseTxn t.src.toNat t.dst.toNat t.cls (Txn.bytes t ++ rest) = some (t, rest))

/-- A fabric request that its polder's map passes is executed, or is answered with the code of the check it meets; one
that the map denies is counted and answered PROTECTION (R310, R316 to R320, R328, R393, R466). -/
def Obligations.FabricRequestsAreExecutedOrRefused : Prop :=
  ∀ (p : Pid) (port : Fin 8) (t : Txn) (s : State),
    let u := s.taken p port t
    let x := s.ctxOf p
    let tier := gaTier t.addr
    let w := fabWho port t
    let gate := (u.pol p).fabGate t true
    let meets := fun (row : Instr) (write : Bool) =>
      (s.Passes p port t write → ∀ st, s.fabMeets p port t = some st → st ≠ Status.resetAbort →
        exec row s = .next (u.onPol p fun x q => q.answer x t st false [])) ∧
      (t.wf = true → s.live p 5 = true → (x.module? (s.pol p)).isSome = true → x.isOwn (s.pol p) t.addr = true →
        t.src.toNat ≠ x.ownId (s.pol p) → ∀ c, fabClass t.addr = some c →
        s.mod.denied (portRequester port.val) c write = true → exec row s =
          .next ((u.onMod fun m => m.deny (portRequester port.val) t.addr.toNat t.src.toNat).onPol p
            fun x q => q.answer x t Status.protection false []))
    let runs := fun (row : Instr) (write : Bool) (f : PolCtx → Polder → Polder) =>
      tier ≠ 4 → s.Passes p port t write → s.fabMeets p port t = none → exec row s = .next (u.onPol p f)
    let regs := fun (row : Instr) (write : Bool) (f : State → Page → State × List Byte) =>
      tier = 4 → s.Passes p port t write → s.fabMeets p port t = none → exec row s = .next (u.onRegs p t f)
    let swap := fun (u : State) (g : Page) =>
      let r := u.polRead p g (gaOff t.addr) w .open
      let old := r.2.code.2
      (((Txn.newWord t 32 old.toNat).elim r.1 fun n => (r.1.polWrite p g (gaOff t.addr) w (BitVec.ofNat 32 n) gate).1),
        bytesOf (old.setWidth 64) 8)
    (t.op = opRead → Txn.known t = true → meets (.fabricRead p port t) false ∧
      runs (.fabricRead p port t) false (fun x q => q.fabRead x port.val t) ∧
      regs (.fabricRead p port t) false (fun u g =>
        let r := u.fabRegs p g w (gaOff t.addr) (Txn.span t / 4)
        (r.1, r.2.flatMap fun v => bytesOf v 4))) ∧
    (t.op = opWrite → Txn.known t = true → mboxOk port.val t = false → meets (.fabricWrite p port t) true ∧
      runs (.fabricWrite p port t) true (fun x q => q.fabWrite x t) ∧
      regs (.fabricWrite p port t) true (fun u g =>
        (u.fabPut p g w gate (gaOff t.addr) (wordsOf t.data (t.data.length / 4)), []))) ∧
    (t.op = opReduce → Txn.known t = true → meets (.fabricReduceWrite p port t) true ∧
      runs (.fabricReduceWrite p port t) true (fun x q => q.fabReduce x t)) ∧
    (t.op = opAtomic → t.mod = 0 → meets (.fabricFetchAdd p port t) true ∧
      runs (.fabricFetchAdd p port t) true (fun x q => q.fabAtomic x t) ∧ regs (.fabricFetchAdd p port t) true swap) ∧
    (t.op = opAtomic → t.mod = 1 → meets (.fabricCompareSwap p port t) true ∧
      runs (.fabricCompareSwap p port t) true (fun x q => q.fabAtomic x t) ∧ regs (.fabricCompareSwap p port t) true swap)

/-- A request sets out under its own tag, or ends at once with a code; it ends by its completion, by its timeout,
which retires the tag, or by its ELASTIC wait; a FENCE is answered once what it waits for is done (R316, R320 to R323,
R330, R331). -/
def Obligations.RequestsSetOutAndEnd : Prop :=
  ∀ (p : Pid) (s : State), s.live p 5 = true →
    let q := s.pol p
    let x := s.ctxOf p
    let drop := fun (t : Txn) => match takeFirst (fun (e : Nat × Txn) => e.2 == t) q.flx.inbound with
      | some r => q.onFlx fun g => { g with inbound := r.2 }
      | none => q
    (∀ t, t.wf = true → Txn.isCpl t = false → Txn.known t = true →
      s.Gives (.txnRequestIssue p t) p (q.request x t .keeper).1) ∧
    (∀ t r, t.wf = true → Txn.isCpl t = true → q.reqOf t.tag = some r → q.fenceWaits r = false →
      let v := q.view t.src.toNat
      ((v.known = true ∧ t.tinc ≠ v.inc) ∨ t.rinc ≠ q.wdn.polderInc → s.Gives (.txnCompletion p t) p
        (((drop t).count (FLX0 + 0x70) 1).raise FLX0 7)) ∧
      (v.known = true → t.tinc = v.inc → t.rinc = q.wdn.polderInc →
        s.Gives (.txnCompletion p t) p ((drop t).finishReq x r t.status t.deferred t.data))) ∧
    (∀ tag r, q.reqOf tag = some r →
      s.Gives (.requestTimeout p tag) p ((((q.onFlx fun g => { g with retired := g.retired ++ [tag] }).count (FLX0 + 0x74) 1).raise
        FLX0 4).finishReq x r Status.resetAbort false []) ∧
      (r.txn.cls = .elastic → (q.ports.any fun e => e.2.queue.any fun i => i.unsent tag) = true →
        s.Gives (.elasticWaitExpiry p tag) p ((({ q with
          ports := SMap.mapVals (fun _ v => { v with queue := v.queue.filter fun i => !i.unsent tag }) q.ports } : Polder).countSlot
            (FLX0 + 0x68) (x.egressSlot q r.txn.ctx)).finishReq x r Status.refusedBusy false [])) ∧
      ((q.ports.any fun e => e.2.queue.any fun i => i.unsent tag) = false →
        s.Gives (.elasticWaitExpiry p tag) p q)) ∧
    (∀ (port : Fin 8) (t : Txn), t.wf = true → t.op = opFence → Txn.known t = true → (x.module? q).isSome = true →
      (q.staleInc t = true → s.Gives (.fabricFence p port t) p
        ((q.takeInbound port.val t).answer x t Status.incarnationStale false [])) ∧
      (q.staleInc t = false → t.src.toNat ≠ x.ownId q →
        (q.fenceHeld t = true → s.Gives (.fabricFence p port t) p q) ∧
        (q.fenceHeld t = false → s.Gives (.fabricFence p port t) p
          ((q.takeInbound port.val t).answer x t Status.done false []))))

/-- Windows: opening sets range, mask and state or reports why not; closing waits for the writes admitted before it; a
write that is visible is answered, and the last one of a closing window closes it (R325 to R329). -/
def Obligations.WindowsOpenAndClose : Prop :=
  ∀ (p : Pid) (s : State), s.live p 5 = true →
    let q := s.pol p
    let x := s.ctxOf p
    let i := q.rdN (FLX1 + 0x5C) % 64
    let v := q.win i
    let base := q.pair (FLX1 + 0x60) (1 + i)
    let z := q.rd (FLX1 + 0x68) (1 + i)
    let n := 4096 * bitsN z 0 28
    (∀ o : WinFrom, o.wf = true → winRefused o opOpen (x.module? q) = false →
      s.Gives (.windowOpen p o) p (q.submitOpen x o)) ∧
    (∀ o : WinFrom, o.wf = true → winRefused o opClose (x.module? q) = false →
      s.Gives (.windowClose p o) p (q.closeWin x o)) ∧
    (s.mod.commit = none → i < 60 → x.roleBound q i = false →
      (v.st ≠ .closed → s.Gives (.windowOpen p .regPath) p (q.winCode Status.refusedBusy)) ∧
      (v.st = .closed → base.toNat % 4096 = 0 → bitsN z 0 28 ≠ 0 → bits z 28 3 ≠ 0 → q.winOverlaps i base n = false →
        (x.inRegion q base n = false → s.Gives (.windowOpen p .regPath) p (q.winCode Status.addressInvalid)) ∧
        (x.inRegion q base n = true → s.Gives (.windowOpen p .regPath) p
          ((q.setWin i { v with base := base, size := bitsN z 0 28, mask := bits z 28 3, st := .open_ }).winCode Status.done))) ∧
      (v.st = .open_ → v.writes ≠ [] → s.Gives (.windowClose p .regPath) p
        (q.setWin i { v with st := .closing, closers := v.closers ++ [.regPath] })) ∧
      (v.st = .open_ → v.writes = [] → v.closers = [] → ∃ t, exec (.windowClose p .regPath) s = .next t ∧
        (t.pol p).win i = { v with st := .closed } ∧ bits ((t.pol p).rd (FLX1 + 0x6C)) 8 8 = Status.done)) ∧
    (∀ (k : Fin 64) w rest, (q.win k.val).writes = w :: rest →
      let r := (q.setWin k.val { q.win k.val with writes := rest }).seen x w
      s.Gives (.windowWriteVisible p k) p
        (if rest.isEmpty && (q.win k.val).st = .closing then r.endClose x k.val else r))

/-- Heartbeats and notices: the listed entries age and each gets a heartbeat; one that is heard of is marked up, and
one lost or told lost is declared lost once; a notice is queued and takes its kind's effect, is sent, or is popped
(R320, R323, R334 to R336). -/
def Obligations.PeersAreWatchedAndTold : Prop :=
  ∀ (p : Pid) (s : State), 
    let q := s.pol p
    let x := s.ctxOf p
    (s.live p 5 = true →
      (∃ t, exec (.heartbeatTimer p) s = .next t ∧ (∀ i < 32, ((t.pol p).hbStat i).age =
          if (x.listEntry q hbList i).isSome then BitVec.ofNat 16 (min 0xFFFF ((q.hbStat i).age.toNat + 2))
          else (q.hbStat i).age) ∧
        ((x.module? q).isSome = true → ∃ l, (t.pol p).flx.sent = q.flx.sent ++ l ∧ l.length = (x.listed q hbList).length ∧
          ∀ m ∈ l, m.op = opHeartbeat)) ∧
      (∀ t, t.wf = true → t.op = opHeartbeat → Txn.known t = true → (x.module? q).isSome = true →
        s.Gives (.heartbeatRx p t) p ((q.takeInbound 8 t).heartbeat x t)) ∧
      (∀ (e : Fin 32) id, x.listEntry q hbList e.val = some id → (q.hbStat e.val).lost = true →
        s.Gives (.peerLossTimeout p e) p q) ∧
      (∀ (e : Fin 32) id, x.listEntry q hbList e.val = some id → (q.hbStat e.val).lost = false →
        ∃ t, exec (.peerLossTimeout p e) s = .next t ∧ ((t.pol p).hbStat e.val).lost = true ∧
          ((t.pol p).view id).lost = some (q.hbStat e.val).inc ∧
          (t.pol p).rd (FLX0 + 0x84) = addField (q.rd (FLX0 + 0x84)) 0 32 1) ∧
      (∀ t, t.wf = true → t.op = opNotice → (x.module? q).isSome = true →
        let r := (q.takeInbound 8 t).queueNotice t
        let id := Txn.subject t
        (t.mod = 1 → (r.view id).lost = some (Txn.subjectInc t) → s.Gives (.noticePeerLost p t) p r) ∧
        (t.mod = 1 → (r.view id).lost ≠ some (Txn.subjectInc t) → ∃ u, exec (.noticePeerLost p t) s = .next u ∧
          ((u.pol p).view id).lost = some (Txn.subjectInc t)) ∧
        (t.mod = 2 → ∃ u, exec (.noticePeerUp p t) s = .next u ∧
          (u.pol p).view id = ⟨Txn.subjectInc t, true, none, false⟩) ∧
        (t.mod = 3 → s.Gives (.noticeRouteChange p t) p r) ∧
        (t.mod = 4 → s.Gives (.noticeDrain p t) p (r.setView id { r.view id with draining := true })) ∧
        (t.mod = 5 → s.Gives (.noticeUser p t) p r))) ∧
    (∀ w : Who, s.Admits p (FLX0 + 0x0C) w →
      s.GivesW w (.noticeSend p w) p (q.sendNotice ((s.noted w).ctxOf p)) ∧
      s.GivesW w (.noticePop p w) p (q.onFlx fun g => { g with notices := g.notices.drop 1 }))

/-- Shard maps: a staged table that reads and checks becomes the slot's STAGED map, an activation waits for its phase
boundary and makes it CURRENT, a retire drops the PREVIOUS map and a drop the STAGED one (R352 to R354, R359). -/
def Obligations.ShardMapsChangeAtBoundaries : Prop :=
  ∀ (p : Pid) (s : State),
    let q := s.pol p
    (∀ w : Who, s.Admits p (FLX2 + 0x4C) w →
      let k := q.sel (FLX2 + 0x40) w % 8
      let x := (s.noted w).ctxOf p
      let a := q.pair (FLX2 + 0x44) (1 + k) &&& 0xFFFFFFFFFFFFFFC0#64
      let v := q.mapSlot k
      (∀ r m, q.readMap x k a w.ctx = (r, .ok m) → s.GivesW w (.flxMapStage p w) p
        ((r.setMapSlot k { r.mapSlot k with stg := some m }).mapCode k (.reg w.ctx) Status.done)) ∧
      (∀ r st, q.readMap x k a w.ctx = (r, .error st) → s.GivesW w (.flxMapStage p w) p
        ((r.raise FLX2 3).mapCode k (.reg w.ctx) st)) ∧
      (s.mod.commit = none → v.wait.isSome = true → s.GivesW w (.flxMapActivate p w) p
        (q.mapCode k (.reg w.ctx) Status.refusedBusy)) ∧
      (s.mod.commit = none → v.wait = none → s.GivesW w (.flxMapActivate p w) p
        (q.setMapSlot k { v with wait := some (.reg w.ctx) })) ∧
      (v.prev = none → s.GivesW w (.flxMapRetire p w) p (q.mapCode k (.reg w.ctx) Status.done)) ∧
      (v.prev.isSome = true → s.GivesW w (.flxMapRetire p w) p
        (((q.setMapSlot k { v with prev := none }).raise FLX2 1).mapCode k (.reg w.ctx) Status.done)) ∧
      s.GivesW w (.flxMapDrop p w) p ((q.setMapSlot k { v with stg := none }).mapCode k (.reg w.ctx) Status.done)) ∧
    (s.live p 5 = true → ∀ (k : Fin 8) (o : Origin), (q.mapSlot k.val).wait = some o →
      let v := q.mapSlot k.val
      let r := q.setMapSlot k.val { v with prev := v.cur, cur := v.stg, stg := none, wait := none }
      (q.canActivate k.val = false → s.Gives (.mapActivation p k) p q) ∧
      (q.canActivate k.val = true → s.Gives (.mapActivation p k) p
        (((if v.prev.isSome then r.raise FLX2 1 else r).raise FLX2 0).mapCode k.val o Status.done)))

/-- The Twin: a posted record is mirrored while the twin is up; a record that arrives is placed in the ring and
answered; a record that completes leaves, one that fails is sent again (R363, R364, R367). The transfer engine: a GO
while it runs does nothing; a copy checks its source, a zeroing starts at once, and the code it ends with is reported
with the bytes moved (R372). -/
def Obligations.TwinMirrorsRecordsAndTransfers : Prop :=
  (∀ (p : Pid) (s : State),
     let q := s.pol p
     (∀ w : Who, s.Admits p (TWN + 0x0C) w →
       (q.mirrors = false → s.GivesW w (.twnPost p w) p q) ∧
       (q.mirrors = true → ∃ t, exec (.twnPost p w) s = .next t ∧
         let last := match q.twin.records.getLast? with
           | some r => bits r 32 32
           | none => q.twin.txSeq
         (t.pol p).twin.records = q.twin.records ++ [mirrorRecord 1 (((s.noted w).ctxOf p).ownId q) (nextSeq last) q.twin.step
           ((List.range 4).flatMap fun i => bytesOf (q.rd (TWN + 0x64 + 4 * i)) 4)] ∧
         (t.pol p).twin.step = q.twin.step)) ∧
     (s.live p 5 = true → ∀ (port : Fin 8) (t : Txn), t.wf = true → t.op = opWrite → gaTier t.addr = 4 →
       s.mod.denied (portRequester port.val) .datapath true = false →
       let x := s.ctxOf p
       let q' := q.takeInbound port.val t
       (q'.staleInc t = true → s.Gives (.mirrorRecordRx p port t) p (q'.answer x t Status.incarnationStale false [])) ∧
       (q'.staleInc t = false → mboxOk port.val t = false →
         s.Gives (.mirrorRecordRx p port t) p (q'.answer x t Status.addressInvalid false [])) ∧
       (q'.staleInc t = false → mboxOk port.val t = true → ∀ r st, q'.placeRecord x t = (r, st) →
         s.Gives (.mirrorRecordRx p port t) p (r.answer x t st false []) ∧
         (st = Status.done → r.twin.rxSeq = bits (wordOf 512 t.data : BitVec 512) 32 32))) ∧
     (s.live p 5 = true → ∀ r rest st, q.twin.records = r :: rest →
       (q.twin.onWire = false → s.Gives (.mirrorRecordCompletion p st) p q) ∧
       (q.twin.onWire = true → ∃ t, exec (.mirrorRecordCompletion p st) s = .next t ∧
         (st = Status.done → (t.pol p).twin.records = rest ∧ (t.pol p).twin.txAck = bits r 32 32) ∧
         (st ≠ Status.done → (t.pol p).twin.records = r :: rest ∧ (t.pol p).twin.txAck = q.twin.txAck)))) ∧
  (∀ (p : Pid) (s : State),
     let q := s.pol p
     (∀ (w : Who), s.Admits p (TWN + 0x94) w → ∀ zero : Bool,
       let row := if zero then Instr.xfZero p w else .xfCopy p w
       let c := q.rd (TWN + 0x94)
       let r := (q.wr (TWN + 0x94) (setField c 2 2 (bit01 zero))).wr (TWN + 0x98) 0
       let x := (s.noted w).ctxOf p
       let v : Xfer :=
         { zero := zero, coef := bits c 8 8, src := r.pair (TWN + 0x80) &&& 0xFFFFFFFFFFFFFFC0#64
           dst := r.pair (TWN + 0x88) &&& 0xFFFFFFFFFFFFFFC0#64, len := r.rdN (TWN + 0x90), done := 0, unit := 0
           code := none, ctx := w.ctx }
       (q.twin.xf.isSome = true → s.GivesW w row p q) ∧
       (q.twin.xf = none → zero = false → x.isOwn q v.src = false → s.GivesW w row p
         (r.onTwin fun t => { t with xf := some { v with code := some Status.addressInvalid } })) ∧
       (q.twin.xf = none → zero = true ∨ x.isOwn q v.src = true → s.GivesW w row p (r.xferGo x v)) ∧
       (q.twin.xf = none → zero = true ∨ x.isOwn q v.src = true → v.len = 0 → s.GivesW w row p
         (r.onTwin fun t => { t with xf := some { v with code := some Status.done } }))) ∧
     (s.live p 5 = true → ∀ (v : Xfer) (st : Status), q.twin.xf = some v → v.code = some st →
       let r := q.onTwin fun w => { w with xf := none }
       s.Gives (.xfComplete p st) p (((r.wr (TWN + 0x98) (BitVec.ofNat 32 v.done)).wr (TWN + 0x94)
         (setField (r.rd (TWN + 0x94)) 16 8 st.toNat)).raise TWN 4)))

/-- The step boundary: STEP_END asks for it, it waits for the polder's reductions, then the step advances by 1, the
random step with it under AUTO, and the Gauge decides; the scales it chose are written into their cells (R84, R91,
R365, R411, R416). The loss scale goes down by 1 when a counted outcome at the current scale is not finite, never
below its least value; it goes up by 1 once as many clean steps have passed as are configured, never above its
greatest (R412). -/
def Obligations.StepBoundariesAdvanceTheStep : Prop :=
  (∀ (p : Pid) (s : State),
     let q := s.pol p
     let x := s.ctxOf p
     (∀ w : Who, s.Admits p (TWN + 0x0C) w →
       s.GivesW w (.stepEnd p w) p (q.onTwin fun v => { v with stepWait := true })) ∧
     (s.live p 5 = true →
       (q.twin.stepWait = false ∨ q.reducing = true → s.Gives (.stepBoundary p) p q) ∧
       (q.twin.stepWait = true → q.reducing = false → ∃ t, exec (.stepBoundary p) s = .next t ∧
         let r := t.pol p
         r.twin.step = q.twin.step + 1 ∧ r.twin.stepWait = false ∧ r.twin.rejects = 0 ∧ r.twin.silent = false ∧
         r.gauge.outcomes = [] ∧ r.grid.rngHeld = [] ∧
         (q.grid.rngHeld = [] → r.grid.rngStep =
           if (q.rd (GRD + 0x114)).getLsbD 0 then q.grid.rngStep + 1 else q.grid.rngStep) ∧
         (r.gauge.k, r.gauge.clean) = (
           if (x.cfg q (GAU + 0x40)).getLsbD 0 then
             let c := x.cfg q (GAU + 0x44)
             match lossDecision q.gauge.outcomes q.gauge.k.toNat q.gauge.clean.toNat (bitsN c 0 5) (bitsN c 8 5) (bitsN c 16 16) with
             | some d => (BitVec.ofNat 5 d.1, BitVec.ofNat 16 d.2.1)
             | none => (q.gauge.k, q.gauge.clean)
           else (q.gauge.k, q.gauge.clean)) ∧
         (q.mirrors = false → r.twin.records = q.twin.records)) ∧
       s.Gives (.scalesWritten p) p (q.gauge.writes.foldl (fun r d => r.writeScale x d)
         (q.onGauge fun g => { g with writes := [] })))) ∧
  (∀ (outs : List Outcome') (k clean lo hi n : Nat), lo ≤ k → k ≤ hi →
     ((∃ o ∈ outs, o.nonfinite = true ∧ o.k.toNat = k) → ∃ act ran, lossDecision outs k clean lo hi n =
       some (max (k - 1) lo, 0, act, ran)) ∧
     ((∀ o ∈ outs, o.nonfinite = false) → (∃ o ∈ outs, o.skipStep = false) →
       (clean + 1 < n → lossDecision outs k clean lo hi n = some (k, clean + 1, 0, clean + 1)) ∧
       (n ≤ clean + 1 → ∃ act ran, lossDecision outs k clean lo hi n = some (min (k + 1) hi, 0, act, ran))) ∧
     ((∀ o ∈ outs, o.nonfinite = false ∧ o.skipStep = true) → lossDecision outs k clean lo hi n = none) ∧
     (∀ d, lossDecision outs k clean lo hi n = some d → lo ≤ d.1 ∧ d.1 ≤ hi ∧ (d.1 = k ∨ d.1 + 1 = k ∨ d.1 = k + 1)))

/-- The Gauge takes the oldest report into its tensor's maximum and judges a layer's ratio once its shards are in;
RELEASE starts the held updates; the state image is saved, and loaded at once or when no cell runs (R410, R414, R417,
R424, R425). -/
def Obligations.GaugeTakesReports : Prop :=
  ∀ (p : Pid) (s : State),
    let q := s.pol p
    (s.live p 5 = true →
      let x := s.ctxOf p
      (q.gauge.inbox = [] → s.Gives (.amaxReport p) p q) ∧
      (∀ r rest, q.gauge.inbox = r :: rest →
        (x.scaleEntry q r.tensor = none → s.Gives (.amaxReport p) p
          (((q.onGauge fun g => { g with inbox := rest }).count (GAU + 0x94) 1 16 16).raise GAU 9)) ∧
        (∀ e, x.scaleEntry q r.tensor = some e →
          let src := x.cfg q (GAU + 0x54) e.1
          let t := x.sourceT q (bits src 0 16) + x.sourceT q (bits src 16 16)
          let g := { q.gauge with inbox := rest }
          s.Gives (.amaxReport p) p { q with gauge := g.setScale e.1 { g.scale e.1 with
            max := maxMag (g.scale e.1).max (toF32 ((f32 r.value).scale (-t))) } })) ∧
      (∀ (ch : Fin 4), q.ratioReady ch = none → s.Gives (.pumpRatioReport p ch) p q) ∧
      (∀ (ch : Fin 4) t, q.ratioReady ch = some t →
        let l := q.gauge.ratios.filter fun r => r.ch == ch && r.tensor == t
        let r := (q.onGauge fun g => { g with ratios := g.ratios.filter fun r => !(r.ch == ch && r.tensor == t) }).count
          (GAU + 0x94) (l.foldl (fun n r => n + r.nans) 0) 0 16
        (x.layerEntry q t = none → s.Gives (.pumpRatioReport p ch) p r) ∧
        (∀ i, x.layerEntry q t = some i → s.Gives (.pumpRatioReport p ch) p (r.judge x i t
          (toF32 ((f64 (l.foldl (fun s r => dadd s r.num) 0)).div (f64 (l.foldl (fun s r => dadd s r.den) 0))).sqrt))))) ∧
    (∀ w : Who, s.Admits p (GAU + 0x0C) w →
      let x := (s.noted w).ctxOf p
      ((∀ n < 4, (q.chan n).held = false) → s.GivesW w (.gaugeRelease p w) p q) ∧
      (∀ (ch : Fin 4) t, (q.chan ch.val).tab = some t → (q.chan ch.val).held = true →
        (∀ n < 4, n ≠ ch.val → (q.chan n).held = false) → s.GivesW w (.gaugeRelease p w) p
          ((q.setChan ch.val { q.chan ch.val with held := false }).startUpdate x ch t)) ∧
      (∀ o, q.imgAt x = some o → s.GivesW w (.imgSave p w) p
        (q.memWrite x (blockBy w.ctx) 1 o ((q.gaugeImage x).map some)).p) ∧
      (q.anyRun = true → s.GivesW w (.imgLoad p w) p (q.onGauge fun g => { g with imgWait := true })) ∧
      (q.anyRun = false → s.GivesW w (.imgLoad p w) p (q.loadImage x)))

/-- The watchdogs: a semaphore wait or a fault halts the plot, a hung engine or an overlong HOLD halts its plots and
resets it, a die that gives no response and a lost internal link are reset, a stuck link is reported (its record holds
free values where the manual gives none, log 4), and the guard timer resets the polder's power (R383 to R386). Halting a plot with RESET_EN clear stops its cells and leaves it
halted, and records the cause; with it set, the plot is reset unless CEILING forbids every reset (R385, R391, R405).
-/
def Obligations.WatchdogsHaltAndReset : Prop :=
  (∀ (p : Pid) (s : State),
     let q := s.pol p
     let x := s.ctxOf p
     s.wdnLive p = true →
     (∀ c : CellId, c.p = p → (q.cell c.key).st = .waitSem → q.cellDown c.key = false →
       s.GivesWdn (.semWaitWatchdog c) p (q.halt x (q.plotOf c.key) 3 Status.internal)) ∧
     (q.haltCause = none → s.GivesWdn (.plotHalt p) p q) ∧
     (∀ k cause code, q.haltCause = some (k, cause, code) →
       let r := q.onGrid fun g => { g with faults := g.faults.filter fun f => !(q.plotOf k).hasKey f.1 }
       s.GivesWdn (.plotHalt p) p (if r.halted k then r else r.halt x (q.plotOf k) cause code)) ∧
     (∀ e : EngId, e.p = p → (q.eng e.key).reqs ≠ [] ∨ (q.eng e.key).txns ≠ [] → q.engDown e.key = false →
       (q.eng e.key).probing = false → s.GivesWdn (.engWaitWatchdog e) p (q.engineHang x e.key 4 Status.internal)) ∧
     (q.grid.hold.frozen = true → q.grid.hold.src ≠ 0xFF → q.engDown q.grid.hold.src = false →
       s.GivesWdn (.holdOverrun p) p (q.engineHang x (if (q.eng q.grid.hold.src).outHold then q.grid.hold.src + 8
         else q.grid.hold.src) 5 Status.holdOverrun)) ∧
     (∀ k : Fin 4, s.GivesWdn (.noResponseWatchdog p (.fieldDie k)) p ((q.raise WDN 0).ownReset x (.die k.val) 6 Status.resetAbort)) ∧
     s.GivesWdn (.noResponseWatchdog p .basin) p ((q.raise WDN 0).ownReset x (.die 4) 6 Status.resetAbort) ∧
     s.GivesWdn (.noResponseWatchdog p .sluice) p ((q.raise WDN 0).ownReset x .polder 6 Status.resetAbort) ∧
     (∀ j, j ≠ .pll → q.dieDown 5 = false → s.GivesWdn (.internalLinkLost p j) p
       (((q.joinLost j).raise WDN 0).ownReset x .polder 7 Status.resetAbort)) ∧
     (∀ i : Fin 8, cabled i.val = true → q.portCtl i.val 0 = true → q.portUp i.val = false → q.dieDown 5 = false →
       let w := Config.unstated p.val 0 q.gauge.seq.toNat
       s.GivesWdn (.linkStuck p (some i)) p (((((q.onWdn fun w => { w with cause := 0 }).raise WDN 0).raise WDN 11).postFault x
         (bitsN w 0 8) (bitsN w 8 16) 0 (bits w 24 8) q.wdn.polderInc))) ∧
     s.GivesWdn (.wardenGuardTimeout p) p (q.beginReset x .power 8 0 0)) ∧
  (∀ (q : Polder) (x : PolCtx) (r : Rect) (cause : Nat) (code : Status),
     let h := q.halt x r cause code
     ((q.rd (WDN + 0x40)).getLsbD 8 = false → h.wdn.halted = q.wdn.halted ++ [r] ∧ h.wdn.cause = causeWord cause 1 0 code ∧
       h.wdn.ladders = q.wdn.ladders ∧ h.wdn.polderInc = q.wdn.polderInc ∧ h.wdn.cellInc = q.wdn.cellInc) ∧
     ((q.rd (WDN + 0x40)).getLsbD 8 = true → q.ceiling = 0 → h.wdn.ladders = q.wdn.ladders ∧
       h.wdn.cause = causeWord cause 1 0 code ∧ h.wdn.cellInc = q.wdn.cellInc))

/-- The runtime's reset requests reset what they name; a reset held back begins; one whose blocks are all in reset
completes and leaves the reset state; a rung that times out climbs (R388, R389, R391, R392). A reset that begins
advances its domain's incarnation, takes the place of the resets inside it, is on the ladder's first rung, and is the
cause the Warden reports (R387, R389, R390, R394, R405). -/
def Obligations.ResetsAreAskedForAndComplete : Prop :=
  (∀ (p : Pid) (s : State) (w : Who),
     let q := s.pol p
     let x := s.ctxOf p
     let asked := fun (row : Instr) (d : Option Dom) => s.Admits p (WDN + 0x44) w →
       exec row s = .next ((((s.noted w).onPol p fun x q => match d with
         | some d => q.startReset x d 9 0
         | none => q)).followRails p)
     (asked (.resetReqPlot p w) (if Rect.malformed (q.rd (WDN + 0x48)) then none else some (.plot (q.rd (WDN + 0x48))))) ∧
     (∀ t : Byte, asked (.resetReqEngine p w t) (if t.toNat ≤ 63 then some (.engine t.toNat) else none) ∧
       asked (.resetReqDie p w t) (if t.toNat ≤ 4 then some (.die t.toNat) else none)) ∧
     asked (.resetReqPolder p w) (some .polder) ∧
     (q.wdn.st ≠ .failed → asked (.resetReqPowerCycle p w) (some .power)) ∧
     (q.wdn.st = .failed → s.mod.offBy.getLsbD p.val = false → s.mod.power = .on →
       s.mod.denied w.req .health true = false → s.mod.serverShut w.req = false →
       s.GivesWdn (.resetReqPowerCycle p w) p (q.beginReset x .power 9 0 0)) ∧
     (∀ (i : Nat) (l : Ladder), q.wdn.ladders[i]? = some l →
       (s.wdnLive p = true → l.waiting = true → s.GivesWdn (.resetHoldoffEnd p i) p
         ((q.onWdn fun w => { w with ladders := w.ladders.eraseIdx i }).beginReset x l.dom l.cause l.code l.fails)) ∧
       (s.wdnLive p = true → l.waiting = false → s.GivesWdn (.resetHoldoffEnd p i) p q) ∧
       (l.waiting = false → l.capped = false →
         (q.canComplete l.dom = true → s.GivesWdn (.resetComplete p i) p (q.completeReset x l)) ∧
         (q.canComplete l.dom = false → s.GivesWdn (.resetComplete p i) p q) ∧
         s.GivesWdn (.ladderTimeout p i) p (q.climb x l)))) ∧
  (∀ (q : Polder) (x : PolCtx) (d : Dom) (cause : Nat) (code : Status) (fails : Nat),
     let r := q.beginReset x d cause code fails
     r.wdn.ladders = (q.wdn.ladders.filter fun l => !q.contains d l.dom) ++ [⟨d, false, false, cause, code, x.ticks, fails⟩] ∧
     r.wdn.cause = causeWord cause d.num d.target code ∧
     r.wdn.polderInc = (if d = .polder ∨ d = .power then q.wdn.polderInc + 1 else q.wdn.polderInc) ∧
     (∀ e, d = .engine e → r.wdn.incOfEng e = q.wdn.incOfEng e + 1 ∧ ∀ k, k ≠ e → r.wdn.incOfEng k = q.wdn.incOfEng k) ∧
     (∀ k, d = .die k → ∀ j, r.wdn.incOfDie j = if j = k then q.wdn.incOfDie j + 1 else q.wdn.incOfDie j) ∧
     (d = .polder ∨ d = .power → r.wdn.st = .resetting ∧ r.wdn.recovs = []))

/-- Recovery goes on from phase to phase; the sixth waits for the keeper die; the last makes a polder READY; one that
times out cycles the power and the second time fails the polder; RESUME makes a READY polder run (R397 to R399). The
guilty-context probe: it starts once its engine is ready, replays each suspect's batch in turn, ends without a verdict
when all have passed, and quarantines the suspect whose batch hangs; an entry released admits its context again (R402
to R405). -/
def Obligations.RecoveryAndProbesRunTheirPhases : Prop :=
  (∀ (p : Pid) (s : State),
     let q := s.pol p
     let x := s.ctxOf p
     (∀ (r : Recov) (rest : List Recov), q.wdn.recovs = r :: rest → (∀ a ∈ rest, a ≠ r) →
       let goes := fun (n : Nat) => ∃ t, exec (.recoveryPhaseDone p) s = .next t ∧
         (t.pol p).wdn.recovs = { r with phase := n } :: rest ∧ (t.pol p).wdn.st = q.wdn.st
       (r.phase < 5 → goes (r.phase + 1)) ∧ (r.phase = 5 → goes 6) ∧
       (r.phase = 6 → s.mod.keeper = .ready → goes 7) ∧
       (r.phase = 6 → s.mod.keeper ≠ .ready → s.GivesWdn (.recoveryPhaseDone p) p q) ∧
       (r.phase = 7 → ∃ t, exec (.recoveryPhaseDone p) s = .next t ∧ (t.pol p).wdn.recovs = rest ∧
         (t.pol p).wdn.st = if r.die = none then .ready else q.wdn.st) ∧
       (r.fails = 0 → q.ceiling < 5 → s.GivesWdn (.recoveryPhaseTimeout p) p (q.raise WDN 10)) ∧
       (r.fails = 0 → 5 ≤ q.ceiling → s.GivesWdn (.recoveryPhaseTimeout p) p (q.beginReset x .power 10 0 1)) ∧
       (r.fails ≠ 0 → ∃ t, exec (.recoveryPhaseTimeout p) s = .next t ∧ (t.pol p).wdn.st = .failed ∧
         (t.pol p).wdn.recovs = [] ∧ (t.pol p).wdn.ladders = [] ∧ t.mod.powered p = false)) ∧
     (∀ w : Who, s.Admits p (WDN + 0x0C) w →
       (q.wdn.st = .ready → s.GivesW w (.wardenResume p w) p (q.onWdn fun w => { w with st := .running })) ∧
       (q.wdn.st ≠ .ready → s.GivesW w (.wardenResume p w) p q))) ∧
  (∀ (p : Pid) (s : State),
     let q := s.pol p
     let x := s.ctxOf p
     let b := q.wdn.probe
     let answered := (q.eng b.eng).reqs.all fun r => r.answer.isSome
     (s.wdnLive p = true →
       (b.armed = false ∨ b.st = 1 → s.GivesWdn (.probeStart p) p q) ∧
       (b.armed = true → b.st ≠ 1 → q.engDown b.eng = false → q.wdn.st ≠ .resetting → q.wdn.st ≠ .recovering →
         let r := q.onWdn fun w => { w with
           probe := { b with st := 1, at_ := 0 }, st := if w.st = .running then .probing else w.st }
         s.GivesWdn (.probeStart p) p (Polder.replay { r with heldCtx := b.suspects.map (·.ctx) } x)) ∧
       (b.st = 1 → answered = true → b.at_ + 1 < b.suspects.length → s.GivesWdn (.probeBatchDone p) p
         ((q.onWdn fun w => { w with probe := { b with at_ := b.at_ + 1 } }).replay x)) ∧
       (b.st = 1 → answered = true → b.suspects.length ≤ b.at_ + 1 → ∃ t, exec (.probeBatchDone p) s = .next t ∧
         (t.pol p).wdn.probe.st = 3 ∧ (t.pol p).heldCtx = [] ∧
         (t.pol p).wdn.st = if q.wdn.st = .probing then .running else q.wdn.st) ∧
       (b.st = 1 → answered = false → s.GivesWdn (.probeTimeout p) p
         (((q.ownReset x (.engine b.eng) 11 Status.internal).onWdn fun w => { w with probe := { b with st := 2 } }).quarantine x
           (Probe.guilty b)))) ∧
     (∀ w : Who, s.Admits p (WDN + 0x94) w →
       let i := q.sel (WDN + 0x90) w % 16
       let r := q.onWdn fun w => { w with quar := SMap.erase w.quar i }
       (b.stuck = false → s.GivesW w (.quarantineRelease p w) p r) ∧
       (b.stuck = true → s.GivesW w (.quarantineRelease p w) p (r.quarantine ((s.noted w).ctxOf p) (Probe.guilty b)))))

/-- The doorbells move a queue's tail and head; a served slot fetches the entry at its head, refuses it over quota or
pool with its code, or admits it, and reports a full completion ring once (R431, R436). A command that may be
dispatched is refused with the code of the first check it fails, is held, or is dispatched; one that must wait for its
queue's order is left (R393, R402, R404, R432, R435, R443, R469). -/
def Obligations.QueuesFetchAndDispatchCommands : Prop :=
  (∀ (k : Fin 64) (s : State) (e : BitVec 1024) (v : W32), s.mod.power = .on →
     let m := s.mod
     let b := m.slot k
     let n := m.sqSize k
     let quota := m.cfg (KQ + 0x48) k.val
     let c : Cmd := ⟨entryTag e, e, m.slotCtx k, .ready, false, BitVec.ofNat 12 ((b.sqHead.toNat + 1) % n)⟩
     (exec (.sqTailDoorbell k v) s = .next (s.onMod fun m => m.setSlot k { b with sqTail := bits v 0 12 })) ∧
     (exec (.cqHeadDoorbell k v) s = .next (s.onMod fun m =>
       Module.postAll b.unposted.length (m.setSlot k { b with cqHead := bits v 0 12 }) k)) ∧
     (m.keeper = .ready ∨ m.keeper = .noImage → (m.kq 0x5C k).getLsbD 16 = true → m.slotCtx k ≠ 0xFFFF →
       b.sqHead.toNat % n ≠ b.sqTail.toNat % n →
       (m.cqFull k = true → b.stalled = true → exec (.commandFetch k e) s = .next (s.onMod id)) ∧
       (m.cqFull k = true → b.stalled = false → exec (.commandFetch k e) s =
         .next (s.onMod fun m => (m.setSlot k { b with stalled := true }).raise KQ 4)) ∧
       (m.cqFull k = false → bitsN quota 16 12 < b.out + 1 → ∃ t, exec (.commandFetch k e) s = .next t ∧
         (t.mod.slot k).cmds = b.cmds ∧ (t.mod.slot k).sqHead = BitVec.ofNat 12 ((b.sqHead.toNat + 1) % n) ∧
         t.mod.rd (KQ + 0x6C) (1 + k.val) = addField (m.rd (KQ + 0x6C) (1 + k.val)) 0 32 1) ∧
       (m.cqFull k = false → b.out + 1 ≤ bitsN quota 16 12 → m.outstanding < 2048 → b.out + 1 ≤ bitsN quota 0 12 →
         ∃ t, exec (.commandFetch k e) s = .next t ∧
           t.mod.slot k = { b with sqHead := c.sqh, stalled := false, cmds := b.cmds ++ [c] }) ∧
       (m.cqFull k = false → b.out + 1 ≤ bitsN quota 16 12 → m.outstanding < 2048 → bitsN quota 0 12 < b.out + 1 →
         ∃ t, exec (.commandFetch k e) s = .next t ∧ t.mod.slot k = { b with
           sqHead := c.sqh, stalled := false, cmds := b.cmds ++ [{ c with phase := .waiting, deferred := true }] }))) ∧
  (∀ (k : Fin 64) (tag : BitVec 16) (s : State) (c : Cmd), s.mod.power = .on → (s.mod.slot k).find tag = some c →
     let op := entryByte c.entry 0
     let row := Instr.commandDispatch k tag
     let ends := fun (st : Status) => exec row s = .next (s.endNow k c.tag st)
     (s.mod.keeper = .ready ∨ s.mod.keeper = .noImage → s.mod.mayDispatch k c = false → exec row s = .next s) ∧
     (s.mod.keeper = .noImage → s.mod.mayDispatch k c = true → op ≠ 0x40 → op ≠ 0x41 → op ≠ 0x50 → ends Status.internal) ∧
     (s.mod.keeper = .ready → s.mod.mayDispatch k c = true →
       (entryOk c.entry = false → ends Status.internal) ∧
       (∀ q, entryOk c.entry = true → entryTarget c.entry = some q →
         let p := s.pol q
         (p.quarantined c.ctx = true → ends Status.internal) ∧
         (p.quarantined c.ctx = false → s.targetDown q op = true →
           exec row s = .next ((s.standIn q).endNow k c.tag Status.resetAbort)) ∧
         (p.quarantined c.ctx = false → s.targetDown q op = false →
           (p.heldCtx.contains c.ctx = true → exec row s = .next (s.holdCmd k c.tag)) ∧
           (p.heldCtx.contains c.ctx = false →
             (startOp op = true → s.mod.commit.isSome = true → p.wdn.st = .running →
               exec row s = .next (s.holdCmd k c.tag)) ∧
             (startOp op = false ∨ s.mod.commit = none →
               (entryGen c.entry ≠ 0 → entryGen c.entry ≠ s.mod.active.gen → ends Status.genMismatch) ∧
               (entryGen c.entry = 0 ∨ entryGen c.entry = s.mod.active.gen → op ≠ 0x40 → exec row s =
                 .next (s.onMod fun m => m.updCmd k c.tag fun c => { c with phase := .dispatched }))))))))

/-- A dispatched command takes its opcode's effect: what is at once completes, the others go to their polder; journal
records, converted images and reports are written to server memory (R138, R170, R218, R263, R352, R353, R380, R406,
R434, R473). -/
def Obligations.CommandsTakeTheirOpcodesEffect : Prop :=
  ∀ (k : Fin 64) (tag : BitVec 16) (s : State) (c : Cmd),
    let o : Origin := .cmd k tag c.ctx
    let pay := payload c.entry
    let a := payloadAddr c.entry
    (s.Runs k tag 0x00 c → exec (.cmdNop k tag) s = .next (s.endNow k tag Status.done)) ∧
    (∀ q, 2 ^ 26 ≤ pay 0 4 →
      (s.RunsAt k tag 0x01 c q → exec (.regRead k tag) s = .next (s.endNow k tag Status.addressInvalid)) ∧
      (s.RunsAt k tag 0x02 c q → exec (.regWrite k tag) s = .next (s.endNow k tag Status.addressInvalid))) ∧
    (∀ q, pay 0 4 < 2 ^ 26 → let reg := RegAddr.polder q (BitVec.ofNat 26 (pay 0 4))
      (s.RunsAt k tag 0x01 c q → let r := s.regRead reg ⟨.keeperAgent, c.ctx⟩
        exec (.regRead k tag) s = .next (r.1.endNow k tag r.2.code.1 (r.2.code.2.setWidth 64))) ∧
      (s.RunsAt k tag 0x02 c q → let r := s.regWrite reg ⟨.keeperAgent, c.ctx⟩ (BitVec.ofNat 32 (pay 4 4))
        exec (.regWrite k tag) s = .next (r.1.endNow k tag r.2.code.1))) ∧
    (∀ q, let starts := fun (row : Instr) (op : Nat) (f : PolCtx → Polder → Polder) =>
        s.RunsAt k tag op c q → exec row s = .next (s.startCmd k tag q f)
      starts (.plotIssue k tag) 0x10 (fun x p => p.submitIssue x (payloadWords c.entry 16) o) ∧
      starts (.pipeStart k tag) 0x11 (fun x p => p.submitPipe x (a 0) o) ∧
      starts (.kvEdit k tag) 0x12 (fun x p => p.submitEdit x (payloadWords c.entry 8) o) ∧
      starts (.updateArm k tag) 0x13 (fun x p => p.submitArm x (Fin.ofNat 4 (pay 0 1 % 4)) (a 8) o) ∧
      starts (.mapStage k tag) 0x14 (fun x p => p.stageMap x (pay 0 1 % 8) (a 8) o) ∧
      starts (.mapActivate k tag) 0x15 (fun x p => p.submitActivate x (pay 0 1 % 8) o) ∧
      (s.RunsAt k tag 0x20 c q →
        let rs := (SMap.get (fun _ => []) s.mod.journals q.val).filter fun r =>
          decide ((bits r 32 32 - BitVec.ofNat 32 (pay 0 4)).toNat < pay 4 4)
        exec (.journalRead k tag) s = .next ((s.hostWrite (a 8) (rs.flatMap fun r => bytesOf r 32)).endNow k tag Status.done
          (BitVec.ofNat 64 rs.length))) ∧
      (∀ ctr qu, qu.length ≤ 65536 → s.RunsAt k tag 0x16 c q →
        let rs := restoreRecords ((s.ctxOf q).ownId (s.pol q)) s.free ctr qu
        (restoreOk ctr qu = false → exec (.restore2408 k tag ctr qu) s = .next (s.endNow k tag Status.internal)) ∧
        (restoreOk ctr qu = true → exec (.restore2408 k tag ctr qu) s = .next
          ((State.hostWrite { s with free := s.free + rs.length } (a 16) (rs.flatMap fun r => bytesOf r 64)).endNow k tag
            Status.done (BitVec.ofNat 64 rs.length))))) ∧
    (s.Runs k tag 0x50 c →
      exec (.attest k tag false) s = .next (s.endNow k tag Status.dataUncorrectable) ∧
      ∃ sig : BitVec 384 × BitVec 384, exec (.attest k tag true) s = .next ((State.hostWrite { s with free := s.free + 1 } (a 32)
        (s.report (bytesOf (bits c.entry 512 256) 32) ++ bytesOf sig.1 48 ++ bytesOf sig.2 48)).endNow k tag Status.done 512))

/-- Firmware: an image that fails a check is refused with its reason and the others are stored; activation completes
and resets the keeper die into its slot; a command held in a keeper reset that is not served in time ends (R437, R439,
R470). A keeper reset counts, raises HOST_HOLD and starts the boot ROM; the keeper die that is ready lets work go on;
a boot that takes too long tries the other slot once; a polder that has completed its work reports the hold (R18, R437
to R439, R469). -/
def Obligations.FirmwareAndKeeperStart : Prop :=
  (∀ (k : Fin 64) (tag : BitVec 16) (s : State) (c : Cmd),
     (s.Runs k tag 0x40 c →
       let image := decide (payload c.entry 0 1 % 2 = 1)
       let len := payload c.entry 16 4
       let busy := s.mod.running = image ∧ s.mod.keeper = .ready
       (busy → exec (.fwLoad k tag none) s = .next (s.endLoad k tag Status.refusedBusy 0)) ∧
       (¬busy → exec (.fwLoad k tag none) s = .next (s.endLoad k tag Status.dataUncorrectable 0)) ∧
       (∀ b : List Byte, b.length ≤ 67108864 → b.length = len → ¬busy →
         (len < 512 ∨ 512 + fwField b 12 4 ≠ len → exec (.fwLoad k tag (some b)) s = .next (s.endLoad k tag Status.internal 0)) ∧
         (512 ≤ len → 512 + fwField b 12 4 = len →
           (s.mod.fuses.fwReason b ≠ 0 → exec (.fwLoad k tag (some b)) s =
             .next (s.endLoad k tag Status.protection (s.mod.fuses.fwReason b))) ∧
           (s.mod.fuses.fwReason b = 0 → exec (.fwLoad k tag (some b)) s = .next ((s.onMod fun m => { m with
             images := SMap.insert m.images (bit01 image) ⟨b⟩ }).endLoad k tag Status.done 0))))) ∧
     (s.Runs k tag 0x41 c → exec (.fwActivate k tag) s =
       .next ((s.endNow k tag Status.done).keeperReset (decide (payload c.entry 0 1 % 2 = 1)))) ∧
     (∀ d, (s.mod.slot k).find tag = some c → c.phase = .held d → s.mod.kreset = true →
       exec (.heldCommandTimeout k tag) s = .next (s.onMod fun m => m.finish k tag Status.resetAbort true 0))) ∧
  (∀ (s : State),
     (∀ w : Who, s.AdmitsMod (KQ + 0x0C) w → s.mod.keeper ≠ .down →
       exec (.kreset w) s = .next (((s.noted w).onMod id).keeperReset s.mod.running)) ∧
     (s.mod.power = .on → s.mod.keeper = .ready → exec .keeperWatchdog s = .next (s.keeperReset s.mod.running)) ∧
     (∀ slot, let t := s.keeperReset slot
       t.mod.kreset = true ∧ t.mod.hostHold = true ∧ t.mod.loading = none ∧
       t.mod.kresets = (if s.mod.kresets = 0xFF then 0xFF else s.mod.kresets + 1) ∧
       (s.mod.slotOk slot = true → t.mod.keeper = .booting ∧ t.mod.running = slot ∧ t.mod.fallback = false) ∧
       (s.mod.slotOk slot = false → s.mod.slotOk (!slot) = true →
         t.mod.keeper = .booting ∧ t.mod.running = !slot ∧ t.mod.fallback = true) ∧
       (s.mod.slotOk slot = false → s.mod.slotOk (!slot) = false → t.mod.keeper = .noImage)) ∧
     (s.mod.power = .on → s.mod.keeper = .booting →
       (∃ t, exec .keeperReady s = .next t ∧ t.mod.keeper = .ready ∧ t.mod.kreset = false ∧ t.mod.hostHold = false ∧
         ∀ p, s.mod.powered p = true → (t.pol p).hostHold = false ∧ (t.pol p).stepHold = false) ∧
       (s.mod.bootOther = true → exec .keeperBootTimeout s = .next s) ∧
       (s.mod.bootOther = false → ∃ t, exec .keeperBootTimeout s = .next t ∧
         (s.mod.slotOk (!s.mod.running) = true → t.mod.keeper = .booting ∧ t.mod.running = !s.mod.running ∧
           t.mod.fallback = true) ∧
         (s.mod.slotOk (!s.mod.running) = false → t.mod.keeper = .noImage))) ∧
     (∀ p, s.live p 5 = true → let q := s.pol p
       (q.hostHold = true → q.stepHold = false → q.workDone = true → s.Gives (.hostHoldPoint p) p
         (Polder.notifyAll { q with stepHold := true } (s.ctxOf p) 1 ((s.ctxOf p).ownId q) q.wdn.polderInc)) ∧
       (q.hostHold = false ∨ q.workDone = false → s.Gives (.hostHoldPoint p) p q)))

/-- The configuration operations reach the configuration unit from CFG_CTRL and from the queues (R441, R445). Staging
copies the ACTIVE image under the next number; a commit or a rollback that passes its checks becomes pending with the
image sealed, one that fails is reported and unsealed; a discard drops the staged image; an operation whose state
forbids it ends with its code and changes no image (R441, R442). -/
def Obligations.ImagesAreStagedSealedAndDropped : Prop :=
  (∀ (s : State),
     (∀ w : Who, s.AdmitsMod (CFGM + 0x50) w →
       let u := (s.noted w).onMod id
       exec (.cfgCtrlStage w) s = .next (u.cfgOp .stage none) ∧ exec (.cfgCtrlCommit w) s = .next (u.cfgOp .commit none) ∧
       exec (.cfgCtrlDiscard w) s = .next (u.cfgOp .discard none) ∧
       exec (.cfgCtrlRollback w) s = .next (u.cfgOp .rollback none)) ∧
     (∀ (k : Fin 64) (tag : BitVec 16) (c : Cmd),
       let u := s.onMod fun m => m.updCmd k tag fun c => { c with phase := .running }
       (s.Runs k tag 0x30 c → exec (.cfgStage k tag) s = .next (u.cfgOp .stage (some (k, tag)))) ∧
       (s.Runs k tag 0x31 c → exec (.cfgCommit k tag) s = .next (u.cfgOp .commit (some (k, tag)))) ∧
       (s.Runs k tag 0x32 c → exec (.cfgDiscard k tag) s = .next (u.cfgOp .discard (some (k, tag)))) ∧
       (s.Runs k tag 0x33 c → exec (.cfgRollback k tag) s = .next (u.cfgOp .rollback (some (k, tag)))))) ∧
  (∀ (s : State) (o : Option (Fin 64 × BitVec 16)),
     let m := s.mod
     let stops := fun (op : CfgOp) (st : Status) => s.cfgOp op o = s.onMod fun m => m.endCfg op o st 0
     (m.staged.isSome = true → stops .stage Status.refusedBusy) ∧
     (m.staged = none → m.cfgNext = 0xFFFFFFFF → stops .stage Status.internal) ∧
     (m.staged = none → m.cfgNext ≠ 0xFFFFFFFF →
       let t := s.cfgOp .stage o
       t.mod.staged = some { m.active with gen := m.cfgNext } ∧ t.mod.sealed = false ∧ t.mod.cfgNext = m.cfgNext + 1 ∧
       t.mod.active = m.active ∧ t.mod.previous = m.previous ∧
       t.mod.rd (CFGM + 0x54) = BitVec.ofNat 32 (Status.done.toNat + 256 * 0x30)) ∧
     (m.commit.isSome = true → stops .commit Status.refusedBusy ∧ stops .discard Status.refusedBusy ∧
       stops .rollback Status.refusedBusy) ∧
     (m.commit = none →
       (let t := s.cfgOp .discard o;
         t.mod.staged = none ∧ t.mod.sealed = false ∧ t.mod.active = m.active ∧ t.mod.cfgNext = m.cfgNext) ∧
       (m.staged = none → stops .commit Status.genNotStaged) ∧ (m.previous = none → stops .rollback Status.internal) ∧
       (∀ img u page, m.staged = some img → (s.onMod fun m => { m with sealed := true }).checkImage img = (u, some page) →
         let t := s.cfgOp .commit o
         t.mod.commit = none ∧ t.mod.sealed = false ∧ t.mod.staged = some img ∧ t.mod.active = m.active ∧
         t.mod.rd (CFGM + 0x58) = page) ∧
       (∀ img u, m.staged = some img → (s.onMod fun m => { m with sealed := true }).checkImage img = (u, none) →
         let t := s.cfgOp .commit o
         t.mod.commit = some ⟨false, o⟩ ∧ t.mod.sealed = true ∧ t.mod.staged = some img ∧ t.mod.active = m.active) ∧
       (∀ img, m.previous = some img → let t := s.cfgOp .rollback o
         t.mod.staged = some img ∧ t.mod.previous = some img ∧ t.mod.active = m.active ∧ t.mod.sealed = t.mod.commit.isSome)))

/-- A pending commit swaps once every polder is drained: the staged image becomes ACTIVE and the ACTIVE one PREVIOUS;
one that does not drain in time is dropped with NOT_DRAINED and the image stays staged; a write of a staged register
reaches the shadow image, and is ignored while there is none or it is sealed (R8, R441, R443, R444). -/
def Obligations.CommitsSwapOrTimeOut : Prop :=
  ∀ (s : State),
    let alldrained := (List.finRange 4).all s.drained
    (∀ c img, s.mod.commit = some c → s.mod.staged = some img →
      (s.mod.keeper = .ready → alldrained = true → ∃ t, exec .commitSwap s = .next t ∧
        t.mod.active = img ∧ t.mod.previous = some s.mod.active ∧ t.mod.staged = none ∧ t.mod.commit = none ∧
        t.mod.sealed = false ∧ t.mod.cfgNext = s.mod.cfgNext) ∧
      (s.mod.keeper ≠ .ready ∨ alldrained = false → exec .commitSwap s = .next s)) ∧
    (∀ c, s.mod.commit = some c →
      (alldrained = true → exec .commitDrainTimeout s = .next s) ∧
      (alldrained = false → ∃ t, exec .commitDrainTimeout s = .next t ∧ t.mod.commit = none ∧ t.mod.sealed = false ∧
        t.mod.staged = s.mod.staged ∧ t.mod.active = s.mod.active ∧
        bits (t.mod.rd (CFGM + 0x54)) 0 8 = Status.notDrained)) ∧
    (∀ (p : Pid) (off : BitVec 26) (w : Who) (v : W32) (g : Page) (r : RegInfo), s.Admits p off.toNat w →
      polPage off.toNat = some g → regAt g.blk off.toNat = some r → r.acc = .rws →
      (s.pol p).deadTier g (off.toNat % 0x1000) w = false →
      let idx := (s.pol p).entryOf g.base r w
      let row := Instr.rwsWrite (.polder p off) w v
      (s.mod.staged = none ∨ s.mod.sealed = true → exec row s = .next ((s.noted w).onMod fun m => m.raise CFGM 3)) ∧
      (∀ img, s.mod.staged = some img → s.mod.sealed = false → rwsLow off.toNat = false → rwsLow (off.toNat - 4) = false →
        exec row s = .next ((s.noted w).onMod fun m => { m with
          staged := some (img.set p.val off.toNat idx (v &&& BitVec.ofNat 32 r.mask)) })))

/-- Fuses: only Varore starts a blow, and only while FIELD_LOCK is clear; a blow done leaves its bit blown; the anti-
rollback counter reaches the running image's number and images below it are gone (R460, R461, R471). -/
def Obligations.FusesAreBlownByVaroreAlone : Prop :=
  ∀ (s : State) (w : Who),
    let m := s.mod
    (s.AdmitsMod (FUS + 0x8C) w →
      (w.req ≠ .keeperFw ∨ m.fuses.fieldLock = true → ∀ i, exec (.fuseBlowProtMap w i) s = .next ((s.noted w).onMod id) ∧
        exec (.fuseBlowDebugLock w) s = .next ((s.noted w).onMod id) ∧
        exec (.fuseBlowFieldLock w) s = .next ((s.noted w).onMod id)) ∧
      (w.req = .keeperFw → m.fuses.fieldLock = false → m.blow = none →
        (∀ i : Fin 128, i.val ≤ 95 → ∃ t, exec (.fuseBlowProtMap w i) s = .next t ∧ t.mod.blow = some (0, i.val) ∧
          t.mod.fuses = m.fuses) ∧
        (∀ i : Fin 128, 95 < i.val → ∃ t, exec (.fuseBlowProtMap w i) s = .next t ∧ t.mod.blow = none ∧
          t.mod.fuses = m.fuses ∧ bits (t.mod.rd (FUS + 0x8C)) 24 8 = Status.internal) ∧
        (∃ t, exec (.fuseBlowDebugLock w) s = .next t ∧ t.mod.blow = some (1, 0) ∧ t.mod.fuses = m.fuses) ∧
        (∃ t, exec (.fuseBlowFieldLock w) s = .next t ∧ t.mod.blow = some (2, 0) ∧ t.mod.fuses = m.fuses))) ∧
    (∀ f b, m.blow = some (f, b) → ∃ t, exec .fuseBlowDone s = .next t ∧ t.mod.blow = none ∧
      t.mod.fuses = m.fuses.blown f b ∧ t.mod.sensed = m.sensed ∧ bits (t.mod.rd (FUS + 0x8C)) 24 8 = Status.done) ∧
    (∀ n, s.AdmitsMod (SEC + 0x0C) w → m.fallback = false → m.svn? m.running = some n →
      (n ≤ m.fuses.arbCount → exec (.arbAdvance w) s = .next ((s.noted w).onMod id)) ∧
      (m.fuses.arbCount < n → n ≤ 64 → ∃ t, exec (.arbAdvance w) s = .next t ∧ n ≤ t.mod.fuses.arbCount ∧
        (∀ i, t.mod.fuses.arb.getLsbD i = (m.fuses.arb.getLsbD i || decide (i < n))) ∧
        ∀ k b, t.mod.image? k = some b → n ≤ fwField b 8 4))

/-- Frames of the Inlet port: a DATA frame that its checks pass is admitted whole in order, or is answered with the
NACK of the first it fails; CREDIT and NACK frames move an OUT stream's window; a frame of another session or sender
is counted and dropped; pauses stop their priorities (R446, R449 to R454, R457). The Inlet's streams: staged frames
are written to their rings, guaranteed ones first; sessions open and close; the consumer's offset moves and gives
credit; timers, pauses and snapshot frames go out; bring-up ends UP or with its cause (R295, R451 to R457). -/
def Obligations.InletFramesMoveTheirData : Prop :=
  (∀ (p : Pid) (f : Frame) (s : State), f.wf = true → s.live p 5 = true →
     let q := s.pol p
     let x := s.ctxOf p
     let k := f.stream.val
     let v := q.stream k
     let o := f.offset.toNat
     let len := f.payload.length
     let bw := x.cfg q (INL + 0xAC) k
     let lenOk := 64 ≤ len ∧ len % 64 = 0
     let named := q.inlet.up = true ∧ f.srcIp = x.peerIp q k
     (∀ row ∈ [(Instr.inletDataFrame p f, 1), (.inletCreditFrame p f, 2), (.inletNackFrame p f, 4)],
       (q.inlet.up = false ∨ f.type ≠ row.2 → s.Gives row.1 p q) ∧
       (q.inlet.up = true → f.type = row.2 → f.srcIp ≠ x.peerIp q k ∨ x.strOut q k = (row.2 == 1) →
         s.Gives row.1 p q.rxOther)) ∧
     (f.type = 1 → named → x.strOut q k = false → lenOk →
       let row := Instr.inletDataFrame p f
       (f.session = 0 ∨ f.session ≠ v.session → s.Gives row p q.rxStale) ∧
       (f.session ≠ 0 → f.session = v.session →
         (o ≠ v.expect → s.Gives row p
           (((q.count (INL + 0xD0) 1 (place := 1 + k)).raise INL 3).sendNack k Status.done true v.expect)) ∧
         (o = v.expect → x.creditEnd q k < o + len ∨ 3125 * bitsN bw 16 9 < 4 * (v.used + len) → s.Gives row p
           (((q.count (INL + 0xC8) 1 (place := 1 + k)).raise INL 2).sendNack k Status.refusedQuota false o)) ∧
         (o = v.expect → o + len ≤ x.creditEnd q k → 4 * (v.used + len) ≤ 3125 * bitsN bw 16 9 → x.stagingFree q k < len →
           s.Gives row p (((q.count (INL + 0xCC) 1 (place := 1 + k)).raise INL 2).sendNack k Status.refusedBusy false o)) ∧
         (o = v.expect → o + len ≤ x.creditEnd q k → 4 * (v.used + len) ≤ 3125 * bitsN bw 16 9 → len ≤ x.stagingFree q k →
           ∃ t, exec row s = .next t ∧ ((t.pol p).stream k).expect = o + len ∧ ((t.pol p).stream k).used = v.used + len ∧
           (t.pol p).inlet.staging = q.inlet.staging ++ [⟨f.stream, v.session, o, f.payload, f.last,
             decide (3125 * bitsN bw 0 9 < 4 * (v.used + len))⟩]))) ∧
     (f.payload = [] → named → x.strOut q k = true → f.session ≠ 0 → f.session = v.session →
       (f.type = 2 → ∃ t, exec (.inletCreditFrame p f) s = .next t ∧
         let u := (t.pol p).stream k
         let done := max v.delivered.toNat (min o v.next)
         u.limit = max v.limit f.limit.toNat ∧ u.delivered = BitVec.ofNat 64 done ∧ u.next = v.next ∧
           ∀ g ∈ u.flying, g ∈ v.flying ∧ done < g.offset + g.data.length) ∧
       (f.type = 4 → ∃ t, exec (.inletNackFrame p f) s = .next t ∧
         let redo := fun (g : OutFrame) => decide (o < g.offset + g.data.length) || g.offset == o
         (t.pol p).stream k = { v with
           flying := v.flying.filter fun g => !redo g, again := v.flying.filter redo ++ v.again })) ∧
     (∀ en pause : BitVec 8, q.inlet.up = true → ∃ t, exec (.inletPfcFrame p en pause) s = .next t ∧
       let on := en &&& bits (x.cfg q (INL + 0x5C)) 0 8
       (t.pol p).inlet = { q.inlet with paused := (q.inlet.paused &&& ~~~on) ||| (pause &&& on) }) ∧
     (q.inlet.up = true → s.Gives (.inletFrameDrop p .fcs) p (q.count (INL + 0x64) 1) ∧
       s.Gives (.inletFrameDrop p .other) p q.rxOther ∧ s.Gives (.inletFrameDrop p .session) p q.rxStale)) ∧
  (∀ (p : Pid) (s : State) (k : Fin 16),
     let q := s.pol p
     let x := s.ctxOf p
     let v := q.stream k.val
     (s.live p 4 = true → (q.inlet.staging = [] → s.Gives (.inletFrameDelivered p) p q) ∧
       (∀ f r, q.inlet.nextStaged = some f →
         let put := Polder.writeRings x f.stream.val (ringPieces (x.ringBytes q f.stream.val) f.offset f.data) q
         (put = (r, false) → s.Gives (.inletFrameDelivered p) p r) ∧
         (put = (r, true) → ∃ t, exec (.inletFrameDelivered p) s = .next t ∧
           (t.pol p).inlet.staging = r.inlet.staging.erase f ∧ (t.pol p).mem = r.mem))) ∧
     (∀ (w : Who) (n : W32), s.Admits p (INL + 0x84) w →
       let u := s.noted w
       let j := q.sel (INL + 0x7C) w
       let x := u.ctxOf p
       (n = 0 ∨ x.strOut q j = true ∨ s.mod.denied .inlet (ringClass (x.ringBase q j)) true = false →
         s.GivesW w (.inletSessionWrite p w n) p (q.writeSession x j n)) ∧
       (n ≠ 0 → x.strOut q j = false → s.mod.denied .inlet (ringClass (x.ringBase q j)) true = true →
         exec (.inletSessionWrite p w n) s = .next (u.onMod fun m => m.deny .inlet (x.ringBase q j).toNat))) ∧
     (∀ (w : Who) (n : W64), s.Admits p (INL + 0xB4) w →
       s.GivesW w (.inletConsumedWrite p w n) p (q.writeConsumed ((s.noted w).ctxOf p) (q.sel (INL + 0x7C) w) n)) ∧
     (s.live p 5 = true →
       (let q' := q.setStream k.val { v with nacked := [] }
         let w := q'.stream k.val
         s.Gives (.inletCreditTimer p k) p
           (if x.creditEnd q' k.val ≠ w.creditLimit ∨ w.delivered.toNat ≠ w.creditDone then q'.sendCredit x k.val else q')) ∧
       (q.inlet.up = true → q.outOpen x k.val = true → q.inlet.paused.getLsbD (x.strPrio q k.val) = false →
         s.Gives (.inletSnapshotSend p k) p (q.sendSnap k.val)) ∧
       (q.inlet.up = false ∨ q.outOpen x k.val = false → s.Gives (.inletSnapshotSend p k) p q) ∧
       (∀ n : Fin 8, let room := 65536 * bitsN (x.cfg q (INL + 0x5C)) 16 8
         let mine := fun j => (q.stream j).session ≠ 0 ∧ x.strOut q j = false ∧ x.strPrio q j = n.val
         let bit : BitVec 8 := BitVec.ofNat 8 (2 ^ n.val)
         q.inlet.up = true → x.pfcOn q n.val = true →
         ((∃ j < 16, mine j ∧ x.stagingFree q j < room) → ∃ t, exec (.inletPfcSend p n) s = .next t ∧
           (t.pol p).inlet = { q.inlet with xoff := q.inlet.xoff ||| bit, pfcOut := q.inlet.pfcOut ++ [(bit, 0xFFFF#16)] }) ∧
         ((∀ j < 16, mine j → 2 * room ≤ x.stagingFree q j ∧ room ≤ x.stagingFree q j) → q.inlet.xoff.getLsbD n.val = true →
           s.Gives (.inletPfcSend p n) p (q.onInlet fun i => { i with
             xoff := i.xoff &&& ~~~bit, pfcOut := i.pfcOut ++ [(bit, 0#16)] }))) ∧
       ((q.rd (INL + 0x0C)).getLsbD 0 = true → ∀ h,
         s.Gives (.inletBringup p true h) p (q.inletDown 6) ∧ s.Gives (.inletBringup p false true) p (q.inletDown 2) ∧
         (q.inlet.up = true → s.Gives (.inletBringup p false false) p q) ∧
         (q.inlet.up = false → ∃ t, exec (.inletBringup p false false) s = .next t ∧ (t.pol p).inlet.up = true ∧
           ((t.pol p).rd (INL + 0x14)).getLsbD 0 = true))))

/-- The module's supply: charging, module reset and running follow one another; a loss turns everything off but keeps
fuses and boot flash; module reset keeps journals and the next image number; PERST# ends what its port carries (R437,
R461, R481, R482, R484 to R486). -/
def Obligations.SupplyAndModuleResetRunTheirSequence : Prop :=
  ∀ (s : State),
    let m := s.mod
    let keeps := fun (t : State) (pw : Power) => t.mod.power = pw ∧ t.mod.fuses = m.fuses ∧ t.mod.images = m.images ∧
      (∀ p, t.mod.powered p = false) ∧ t.mod.keeper = Module.reset.keeper ∧ t.mod.active = Image.zero ∧ t.pending = s.pending
    (m.power = .off ∨ m.power = .tripped → ∃ t, exec .inputRise s = .next t ∧ t.mod = { m with power := .charging } ∧
      t.pols = s.pols) ∧
    (m.power = .charging → exec .hotswapChargeDone s =
      .next { s with ticks := 0, mod := { m with power := .modReset } }) ∧
    (m.power = .modReset → ∃ t, exec .modResetRelease s = .next t ∧ t.mod.power = .on ∧ t.mod.sensed = m.fuses ∧
      (m.slotOk false = true → t.mod.keeper = .booting ∧ t.mod.running = false)) ∧
    (m.power = .on → exec .vinDip s = .next (s.onMod fun m => m.raise PWR 3)) ∧
    (m.power.up = true → (∃ t, exec .vinLoss s = .next t ∧ keeps t .off ∧ t.mod.cfgNext = 1) ∧
      (∃ t, exec .inputOvercurrent s = .next t ∧ keeps t .tripped ∧ t.mod.cfgNext = 1)) ∧
    (m.power = .on ∨ m.power = .modReset → ∃ t, exec .keeperGroupFault s = .next t ∧ keeps t .off ∧ t.mod.cfgNext = 1) ∧
    (m.power = .on → m.blow = none → ∃ t, exec .modResetAssert s = .next t ∧ keeps t .modReset ∧
      t.mod.cfgNext = m.cfgNext ∧ t.mod.journals = m.journals) ∧
    (∀ port : Fin 2, (m.perst.getLsbD port.val = true → ∃ t, exec (.perstAssert port) s = .next t ∧
        t.mod.perst.getLsbD port.val = false ∧ (m.perst ≠ 3 → ∀ p, m.powered p = true → (t.pol p).mem.tier3 = [])) ∧
      (∃ t, exec (.perstRelease port) s = .next t ∧ t.mod = { m with perst := m.perst ||| BitVec.ofNat 2 (2 ^ port.val) } ∧
        t.pols = s.pols))

/-- A polder's rails: they come on in turn at recovery's third phase, are switched off as FAILED and on again with a
new incarnation; a first overcurrent cycles the power; a PLL that loses lock resets its polder, or the keeper die
(R384, R398, R480, R482 to R484). The thermal policy: a sample records the temperatures and their peaks; at 105
degrees the slowest bin is taken, above T_HIGH the next slower one; a polder still critical when its time is out fails
(R421, R491). -/
def Obligations.PolderPowerFollowsItsManager : Prop :=
  (∀ (p : Pid) (s : State) (w : Who),
     let q := s.pol p
     let x := s.ctxOf p
     (s.mayPower p = true → (∀ r, s.mayPower r = true → p ≤ r) → s.GivesWdn (.polderPowerOnSequence p) p
       (Polder.onWdn { q with gauge := { q.gauge with bin := s.mod.bin p } }
         fun w => { w with st := .recovering, recovs := [⟨none, 3, 0, s.ticks⟩] })) ∧
     (s.mayPower p = false → exec (.polderPowerOnSequence p) s = .next s) ∧
     (s.AdmitsMod (PWR + 0x50) w →
       (s.mod.offBy.getLsbD p.val = false → ∃ t, exec (.polderOff p w) s = .next t ∧ (t.pol p).wdn.st = .failed ∧
         t.mod.offBy.getLsbD p.val = true ∧ t.mod.powered p = false) ∧
       (s.mod.offBy.getLsbD p.val = true → exec (.polderOff p w) s = .next ((s.noted w).onMod id)) ∧
       (s.mod.offBy.getLsbD p.val = true → ∃ t, exec (.polderOn p w) s = .next t ∧ (t.pol p).wdn.st = .recovering ∧
         (t.pol p).wdn.polderInc = q.wdn.polderInc + 1 ∧ (t.pol p).wdn.recovs = [⟨none, 2, 0, s.ticks⟩] ∧
         t.mod.offBy.getLsbD p.val = false) ∧
       (s.mod.offBy.getLsbD p.val = false → exec (.polderOn p w) s = .next ((s.noted w).onMod id))) ∧
     (s.mod.power = .on → s.mod.powered p = true →
       (q.afterTrip = false → ∃ t, exec (.railFault p) s = .next t ∧ (t.pol p).wdn.st = .resetting ∧
         (∃ l ∈ (t.pol p).wdn.ladders, l.dom = .power) ∧ t.mod.powered p = false) ∧
       (q.afterTrip = true → ∃ t, exec (.railFault p) s = .next t ∧ (t.pol p).wdn.st = .failed ∧ t.mod.powered p = false)) ∧
     (s.mod.power = .on → s.wdnLive p = true → q.dieDown 5 = false → exec (.pllLockLoss (.polder p)) s =
       .next ((s.onMod fun m => m.count (CLK + 0x44) 1).warden p fun x q => (q.raise WDN 0).ownReset x .polder 7 Status.resetAbort)) ∧
     (s.mod.power = .on → s.mod.keeper ≠ .down → exec (.pllLockLoss .keeper) s =
         .next ((s.onMod fun m => m.count (CLK + 0x44) 1).keeperReset s.mod.running) ∧
       exec (.pllLockLoss .mgmt) s = .next ((s.onMod fun m => m.count (CLK + 0x44) 1).keeperReset s.mod.running))) ∧
  (∀ (p : Pid) (s : State) (temps : BitVec 48), s.mod.power = .on → s.mod.powered p = true →
     let q := s.pol p
     let x := s.ctxOf p
     let ts := (List.range 6).map fun i => bitsN temps (8 * i) 8
     let hot := hottestOf ts
     let c := x.cfg q (GAU + 0x84)
     let auto := (x.cfg q (GAU + 0x40)).getLsbD 5
     (∃ t, exec (.thermalSample p temps) s = .next t ∧ (t.pol p).gauge.hottest = BitVec.ofNat 8 hot ∧
       (t.pol p).gauge.crit = decide (105 ≤ hot) ∧
       (∀ i < 6, SMap.get (fun _ => (0 : Byte)) t.mod.temps (6 * p.val + i) = bits temps (8 * i) 8 ∧
         (SMap.get (fun _ => (0 : Byte)) s.mod.peaks (6 * p.val + i)).toNat ≤
           (SMap.get (fun _ => (0 : Byte)) t.mod.peaks (6 * p.val + i)).toNat) ∧
       (t.pol p).gauge.bin =
         if auto = false then q.gauge.bin
         else if 105 ≤ hot ∧ q.gauge.crit = false then 7
         else if q.gauge.since + 1 < 10 then q.gauge.bin
         else if bitsN c 0 8 ≤ hot ∧ q.gauge.bin.toNat < bitsN c 24 3 then q.gauge.bin + 1
         else if hot ≤ bitsN c 8 8 ∧ 99 ≤ q.gauge.cool ∧ (s.mod.bin p).toNat < q.gauge.bin.toNat then q.gauge.bin - 1
         else q.gauge.bin) ∧
     (q.gauge.crit = true → (s.cfg p (GAU + 0x40)).getLsbD 5 = true → ∃ t, exec (.thermalCritTimeout p) s = .next t ∧
       (t.pol p).wdn.st = .failed ∧ t.mod.powered p = false) ∧
     (q.gauge.crit = false → exec (.thermalCritTimeout p) s = .next s))

/-- Event bits: a write of 1 clears a bit of EVENT, a write of 1 to EVENT_FORCE sets it, and EVENT_COUNT counts each
bit set; nothing else of the polder, the module page or the cell's page changes (R507, R510 to R512). -/
def Obligations.EventBitsAreClearedAndForced : Prop :=
  ∀ (s : State) (w : Who) (v : W32),
    let forced := fun (old new : Nat → W32) (b : Nat) (ev : W32) =>
      new (b + 0x14) = old (b + 0x14) ||| ev ∧
      bitsN (new (b + 0x20)) 0 16 = min 0xFFFF (bitsN (old (b + 0x20)) 0 16 + (setBits ev).length) ∧
      ∀ o, o ≠ b + 0x14 → o ≠ b + 0x20 → new o = old o
    (∀ q off g, polPage off.toNat = some g → s.mod.power = .on → s.polGate q g.blk.cls (g.base + 0x14) w true = .open →
      let ev := v &&& g.blk.events
      s.GivesW w (.eventW1c (.page (.polder q off)) w v) q
        ((s.pol q).wr (g.base + 0x14) ((s.pol q).rd (g.base + 0x14) &&& ~~~ev)) ∧
      ∃ r, s.GivesW w (.eventForce (.page (.polder q off)) w v) q { s.pol q with regs := r } ∧
        forced (SMap.get polDefault (s.pol q).regs) (SMap.get polDefault r) g.base ev) ∧
    (∀ off g, modPage off.toNat = some g → s.mod.power = .on → s.modGate g.blk.cls w true = .open →
      let ev := v &&& g.blk.events
      exec (.eventW1c (.page (.module off)) w v) s = .next ((s.noted w).onMod fun m =>
        m.wr (g.base + 0x14) (m.rd (g.base + 0x14) &&& ~~~ev)) ∧
      ∃ r, exec (.eventForce (.page (.module off)) w v) s = .next ((s.noted w).onMod fun m => { m with regs := r }) ∧
        forced (SMap.get modDefault (s.noted w).mod.regs) (SMap.get modDefault r) g.base ev) ∧
    (∀ c, s.AdmitsCell c w →
      let ev := v &&& Blk.events .cel
      let cell := s.cellOf c
      s.GivesW w (.eventW1c (.cell c) w v) c.p ((s.pol c.p).setCell c.key (cell.wr 0x14 (cell.rd 0x14 &&& ~~~ev))) ∧
      ∃ r, s.GivesW w (.eventForce (.cell c) w v) c.p ((s.pol c.p).setCell c.key { cell with regs := r }) ∧
        forced (SMap.get celDefault cell.regs) (SMap.get celDefault r) 0 ev)

/-- Register reads: the answer of an open page goes back, a down page answers all ones, a denied one is counted;
reading an RC register clears it, reading ERR_CODE captures its address, and nothing else of the polder changes (R66,
R393, R466, R467, R509, R511, R518). Register writes: a plain register takes the bits of its mask, the low half of a
pair comes into effect with the high half, a GO bit is its own row, a shadowed register is written by RWS_WRITE, and
RO registers, selectors' other copy and everything else of the polder stay (R8, R10, R66, R467, R516, R517, R527). -/
def Obligations.RegistersAreReadAndWritten : Prop :=
  (∀ (s : State) (w : Who), s.mod.power = .on →
     let told := fun (t : State) (a : HostReply) => t.mod.replies = s.mod.replies ++ [a] ∧ t.pending = s.pending
     (∀ q off g, polPage off.toNat = some g → off.toNat % 4 = 0 →
       let o := off.toNat % 0x1000
       let gate := fun w => s.polGate q g.blk.cls off.toNat w false
       let read := fun (w : Who) (t : State) => told t (.data (bytesOf (s.polWord q g o w) 4)) ∧ t.free = s.free + 1 ∧
         ∀ k, (k = q ∧ t.pol k = ((s.pol q).readDone g o w (s.polWord q g (o + 4) w)).sent) ∨ (k ≠ q ∧ t.pol k = s.pol k)
       (gate w = .open → ∃ t, exec (.rcRegisterRead (.page (.polder q off)) w) s = .next t ∧ read w t ∧
         (o = 0x20 → (t.pol q).rd (g.base + 0x20) = 0) ∧
         (∀ r, 0x40 ≤ o → g.blk.find o = some r → r.acc = .rc → capturesHigh g.blk o = false → highHalf g.blk o = false →
           (t.pol q).rd (g.base + o) (if r.sel = 0 then 0 else 1 + (s.pol q).entryOf g.base r w) =
             BitVec.ofNat 32 r.reset) ∧
         (o = 0x24 → exec (.errCodeRead (.page (.polder q off)) w) s = .next t ∧
           SMap.find? (t.pol q).captured (g.base + 0x28) = some ((s.pol q).rd (g.base + 0x28)) ∧
           SMap.find? (t.pol q).captured (g.base + 0x2C) = some ((s.pol q).rd (g.base + 0x2C)))) ∧
       (gate ⟨.debug, 0⟩ = .open → ∃ t, exec (.debugAccess (.polder q off) none) s = .next t ∧ read ⟨.debug, 0⟩ t) ∧
       (gate w = .down → ∃ t, exec (.rcRegisterRead (.page (.polder q off)) w) s = .next t ∧
         told t (.data [0xFF, 0xFF, 0xFF, 0xFF])) ∧
       (gate w = .denied → w.req ≠ .debug → ∃ t, exec (.rcRegisterRead (.page (.polder q off)) w) s = .next t ∧
         told t .abort ∧ t.pols = s.pols)) ∧
     (∀ off g, modPage off.toNat = some g → off.toNat % 4 = 0 → s.modGate g.blk.cls w false = .open →
       let o := off.toNat % 0x1000
       ∃ t, exec (.rcRegisterRead (.page (.module off)) w) s = .next t ∧
         told t (.data (bytesOf (s.modWord g o w) 4)) ∧ t.pols = s.pols ∧
         (o = 0x24 → exec (.errCodeRead (.page (.module off)) w) s = .next t)) ∧
     (∀ c, s.cellGate c w false = .open →
       (∃ t, exec (.rcRegisterRead (.cell c) w) s = .next t ∧ told t (.data (bytesOf (s.cellWord c 0x20) 4)) ∧
         (t.pol c.p) = ((s.pol c.p).setCell c.key ((s.cellOf c).wr 0x20 0)).sent) ∧
       (∃ t, exec (.errCodeRead (.cell c) w) s = .next t ∧ told t (.data (bytesOf (s.cellWord c 0x24) 4)) ∧
         (t.pol c.p) = ((s.pol c.p).setCell c.key ((s.cellOf c).readDone 0x24)).sent) ∧
       (∀ a : BitVec 17, a.toNat % 4 = 0 → 0x14000 ≤ a.toNat → a.toNat < 0x16000 →
         w.req = .keeperAgent ∨ w.req = .keeperFw ∨ w.req = .debug →
         ∃ t, exec (.bar2Access c w a none) s = .next t ∧
           told t (.data (bytesOf (bits (SMap.get (fun _ => 0) (s.cellOf c).prog ((a.toNat - 0x14000) / 8))
             (32 * (a.toNat / 4 % 2)) 32) 4)) ∧ ∀ k, (t.cellOf k).prog = (s.cellOf k).prog))) ∧
  (∀ (s : State) (q : Pid) (w : Who) (v : W32), s.mod.power = .on →
     (∀ off g r, polPage off.toNat = some g → off.toNat % 4 = 0 → 0x40 ≤ off.toNat % 0x1000 →
       g.blk.find (off.toNat % 0x1000) = some r →
       let o := off.toNat % 0x1000
       let p := s.pol q
       let opens := fun (w : Who) => s.polGate q g.blk.cls off.toNat w true = .open
       let live := p.deadTier g o w = false
       let place := if r.sel = 0 then 0 else 1 + p.entryOf g.base r w
       (r.acc = .rws → exec (.registerWrite (.page (.polder q off)) w v) s = exec (.rwsWrite (.polder q off) w v) s) ∧
       (opens w → r.acc = .ro ∨ r.acc = .rc →
         exec (.registerWrite (.page (.polder q off)) w v) s = .next (s.noted w)) ∧
       (opens w → live → r.acc = .rw → g.blk.isSel o = true → s.GivesW w (.registerWrite (.page (.polder q off)) w v) q
         (p.wr (g.base + o) (v &&& BitVec.ofNat 32 r.mask) (if w.req = .keeperFw then fwPlace else 0))) ∧
       (opens w → live → r.acc = .rw → g.blk.isSel o = false →
         (s.noted w).writeAct q g o (p.entryOf g.base r w) w v = none → g.blk ≠ .twn →
         s.GivesW w (.registerWrite (.page (.polder q off)) w v) q (p.storeReg g r (p.entryOf g.base r w) v) ∧
         (p.storeReg g r (p.entryOf g.base r w) v).rd (g.base + r.off) place = v &&& BitVec.ofNat 32 r.mask ∧
         (w = ⟨.debug, 0⟩ → exec (.debugAccess (.polder q off) (some v)) s =
           exec (.registerWrite (.page (.polder q off)) w v) s))) ∧
     (∀ c, s.AdmitsCell c w →
       s.GivesW w (.registerWrite (.cell c) w v) c.p
         ((s.pol c.p).setCell c.key ((s.cellOf c).wr 0x18 (v &&& Blk.events .cel))) ∧
       ∀ a : BitVec 17, a.toNat % 4 = 0 → w.req = .keeperAgent ∨ w.req = .keeperFw ∨ w.req = .debug →
         (a.toNat < 0x14000 → s.GivesW w (.bar2Access c w a (some v)) c.p
           ((s.pol c.p).setCell c.key ((s.cellOf c).svcWrite a.toNat (bytesOf v 4)).1)) ∧
         (0x14000 ≤ a.toNat → a.toNat < 0x16000 → s.GivesW w (.bar2Access c w a (some v)) c.p
           ((s.pol c.p).setCell c.key ((s.cellOf c).writeProg ((a.toNat - 0x14000) / 8) (a.toNat / 4 % 2 == 1) v)))) ∧
     (∀ off g r r', polPage off.toNat = some g → off.toNat % 4 = 0 → pairLow g.blk (off.toNat % 0x1000) = true →
       g.blk.find (off.toNat % 0x1000) = some r → g.blk.find (off.toNat % 0x1000 + 4) = some r' →
       s.polGate q g.blk.cls off.toNat w true = .open →
       let lo := g.base + off.toNat % 0x1000
       let place := if r.sel = 0 then 0 else 1 + (s.pol q).entryOf g.base r w
       (∃ t, exec (.registerWrite (.page (.polder q off)) w v) s = .next t ∧
         (t.pol q).rd lo place = v &&& BitVec.ofNat 32 r.mask ∧ (t.pol q).pair lo place = (s.pol q).pair lo place) ∧
       ∀ hi : W32, ∃ t, exec (.loHiPairWrite (.polder q off) w v hi) s = .next t ∧
         (t.pol q).pair lo place = (hi &&& BitVec.ofNat 32 r'.mask) ++ (v &&& BitVec.ofNat 32 r.mask)) ∧
     (∀ a : Nat × W32 × Instr, a ∈ [(GRD + 0x4C, 1, .recfgGo q w), (GRD + 0x4C, 2, .recfgRelease q w),
         (GRD + 0x58, v, .slotTableWrite q w v), (GRD + 0x84, 1, .issueGo q w), (GRD + 0x128, 1, .pipeGo q w),
         (FLX2 + 0x4C, 1, .flxMapStage q w), (FLX2 + 0x4C, 2, .flxMapActivate q w), (FLX2 + 0x4C, 4, .flxMapRetire q w),
         (FLX2 + 0x4C, 8, .flxMapDrop q w), (PMP + 0x48, 1, .pumpArm q 0 w), (PMP + 0x48, 2, .pumpClose q 0 w),
         (WDN + 0x0C, 1, .wardenResume q w), (GRD + 0x0C, v, .debugHoldWrite q w (v.getLsbD 0))] →
       s.Admits q a.1 w → exec (.registerWrite (.page (.polder q (BitVec.ofNat 26 a.1))) w a.2.1) s = exec a.2.2 (s.noted w)))
end

