-- ==== Sys2Proof/Laws/SMap.lean ====
section
/-! SUPPORT. Laws of sparse maps: reads after writes, and the canonical form, which every operation keeps. -/

namespace Sys2Proof.SMap
variable {V : Type}

theorem find?_insert_same (m : SMap V) (k : Nat) (v : V) : find? (insert m k v) k = some v := by
  induction m with
  | nil => simp [insert, find?]
  | cons e r ih =>
    obtain ⟨j, w⟩ := e
    rcases Nat.lt_trichotomy k j with h | h | h
    · simp [insert, h, find?]
    · simp [insert, h, find?]
    · simp [insert, Nat.not_lt.mpr h.le, h.ne', find?, ih]

theorem find?_insert_ne (m : SMap V) {k j : Nat} (v : V) (h : j ≠ k) : find? (insert m k v) j = find? m j := by
  induction m with
  | nil => simp [insert, find?, h]
  | cons e r ih =>
    obtain ⟨i, w⟩ := e
    rcases Nat.lt_trichotomy k i with g | g | g
    · simp [insert, g, find?, h]
    · subst g; simp [insert, find?, h]
    · simp [insert, Nat.not_lt.mpr g.le, g.ne', find?, ih]

theorem find?_erase_same (m : SMap V) (k : Nat) : find? (erase m k) k = none := by
  induction m with
  | nil => rfl
  | cons e r ih =>
    obtain ⟨j, w⟩ := e
    by_cases h : k = j
    · simp only [erase, if_pos h]; exact ih
    · simp [erase, h, find?, ih]

theorem find?_erase_ne (m : SMap V) {k j : Nat} (h : j ≠ k) : find? (erase m k) j = find? m j := by
  induction m with
  | nil => rfl
  | cons e r ih =>
    obtain ⟨i, w⟩ := e
    by_cases g : k = i
    · subst g; simp [erase, find?, h, ih]
    · simp [erase, g, find?, ih]

variable [DecidableEq V]

/-- A read after a write of the same key. -/
@[simp] theorem get_set_same (d : Nat → V) (m : SMap V) (k : Nat) (v : V) : get d (set d m k v) k = v := by
  unfold get set
  split
  · next h => rw [find?_erase_same]; simp [h]
  · rw [find?_insert_same]; rfl

/-- A write of one key leaves every other. -/
theorem get_set_ne (d : Nat → V) (m : SMap V) {k j : Nat} (v : V) (h : j ≠ k) :
    get d (set d m k v) j = get d m j := by
  unfold get set
  split
  · rw [find?_erase_ne m h]
  · rw [find?_insert_ne m v h]

theorem get_set (d : Nat → V) (m : SMap V) (k j : Nat) (v : V) :
    get d (set d m k v) j = if j = k then v else get d m j := by
  split
  · next h => subst h; exact get_set_same d m j v
  · next h => exact get_set_ne d m v h

omit [DecidableEq V] in
theorem sortedFrom_mono {lo lo' : Nat} (h : lo' ≤ lo) (m : SMap V) (hm : sortedFrom lo m = true) :
    sortedFrom lo' m = true := by
  cases m with
  | nil => rfl
  | cons e r => simp only [sortedFrom, Bool.and_eq_true, decide_eq_true_eq] at *; exact ⟨by omega, hm.2⟩

omit [DecidableEq V] in
theorem sortedFrom_insert (m : SMap V) (lo k : Nat) (v : V) (hk : lo ≤ k) (hm : sortedFrom lo m = true) :
    sortedFrom lo (insert m k v) = true := by
  induction m generalizing lo with
  | nil => simp [insert, sortedFrom, hk]
  | cons e r ih =>
    obtain ⟨j, w⟩ := e
    simp only [sortedFrom, Bool.and_eq_true, decide_eq_true_eq] at hm
    rcases Nat.lt_trichotomy k j with h | h | h
    · simp only [insert, if_pos h, sortedFrom, Bool.and_eq_true, decide_eq_true_eq]; exact ⟨hk, by omega, hm.2⟩
    · subst h; simp only [insert, Nat.lt_irrefl, if_false, if_true, sortedFrom, Bool.and_eq_true, decide_eq_true_eq]
      exact hm
    · simp only [insert, Nat.not_lt.mpr h.le, h.ne', if_false, sortedFrom, Bool.and_eq_true, decide_eq_true_eq]
      exact ⟨hm.1, ih (j + 1) h hm.2⟩

omit [DecidableEq V] in
theorem sortedFrom_erase (m : SMap V) (lo k : Nat) (hm : sortedFrom lo m = true) :
    sortedFrom lo (erase m k) = true := by
  induction m generalizing lo with
  | nil => rfl
  | cons e r ih =>
    obtain ⟨j, w⟩ := e
    simp only [sortedFrom, Bool.and_eq_true, decide_eq_true_eq] at hm
    by_cases h : k = j
    · simp only [erase, if_pos h]; exact ih lo (sortedFrom_mono (by omega) r hm.2)
    · simp only [erase, if_neg h, sortedFrom, Bool.and_eq_true, decide_eq_true_eq]; exact ⟨hm.1, ih (j + 1) hm.2⟩

omit [DecidableEq V] in
theorem mem_insert (m : SMap V) (k : Nat) (v : V) (e : Nat × V) (h : e ∈ insert m k v) : e = (k, v) ∨ e ∈ m := by
  induction m with
  | nil => simpa [insert] using h
  | cons a r ih =>
    obtain ⟨j, w⟩ := a
    unfold insert at h
    split at h
    · simpa using h
    · split at h
      · rcases List.mem_cons.mp h with h | h
        · exact .inl h
        · exact .inr (List.mem_cons_of_mem _ h)
      · rcases List.mem_cons.mp h with h | h
        · exact .inr (h ▸ List.mem_cons_self)
        · exact (ih h).imp_right (List.mem_cons_of_mem _)

omit [DecidableEq V] in
theorem mem_erase (m : SMap V) (k : Nat) (e : Nat × V) (h : e ∈ erase m k) : e ∈ m := by
  induction m with
  | nil => exact h
  | cons a r ih =>
    obtain ⟨j, w⟩ := a
    unfold erase at h
    split at h
    · exact List.mem_cons_of_mem _ (ih h)
    · rcases List.mem_cons.mp h with h | h
      · exact h ▸ List.mem_cons_self
      · exact List.mem_cons_of_mem _ (ih h)

/-- A write keeps the canonical form. -/
theorem wf_set (d : Nat → V) (m : SMap V) (k : Nat) (v : V) (h : wf d m = true) : wf d (set d m k v) = true := by
  simp only [wf, sorted, Bool.and_eq_true, List.all_eq_true, decide_eq_true_eq] at *
  unfold set
  split
  · exact ⟨sortedFrom_erase m 0 k h.1, fun e he => h.2 e (mem_erase m k e he)⟩
  · next hv =>
    refine ⟨sortedFrom_insert m 0 k v (Nat.zero_le _) h.1, fun e he => ?_⟩
    rcases mem_insert m k v e he with rfl | he
    · exact hv
    · exact h.2 e he

theorem wf_erase (d : Nat → V) (m : SMap V) (k : Nat) (h : wf d m = true) : wf d (erase m k) = true := by
  simp only [wf, sorted, Bool.and_eq_true, List.all_eq_true, decide_eq_true_eq] at *
  exact ⟨sortedFrom_erase m 0 k h.1, fun e he => h.2 e (mem_erase m k e he)⟩

omit [DecidableEq V] in
theorem sortedFrom_keep (f : Nat → Bool) (m : SMap V) (lo : Nat) (hm : sortedFrom lo m = true) :
    sortedFrom lo (keep f m) = true := by
  induction m generalizing lo with
  | nil => rfl
  | cons e r ih =>
    obtain ⟨j, w⟩ := e
    simp only [sortedFrom, Bool.and_eq_true, decide_eq_true_eq] at hm
    unfold keep
    rw [List.filter_cons]
    split
    · simp only [sortedFrom, Bool.and_eq_true, decide_eq_true_eq]; exact ⟨hm.1, ih (j + 1) hm.2⟩
    · exact ih lo (sortedFrom_mono (by omega) r hm.2)

theorem wf_keep (d : Nat → V) (f : Nat → Bool) (m : SMap V) (h : wf d m = true) : wf d (keep f m) = true := by
  simp only [wf, sorted, Bool.and_eq_true, List.all_eq_true, decide_eq_true_eq] at *
  exact ⟨sortedFrom_keep f m 0 h.1, fun e he => h.2 e (List.mem_of_mem_filter he)⟩

end Sys2Proof.SMap
end

