-- ==== Sys2Proof/Laws/State.lean ====
section
/-! SUPPORT. What each update of a polder leaves as it was, field by field, and what it writes. -/

namespace Sys2Proof.Machine

@[simp] theorem Polder.wr_effLo (p : Polder) (off : Nat) (v : W32) (place : Nat) : (p.wr off v place).effLo = p.effLo := by cases p; rfl
@[simp] theorem Polder.wr_captured (p : Polder) (off : Nat) (v : W32) (place : Nat) : (p.wr off v place).captured = p.captured := by cases p; rfl
@[simp] theorem Polder.wr_cycle (p : Polder) (off : Nat) (v : W32) (place : Nat) : (p.wr off v place).cycle = p.cycle := by cases p; rfl
@[simp] theorem Polder.wr_field (p : Polder) (off : Nat) (v : W32) (place : Nat) : (p.wr off v place).field = p.field := by cases p; rfl
@[simp] theorem Polder.wr_grid (p : Polder) (off : Nat) (v : W32) (place : Nat) : (p.wr off v place).grid = p.grid := by cases p; rfl
@[simp] theorem Polder.wr_engines (p : Polder) (off : Nat) (v : W32) (place : Nat) : (p.wr off v place).engines = p.engines := by cases p; rfl
@[simp] theorem Polder.wr_mem (p : Polder) (off : Nat) (v : W32) (place : Nat) : (p.wr off v place).mem = p.mem := by cases p; rfl
@[simp] theorem Polder.wr_chans (p : Polder) (off : Nat) (v : W32) (place : Nat) : (p.wr off v place).chans = p.chans := by cases p; rfl
@[simp] theorem Polder.wr_ports (p : Polder) (off : Nat) (v : W32) (place : Nat) : (p.wr off v place).ports = p.ports := by cases p; rfl
@[simp] theorem Polder.wr_flx (p : Polder) (off : Nat) (v : W32) (place : Nat) : (p.wr off v place).flx = p.flx := by cases p; rfl
@[simp] theorem Polder.wr_twin (p : Polder) (off : Nat) (v : W32) (place : Nat) : (p.wr off v place).twin = p.twin := by cases p; rfl
@[simp] theorem Polder.wr_wdn (p : Polder) (off : Nat) (v : W32) (place : Nat) : (p.wr off v place).wdn = p.wdn := by cases p; rfl
@[simp] theorem Polder.wr_gauge (p : Polder) (off : Nat) (v : W32) (place : Nat) : (p.wr off v place).gauge = p.gauge := by cases p; rfl
@[simp] theorem Polder.wr_inlet (p : Polder) (off : Nat) (v : W32) (place : Nat) : (p.wr off v place).inlet = p.inlet := by cases p; rfl
@[simp] theorem Polder.wr_unrestored (p : Polder) (off : Nat) (v : W32) (place : Nat) : (p.wr off v place).unrestored = p.unrestored := by cases p; rfl
@[simp] theorem Polder.wr_held (p : Polder) (off : Nat) (v : W32) (place : Nat) : (p.wr off v place).held = p.held := by cases p; rfl
@[simp] theorem Polder.wr_hostHold (p : Polder) (off : Nat) (v : W32) (place : Nat) : (p.wr off v place).hostHold = p.hostHold := by cases p; rfl
@[simp] theorem Polder.wr_stepHold (p : Polder) (off : Nat) (v : W32) (place : Nat) : (p.wr off v place).stepHold = p.stepHold := by cases p; rfl
@[simp] theorem Polder.wr_heldCtx (p : Polder) (off : Nat) (v : W32) (place : Nat) : (p.wr off v place).heldCtx = p.heldCtx := by cases p; rfl
@[simp] theorem Polder.wr_ended (p : Polder) (off : Nat) (v : W32) (place : Nat) : (p.wr off v place).ended = p.ended := by cases p; rfl
@[simp] theorem Polder.wr_hostOut (p : Polder) (off : Nat) (v : W32) (place : Nat) : (p.wr off v place).hostOut = p.hostOut := by cases p; rfl

@[simp] theorem Polder.count_effLo (p : Polder) (off n lo width place : Nat) : (p.count off n lo width place).effLo = p.effLo := by cases p; rfl
@[simp] theorem Polder.count_captured (p : Polder) (off n lo width place : Nat) : (p.count off n lo width place).captured = p.captured := by cases p; rfl
@[simp] theorem Polder.count_cycle (p : Polder) (off n lo width place : Nat) : (p.count off n lo width place).cycle = p.cycle := by cases p; rfl
@[simp] theorem Polder.count_field (p : Polder) (off n lo width place : Nat) : (p.count off n lo width place).field = p.field := by cases p; rfl
@[simp] theorem Polder.count_grid (p : Polder) (off n lo width place : Nat) : (p.count off n lo width place).grid = p.grid := by cases p; rfl
@[simp] theorem Polder.count_engines (p : Polder) (off n lo width place : Nat) : (p.count off n lo width place).engines = p.engines := by cases p; rfl
@[simp] theorem Polder.count_mem (p : Polder) (off n lo width place : Nat) : (p.count off n lo width place).mem = p.mem := by cases p; rfl
@[simp] theorem Polder.count_chans (p : Polder) (off n lo width place : Nat) : (p.count off n lo width place).chans = p.chans := by cases p; rfl
@[simp] theorem Polder.count_ports (p : Polder) (off n lo width place : Nat) : (p.count off n lo width place).ports = p.ports := by cases p; rfl
@[simp] theorem Polder.count_flx (p : Polder) (off n lo width place : Nat) : (p.count off n lo width place).flx = p.flx := by cases p; rfl
@[simp] theorem Polder.count_twin (p : Polder) (off n lo width place : Nat) : (p.count off n lo width place).twin = p.twin := by cases p; rfl
@[simp] theorem Polder.count_wdn (p : Polder) (off n lo width place : Nat) : (p.count off n lo width place).wdn = p.wdn := by cases p; rfl
@[simp] theorem Polder.count_gauge (p : Polder) (off n lo width place : Nat) : (p.count off n lo width place).gauge = p.gauge := by cases p; rfl
@[simp] theorem Polder.count_inlet (p : Polder) (off n lo width place : Nat) : (p.count off n lo width place).inlet = p.inlet := by cases p; rfl
@[simp] theorem Polder.count_unrestored (p : Polder) (off n lo width place : Nat) : (p.count off n lo width place).unrestored = p.unrestored := by cases p; rfl
@[simp] theorem Polder.count_held (p : Polder) (off n lo width place : Nat) : (p.count off n lo width place).held = p.held := by cases p; rfl
@[simp] theorem Polder.count_hostHold (p : Polder) (off n lo width place : Nat) : (p.count off n lo width place).hostHold = p.hostHold := by cases p; rfl
@[simp] theorem Polder.count_stepHold (p : Polder) (off n lo width place : Nat) : (p.count off n lo width place).stepHold = p.stepHold := by cases p; rfl
@[simp] theorem Polder.count_heldCtx (p : Polder) (off n lo width place : Nat) : (p.count off n lo width place).heldCtx = p.heldCtx := by cases p; rfl
@[simp] theorem Polder.count_ended (p : Polder) (off n lo width place : Nat) : (p.count off n lo width place).ended = p.ended := by cases p; rfl
@[simp] theorem Polder.count_hostOut (p : Polder) (off n lo width place : Nat) : (p.count off n lo width place).hostOut = p.hostOut := by cases p; rfl

@[simp] theorem Polder.raise_effLo (p : Polder) (page bit : Nat) : (p.raise page bit).effLo = p.effLo := by cases p; rfl
@[simp] theorem Polder.raise_captured (p : Polder) (page bit : Nat) : (p.raise page bit).captured = p.captured := by cases p; rfl
@[simp] theorem Polder.raise_cycle (p : Polder) (page bit : Nat) : (p.raise page bit).cycle = p.cycle := by cases p; rfl
@[simp] theorem Polder.raise_field (p : Polder) (page bit : Nat) : (p.raise page bit).field = p.field := by cases p; rfl
@[simp] theorem Polder.raise_grid (p : Polder) (page bit : Nat) : (p.raise page bit).grid = p.grid := by cases p; rfl
@[simp] theorem Polder.raise_engines (p : Polder) (page bit : Nat) : (p.raise page bit).engines = p.engines := by cases p; rfl
@[simp] theorem Polder.raise_mem (p : Polder) (page bit : Nat) : (p.raise page bit).mem = p.mem := by cases p; rfl
@[simp] theorem Polder.raise_chans (p : Polder) (page bit : Nat) : (p.raise page bit).chans = p.chans := by cases p; rfl
@[simp] theorem Polder.raise_ports (p : Polder) (page bit : Nat) : (p.raise page bit).ports = p.ports := by cases p; rfl
@[simp] theorem Polder.raise_flx (p : Polder) (page bit : Nat) : (p.raise page bit).flx = p.flx := by cases p; rfl
@[simp] theorem Polder.raise_twin (p : Polder) (page bit : Nat) : (p.raise page bit).twin = p.twin := by cases p; rfl
@[simp] theorem Polder.raise_wdn (p : Polder) (page bit : Nat) : (p.raise page bit).wdn = p.wdn := by cases p; rfl
@[simp] theorem Polder.raise_gauge (p : Polder) (page bit : Nat) : (p.raise page bit).gauge = p.gauge := by cases p; rfl
@[simp] theorem Polder.raise_inlet (p : Polder) (page bit : Nat) : (p.raise page bit).inlet = p.inlet := by cases p; rfl
@[simp] theorem Polder.raise_unrestored (p : Polder) (page bit : Nat) : (p.raise page bit).unrestored = p.unrestored := by cases p; rfl
@[simp] theorem Polder.raise_held (p : Polder) (page bit : Nat) : (p.raise page bit).held = p.held := by cases p; rfl
@[simp] theorem Polder.raise_hostHold (p : Polder) (page bit : Nat) : (p.raise page bit).hostHold = p.hostHold := by cases p; rfl
@[simp] theorem Polder.raise_stepHold (p : Polder) (page bit : Nat) : (p.raise page bit).stepHold = p.stepHold := by cases p; rfl
@[simp] theorem Polder.raise_heldCtx (p : Polder) (page bit : Nat) : (p.raise page bit).heldCtx = p.heldCtx := by cases p; rfl
@[simp] theorem Polder.raise_ended (p : Polder) (page bit : Nat) : (p.raise page bit).ended = p.ended := by cases p; rfl
@[simp] theorem Polder.raise_hostOut (p : Polder) (page bit : Nat) : (p.raise page bit).hostOut = p.hostOut := by cases p; rfl

@[simp] theorem Polder.recordErr_effLo (p : Polder) (page : Nat) (code : Status) (ev kind src : Nat) (addr : W64) : (p.recordErr page code ev kind src addr).effLo = p.effLo := by unfold Polder.recordErr; simp only [Polder.wr_effLo]
@[simp] theorem Polder.recordErr_captured (p : Polder) (page : Nat) (code : Status) (ev kind src : Nat) (addr : W64) : (p.recordErr page code ev kind src addr).captured = p.captured := by unfold Polder.recordErr; simp only [Polder.wr_captured]
@[simp] theorem Polder.recordErr_cycle (p : Polder) (page : Nat) (code : Status) (ev kind src : Nat) (addr : W64) : (p.recordErr page code ev kind src addr).cycle = p.cycle := by unfold Polder.recordErr; simp only [Polder.wr_cycle]
@[simp] theorem Polder.recordErr_field (p : Polder) (page : Nat) (code : Status) (ev kind src : Nat) (addr : W64) : (p.recordErr page code ev kind src addr).field = p.field := by unfold Polder.recordErr; simp only [Polder.wr_field]
@[simp] theorem Polder.recordErr_grid (p : Polder) (page : Nat) (code : Status) (ev kind src : Nat) (addr : W64) : (p.recordErr page code ev kind src addr).grid = p.grid := by unfold Polder.recordErr; simp only [Polder.wr_grid]
@[simp] theorem Polder.recordErr_engines (p : Polder) (page : Nat) (code : Status) (ev kind src : Nat) (addr : W64) : (p.recordErr page code ev kind src addr).engines = p.engines := by unfold Polder.recordErr; simp only [Polder.wr_engines]
@[simp] theorem Polder.recordErr_mem (p : Polder) (page : Nat) (code : Status) (ev kind src : Nat) (addr : W64) : (p.recordErr page code ev kind src addr).mem = p.mem := by unfold Polder.recordErr; simp only [Polder.wr_mem]
@[simp] theorem Polder.recordErr_chans (p : Polder) (page : Nat) (code : Status) (ev kind src : Nat) (addr : W64) : (p.recordErr page code ev kind src addr).chans = p.chans := by unfold Polder.recordErr; simp only [Polder.wr_chans]
@[simp] theorem Polder.recordErr_ports (p : Polder) (page : Nat) (code : Status) (ev kind src : Nat) (addr : W64) : (p.recordErr page code ev kind src addr).ports = p.ports := by unfold Polder.recordErr; simp only [Polder.wr_ports]
@[simp] theorem Polder.recordErr_flx (p : Polder) (page : Nat) (code : Status) (ev kind src : Nat) (addr : W64) : (p.recordErr page code ev kind src addr).flx = p.flx := by unfold Polder.recordErr; simp only [Polder.wr_flx]
@[simp] theorem Polder.recordErr_twin (p : Polder) (page : Nat) (code : Status) (ev kind src : Nat) (addr : W64) : (p.recordErr page code ev kind src addr).twin = p.twin := by unfold Polder.recordErr; simp only [Polder.wr_twin]
@[simp] theorem Polder.recordErr_wdn (p : Polder) (page : Nat) (code : Status) (ev kind src : Nat) (addr : W64) : (p.recordErr page code ev kind src addr).wdn = p.wdn := by unfold Polder.recordErr; simp only [Polder.wr_wdn]
@[simp] theorem Polder.recordErr_gauge (p : Polder) (page : Nat) (code : Status) (ev kind src : Nat) (addr : W64) : (p.recordErr page code ev kind src addr).gauge = p.gauge := by unfold Polder.recordErr; simp only [Polder.wr_gauge]
@[simp] theorem Polder.recordErr_inlet (p : Polder) (page : Nat) (code : Status) (ev kind src : Nat) (addr : W64) : (p.recordErr page code ev kind src addr).inlet = p.inlet := by unfold Polder.recordErr; simp only [Polder.wr_inlet]
@[simp] theorem Polder.recordErr_unrestored (p : Polder) (page : Nat) (code : Status) (ev kind src : Nat) (addr : W64) : (p.recordErr page code ev kind src addr).unrestored = p.unrestored := by unfold Polder.recordErr; simp only [Polder.wr_unrestored]
@[simp] theorem Polder.recordErr_held (p : Polder) (page : Nat) (code : Status) (ev kind src : Nat) (addr : W64) : (p.recordErr page code ev kind src addr).held = p.held := by unfold Polder.recordErr; simp only [Polder.wr_held]
@[simp] theorem Polder.recordErr_hostHold (p : Polder) (page : Nat) (code : Status) (ev kind src : Nat) (addr : W64) : (p.recordErr page code ev kind src addr).hostHold = p.hostHold := by unfold Polder.recordErr; simp only [Polder.wr_hostHold]
@[simp] theorem Polder.recordErr_stepHold (p : Polder) (page : Nat) (code : Status) (ev kind src : Nat) (addr : W64) : (p.recordErr page code ev kind src addr).stepHold = p.stepHold := by unfold Polder.recordErr; simp only [Polder.wr_stepHold]
@[simp] theorem Polder.recordErr_heldCtx (p : Polder) (page : Nat) (code : Status) (ev kind src : Nat) (addr : W64) : (p.recordErr page code ev kind src addr).heldCtx = p.heldCtx := by unfold Polder.recordErr; simp only [Polder.wr_heldCtx]
@[simp] theorem Polder.recordErr_ended (p : Polder) (page : Nat) (code : Status) (ev kind src : Nat) (addr : W64) : (p.recordErr page code ev kind src addr).ended = p.ended := by unfold Polder.recordErr; simp only [Polder.wr_ended]
@[simp] theorem Polder.recordErr_hostOut (p : Polder) (page : Nat) (code : Status) (ev kind src : Nat) (addr : W64) : (p.recordErr page code ev kind src addr).hostOut = p.hostOut := by unfold Polder.recordErr; simp only [Polder.wr_hostOut]

@[simp] theorem Polder.setCell_regs (p : Polder) (k : Nat) (c : Cell) : (p.setCell k c).regs = p.regs := by cases p; rfl
@[simp] theorem Polder.setCell_effLo (p : Polder) (k : Nat) (c : Cell) : (p.setCell k c).effLo = p.effLo := by cases p; rfl
@[simp] theorem Polder.setCell_captured (p : Polder) (k : Nat) (c : Cell) : (p.setCell k c).captured = p.captured := by cases p; rfl
@[simp] theorem Polder.setCell_cycle (p : Polder) (k : Nat) (c : Cell) : (p.setCell k c).cycle = p.cycle := by cases p; rfl
@[simp] theorem Polder.setCell_field (p : Polder) (k : Nat) (c : Cell) : (p.setCell k c).field = p.field := by cases p; rfl
@[simp] theorem Polder.setCell_engines (p : Polder) (k : Nat) (c : Cell) : (p.setCell k c).engines = p.engines := by cases p; rfl
@[simp] theorem Polder.setCell_mem (p : Polder) (k : Nat) (c : Cell) : (p.setCell k c).mem = p.mem := by cases p; rfl
@[simp] theorem Polder.setCell_chans (p : Polder) (k : Nat) (c : Cell) : (p.setCell k c).chans = p.chans := by cases p; rfl
@[simp] theorem Polder.setCell_ports (p : Polder) (k : Nat) (c : Cell) : (p.setCell k c).ports = p.ports := by cases p; rfl
@[simp] theorem Polder.setCell_flx (p : Polder) (k : Nat) (c : Cell) : (p.setCell k c).flx = p.flx := by cases p; rfl
@[simp] theorem Polder.setCell_twin (p : Polder) (k : Nat) (c : Cell) : (p.setCell k c).twin = p.twin := by cases p; rfl
@[simp] theorem Polder.setCell_wdn (p : Polder) (k : Nat) (c : Cell) : (p.setCell k c).wdn = p.wdn := by cases p; rfl
@[simp] theorem Polder.setCell_gauge (p : Polder) (k : Nat) (c : Cell) : (p.setCell k c).gauge = p.gauge := by cases p; rfl
@[simp] theorem Polder.setCell_inlet (p : Polder) (k : Nat) (c : Cell) : (p.setCell k c).inlet = p.inlet := by cases p; rfl
@[simp] theorem Polder.setCell_unrestored (p : Polder) (k : Nat) (c : Cell) : (p.setCell k c).unrestored = p.unrestored := by cases p; rfl
@[simp] theorem Polder.setCell_held (p : Polder) (k : Nat) (c : Cell) : (p.setCell k c).held = p.held := by cases p; rfl
@[simp] theorem Polder.setCell_hostHold (p : Polder) (k : Nat) (c : Cell) : (p.setCell k c).hostHold = p.hostHold := by cases p; rfl
@[simp] theorem Polder.setCell_stepHold (p : Polder) (k : Nat) (c : Cell) : (p.setCell k c).stepHold = p.stepHold := by cases p; rfl
@[simp] theorem Polder.setCell_heldCtx (p : Polder) (k : Nat) (c : Cell) : (p.setCell k c).heldCtx = p.heldCtx := by cases p; rfl
@[simp] theorem Polder.setCell_ended (p : Polder) (k : Nat) (c : Cell) : (p.setCell k c).ended = p.ended := by cases p; rfl
@[simp] theorem Polder.setCell_hostOut (p : Polder) (k : Nat) (c : Cell) : (p.setCell k c).hostOut = p.hostOut := by cases p; rfl

@[simp] theorem Polder.onGrid_regs (p : Polder) (f : Grid → Grid) : (p.onGrid f).regs = p.regs := by cases p; rfl
@[simp] theorem Polder.onGrid_effLo (p : Polder) (f : Grid → Grid) : (p.onGrid f).effLo = p.effLo := by cases p; rfl
@[simp] theorem Polder.onGrid_captured (p : Polder) (f : Grid → Grid) : (p.onGrid f).captured = p.captured := by cases p; rfl
@[simp] theorem Polder.onGrid_cycle (p : Polder) (f : Grid → Grid) : (p.onGrid f).cycle = p.cycle := by cases p; rfl
@[simp] theorem Polder.onGrid_field (p : Polder) (f : Grid → Grid) : (p.onGrid f).field = p.field := by cases p; rfl
@[simp] theorem Polder.onGrid_engines (p : Polder) (f : Grid → Grid) : (p.onGrid f).engines = p.engines := by cases p; rfl
@[simp] theorem Polder.onGrid_mem (p : Polder) (f : Grid → Grid) : (p.onGrid f).mem = p.mem := by cases p; rfl
@[simp] theorem Polder.onGrid_chans (p : Polder) (f : Grid → Grid) : (p.onGrid f).chans = p.chans := by cases p; rfl
@[simp] theorem Polder.onGrid_ports (p : Polder) (f : Grid → Grid) : (p.onGrid f).ports = p.ports := by cases p; rfl
@[simp] theorem Polder.onGrid_flx (p : Polder) (f : Grid → Grid) : (p.onGrid f).flx = p.flx := by cases p; rfl
@[simp] theorem Polder.onGrid_twin (p : Polder) (f : Grid → Grid) : (p.onGrid f).twin = p.twin := by cases p; rfl
@[simp] theorem Polder.onGrid_wdn (p : Polder) (f : Grid → Grid) : (p.onGrid f).wdn = p.wdn := by cases p; rfl
@[simp] theorem Polder.onGrid_gauge (p : Polder) (f : Grid → Grid) : (p.onGrid f).gauge = p.gauge := by cases p; rfl
@[simp] theorem Polder.onGrid_inlet (p : Polder) (f : Grid → Grid) : (p.onGrid f).inlet = p.inlet := by cases p; rfl
@[simp] theorem Polder.onGrid_unrestored (p : Polder) (f : Grid → Grid) : (p.onGrid f).unrestored = p.unrestored := by cases p; rfl
@[simp] theorem Polder.onGrid_held (p : Polder) (f : Grid → Grid) : (p.onGrid f).held = p.held := by cases p; rfl
@[simp] theorem Polder.onGrid_hostHold (p : Polder) (f : Grid → Grid) : (p.onGrid f).hostHold = p.hostHold := by cases p; rfl
@[simp] theorem Polder.onGrid_stepHold (p : Polder) (f : Grid → Grid) : (p.onGrid f).stepHold = p.stepHold := by cases p; rfl
@[simp] theorem Polder.onGrid_heldCtx (p : Polder) (f : Grid → Grid) : (p.onGrid f).heldCtx = p.heldCtx := by cases p; rfl
@[simp] theorem Polder.onGrid_ended (p : Polder) (f : Grid → Grid) : (p.onGrid f).ended = p.ended := by cases p; rfl
@[simp] theorem Polder.onGrid_hostOut (p : Polder) (f : Grid → Grid) : (p.onGrid f).hostOut = p.hostOut := by cases p; rfl

@[simp] theorem Polder.reach_regs (p : Polder) (now : Nat) : (p.reach now).regs = p.regs := by cases p; rfl
@[simp] theorem Polder.reach_effLo (p : Polder) (now : Nat) : (p.reach now).effLo = p.effLo := by cases p; rfl
@[simp] theorem Polder.reach_captured (p : Polder) (now : Nat) : (p.reach now).captured = p.captured := by cases p; rfl
@[simp] theorem Polder.reach_grid (p : Polder) (now : Nat) : (p.reach now).grid = p.grid := by cases p; rfl
@[simp] theorem Polder.reach_engines (p : Polder) (now : Nat) : (p.reach now).engines = p.engines := by cases p; rfl
@[simp] theorem Polder.reach_mem (p : Polder) (now : Nat) : (p.reach now).mem = p.mem := by cases p; rfl
@[simp] theorem Polder.reach_chans (p : Polder) (now : Nat) : (p.reach now).chans = p.chans := by cases p; rfl
@[simp] theorem Polder.reach_ports (p : Polder) (now : Nat) : (p.reach now).ports = p.ports := by cases p; rfl
@[simp] theorem Polder.reach_flx (p : Polder) (now : Nat) : (p.reach now).flx = p.flx := by cases p; rfl
@[simp] theorem Polder.reach_twin (p : Polder) (now : Nat) : (p.reach now).twin = p.twin := by cases p; rfl
@[simp] theorem Polder.reach_wdn (p : Polder) (now : Nat) : (p.reach now).wdn = p.wdn := by cases p; rfl
@[simp] theorem Polder.reach_gauge (p : Polder) (now : Nat) : (p.reach now).gauge = p.gauge := by cases p; rfl
@[simp] theorem Polder.reach_inlet (p : Polder) (now : Nat) : (p.reach now).inlet = p.inlet := by cases p; rfl
@[simp] theorem Polder.reach_unrestored (p : Polder) (now : Nat) : (p.reach now).unrestored = p.unrestored := by cases p; rfl
@[simp] theorem Polder.reach_held (p : Polder) (now : Nat) : (p.reach now).held = p.held := by cases p; rfl
@[simp] theorem Polder.reach_hostHold (p : Polder) (now : Nat) : (p.reach now).hostHold = p.hostHold := by cases p; rfl
@[simp] theorem Polder.reach_stepHold (p : Polder) (now : Nat) : (p.reach now).stepHold = p.stepHold := by cases p; rfl
@[simp] theorem Polder.reach_heldCtx (p : Polder) (now : Nat) : (p.reach now).heldCtx = p.heldCtx := by cases p; rfl
@[simp] theorem Polder.reach_ended (p : Polder) (now : Nat) : (p.reach now).ended = p.ended := by cases p; rfl
@[simp] theorem Polder.reach_hostOut (p : Polder) (now : Nat) : (p.reach now).hostOut = p.hostOut := by cases p; rfl

@[simp] theorem Polder.tick_regs (p : Polder) : (p.tick).regs = p.regs := by cases p; rfl
@[simp] theorem Polder.tick_effLo (p : Polder) : (p.tick).effLo = p.effLo := by cases p; rfl
@[simp] theorem Polder.tick_captured (p : Polder) : (p.tick).captured = p.captured := by cases p; rfl
@[simp] theorem Polder.tick_grid (p : Polder) : (p.tick).grid = p.grid := by cases p; rfl
@[simp] theorem Polder.tick_engines (p : Polder) : (p.tick).engines = p.engines := by cases p; rfl
@[simp] theorem Polder.tick_mem (p : Polder) : (p.tick).mem = p.mem := by cases p; rfl
@[simp] theorem Polder.tick_chans (p : Polder) : (p.tick).chans = p.chans := by cases p; rfl
@[simp] theorem Polder.tick_ports (p : Polder) : (p.tick).ports = p.ports := by cases p; rfl
@[simp] theorem Polder.tick_flx (p : Polder) : (p.tick).flx = p.flx := by cases p; rfl
@[simp] theorem Polder.tick_twin (p : Polder) : (p.tick).twin = p.twin := by cases p; rfl
@[simp] theorem Polder.tick_wdn (p : Polder) : (p.tick).wdn = p.wdn := by cases p; rfl
@[simp] theorem Polder.tick_gauge (p : Polder) : (p.tick).gauge = p.gauge := by cases p; rfl
@[simp] theorem Polder.tick_inlet (p : Polder) : (p.tick).inlet = p.inlet := by cases p; rfl
@[simp] theorem Polder.tick_unrestored (p : Polder) : (p.tick).unrestored = p.unrestored := by cases p; rfl
@[simp] theorem Polder.tick_held (p : Polder) : (p.tick).held = p.held := by cases p; rfl
@[simp] theorem Polder.tick_hostHold (p : Polder) : (p.tick).hostHold = p.hostHold := by cases p; rfl
@[simp] theorem Polder.tick_stepHold (p : Polder) : (p.tick).stepHold = p.stepHold := by cases p; rfl
@[simp] theorem Polder.tick_heldCtx (p : Polder) : (p.tick).heldCtx = p.heldCtx := by cases p; rfl
@[simp] theorem Polder.tick_ended (p : Polder) : (p.tick).ended = p.ended := by cases p; rfl
@[simp] theorem Polder.tick_hostOut (p : Polder) : (p.tick).hostOut = p.hostOut := by cases p; rfl

@[simp] theorem Polder.onMem_regs (p : Polder) (f : Mem → Mem) : (p.onMem f).regs = p.regs := by cases p; rfl
@[simp] theorem Polder.onMem_effLo (p : Polder) (f : Mem → Mem) : (p.onMem f).effLo = p.effLo := by cases p; rfl
@[simp] theorem Polder.onMem_captured (p : Polder) (f : Mem → Mem) : (p.onMem f).captured = p.captured := by cases p; rfl
@[simp] theorem Polder.onMem_cycle (p : Polder) (f : Mem → Mem) : (p.onMem f).cycle = p.cycle := by cases p; rfl
@[simp] theorem Polder.onMem_field (p : Polder) (f : Mem → Mem) : (p.onMem f).field = p.field := by cases p; rfl
@[simp] theorem Polder.onMem_grid (p : Polder) (f : Mem → Mem) : (p.onMem f).grid = p.grid := by cases p; rfl
@[simp] theorem Polder.onMem_engines (p : Polder) (f : Mem → Mem) : (p.onMem f).engines = p.engines := by cases p; rfl
@[simp] theorem Polder.onMem_chans (p : Polder) (f : Mem → Mem) : (p.onMem f).chans = p.chans := by cases p; rfl
@[simp] theorem Polder.onMem_ports (p : Polder) (f : Mem → Mem) : (p.onMem f).ports = p.ports := by cases p; rfl
@[simp] theorem Polder.onMem_flx (p : Polder) (f : Mem → Mem) : (p.onMem f).flx = p.flx := by cases p; rfl
@[simp] theorem Polder.onMem_twin (p : Polder) (f : Mem → Mem) : (p.onMem f).twin = p.twin := by cases p; rfl
@[simp] theorem Polder.onMem_wdn (p : Polder) (f : Mem → Mem) : (p.onMem f).wdn = p.wdn := by cases p; rfl
@[simp] theorem Polder.onMem_gauge (p : Polder) (f : Mem → Mem) : (p.onMem f).gauge = p.gauge := by cases p; rfl
@[simp] theorem Polder.onMem_inlet (p : Polder) (f : Mem → Mem) : (p.onMem f).inlet = p.inlet := by cases p; rfl
@[simp] theorem Polder.onMem_unrestored (p : Polder) (f : Mem → Mem) : (p.onMem f).unrestored = p.unrestored := by cases p; rfl
@[simp] theorem Polder.onMem_held (p : Polder) (f : Mem → Mem) : (p.onMem f).held = p.held := by cases p; rfl
@[simp] theorem Polder.onMem_hostHold (p : Polder) (f : Mem → Mem) : (p.onMem f).hostHold = p.hostHold := by cases p; rfl
@[simp] theorem Polder.onMem_stepHold (p : Polder) (f : Mem → Mem) : (p.onMem f).stepHold = p.stepHold := by cases p; rfl
@[simp] theorem Polder.onMem_heldCtx (p : Polder) (f : Mem → Mem) : (p.onMem f).heldCtx = p.heldCtx := by cases p; rfl
@[simp] theorem Polder.onMem_ended (p : Polder) (f : Mem → Mem) : (p.onMem f).ended = p.ended := by cases p; rfl
@[simp] theorem Polder.onMem_hostOut (p : Polder) (f : Mem → Mem) : (p.onMem f).hostOut = p.hostOut := by cases p; rfl

@[simp] theorem Polder.onFlx_regs (p : Polder) (f : Flx → Flx) : (p.onFlx f).regs = p.regs := by cases p; rfl
@[simp] theorem Polder.onFlx_effLo (p : Polder) (f : Flx → Flx) : (p.onFlx f).effLo = p.effLo := by cases p; rfl
@[simp] theorem Polder.onFlx_captured (p : Polder) (f : Flx → Flx) : (p.onFlx f).captured = p.captured := by cases p; rfl
@[simp] theorem Polder.onFlx_cycle (p : Polder) (f : Flx → Flx) : (p.onFlx f).cycle = p.cycle := by cases p; rfl
@[simp] theorem Polder.onFlx_field (p : Polder) (f : Flx → Flx) : (p.onFlx f).field = p.field := by cases p; rfl
@[simp] theorem Polder.onFlx_grid (p : Polder) (f : Flx → Flx) : (p.onFlx f).grid = p.grid := by cases p; rfl
@[simp] theorem Polder.onFlx_engines (p : Polder) (f : Flx → Flx) : (p.onFlx f).engines = p.engines := by cases p; rfl
@[simp] theorem Polder.onFlx_mem (p : Polder) (f : Flx → Flx) : (p.onFlx f).mem = p.mem := by cases p; rfl
@[simp] theorem Polder.onFlx_chans (p : Polder) (f : Flx → Flx) : (p.onFlx f).chans = p.chans := by cases p; rfl
@[simp] theorem Polder.onFlx_ports (p : Polder) (f : Flx → Flx) : (p.onFlx f).ports = p.ports := by cases p; rfl
@[simp] theorem Polder.onFlx_twin (p : Polder) (f : Flx → Flx) : (p.onFlx f).twin = p.twin := by cases p; rfl
@[simp] theorem Polder.onFlx_wdn (p : Polder) (f : Flx → Flx) : (p.onFlx f).wdn = p.wdn := by cases p; rfl
@[simp] theorem Polder.onFlx_gauge (p : Polder) (f : Flx → Flx) : (p.onFlx f).gauge = p.gauge := by cases p; rfl
@[simp] theorem Polder.onFlx_inlet (p : Polder) (f : Flx → Flx) : (p.onFlx f).inlet = p.inlet := by cases p; rfl
@[simp] theorem Polder.onFlx_unrestored (p : Polder) (f : Flx → Flx) : (p.onFlx f).unrestored = p.unrestored := by cases p; rfl
@[simp] theorem Polder.onFlx_held (p : Polder) (f : Flx → Flx) : (p.onFlx f).held = p.held := by cases p; rfl
@[simp] theorem Polder.onFlx_hostHold (p : Polder) (f : Flx → Flx) : (p.onFlx f).hostHold = p.hostHold := by cases p; rfl
@[simp] theorem Polder.onFlx_stepHold (p : Polder) (f : Flx → Flx) : (p.onFlx f).stepHold = p.stepHold := by cases p; rfl
@[simp] theorem Polder.onFlx_heldCtx (p : Polder) (f : Flx → Flx) : (p.onFlx f).heldCtx = p.heldCtx := by cases p; rfl
@[simp] theorem Polder.onFlx_ended (p : Polder) (f : Flx → Flx) : (p.onFlx f).ended = p.ended := by cases p; rfl
@[simp] theorem Polder.onFlx_hostOut (p : Polder) (f : Flx → Flx) : (p.onFlx f).hostOut = p.hostOut := by cases p; rfl

@[simp] theorem Polder.setView_regs (p : Polder) (id : Nat) (v : PolderView) : (p.setView id v).regs = p.regs := by cases p; rfl
@[simp] theorem Polder.setView_effLo (p : Polder) (id : Nat) (v : PolderView) : (p.setView id v).effLo = p.effLo := by cases p; rfl
@[simp] theorem Polder.setView_captured (p : Polder) (id : Nat) (v : PolderView) : (p.setView id v).captured = p.captured := by cases p; rfl
@[simp] theorem Polder.setView_cycle (p : Polder) (id : Nat) (v : PolderView) : (p.setView id v).cycle = p.cycle := by cases p; rfl
@[simp] theorem Polder.setView_field (p : Polder) (id : Nat) (v : PolderView) : (p.setView id v).field = p.field := by cases p; rfl
@[simp] theorem Polder.setView_grid (p : Polder) (id : Nat) (v : PolderView) : (p.setView id v).grid = p.grid := by cases p; rfl
@[simp] theorem Polder.setView_engines (p : Polder) (id : Nat) (v : PolderView) : (p.setView id v).engines = p.engines := by cases p; rfl
@[simp] theorem Polder.setView_mem (p : Polder) (id : Nat) (v : PolderView) : (p.setView id v).mem = p.mem := by cases p; rfl
@[simp] theorem Polder.setView_chans (p : Polder) (id : Nat) (v : PolderView) : (p.setView id v).chans = p.chans := by cases p; rfl
@[simp] theorem Polder.setView_ports (p : Polder) (id : Nat) (v : PolderView) : (p.setView id v).ports = p.ports := by cases p; rfl
@[simp] theorem Polder.setView_twin (p : Polder) (id : Nat) (v : PolderView) : (p.setView id v).twin = p.twin := by cases p; rfl
@[simp] theorem Polder.setView_wdn (p : Polder) (id : Nat) (v : PolderView) : (p.setView id v).wdn = p.wdn := by cases p; rfl
@[simp] theorem Polder.setView_gauge (p : Polder) (id : Nat) (v : PolderView) : (p.setView id v).gauge = p.gauge := by cases p; rfl
@[simp] theorem Polder.setView_inlet (p : Polder) (id : Nat) (v : PolderView) : (p.setView id v).inlet = p.inlet := by cases p; rfl
@[simp] theorem Polder.setView_unrestored (p : Polder) (id : Nat) (v : PolderView) : (p.setView id v).unrestored = p.unrestored := by cases p; rfl
@[simp] theorem Polder.setView_held (p : Polder) (id : Nat) (v : PolderView) : (p.setView id v).held = p.held := by cases p; rfl
@[simp] theorem Polder.setView_hostHold (p : Polder) (id : Nat) (v : PolderView) : (p.setView id v).hostHold = p.hostHold := by cases p; rfl
@[simp] theorem Polder.setView_stepHold (p : Polder) (id : Nat) (v : PolderView) : (p.setView id v).stepHold = p.stepHold := by cases p; rfl
@[simp] theorem Polder.setView_heldCtx (p : Polder) (id : Nat) (v : PolderView) : (p.setView id v).heldCtx = p.heldCtx := by cases p; rfl
@[simp] theorem Polder.setView_ended (p : Polder) (id : Nat) (v : PolderView) : (p.setView id v).ended = p.ended := by cases p; rfl
@[simp] theorem Polder.setView_hostOut (p : Polder) (id : Nat) (v : PolderView) : (p.setView id v).hostOut = p.hostOut := by cases p; rfl

@[simp] theorem Polder.setWin_regs (p : Polder) (i : Nat) (v : Win) : (p.setWin i v).regs = p.regs := by cases p; rfl
@[simp] theorem Polder.setWin_effLo (p : Polder) (i : Nat) (v : Win) : (p.setWin i v).effLo = p.effLo := by cases p; rfl
@[simp] theorem Polder.setWin_captured (p : Polder) (i : Nat) (v : Win) : (p.setWin i v).captured = p.captured := by cases p; rfl
@[simp] theorem Polder.setWin_cycle (p : Polder) (i : Nat) (v : Win) : (p.setWin i v).cycle = p.cycle := by cases p; rfl
@[simp] theorem Polder.setWin_field (p : Polder) (i : Nat) (v : Win) : (p.setWin i v).field = p.field := by cases p; rfl
@[simp] theorem Polder.setWin_grid (p : Polder) (i : Nat) (v : Win) : (p.setWin i v).grid = p.grid := by cases p; rfl
@[simp] theorem Polder.setWin_engines (p : Polder) (i : Nat) (v : Win) : (p.setWin i v).engines = p.engines := by cases p; rfl
@[simp] theorem Polder.setWin_mem (p : Polder) (i : Nat) (v : Win) : (p.setWin i v).mem = p.mem := by cases p; rfl
@[simp] theorem Polder.setWin_chans (p : Polder) (i : Nat) (v : Win) : (p.setWin i v).chans = p.chans := by cases p; rfl
@[simp] theorem Polder.setWin_ports (p : Polder) (i : Nat) (v : Win) : (p.setWin i v).ports = p.ports := by cases p; rfl
@[simp] theorem Polder.setWin_twin (p : Polder) (i : Nat) (v : Win) : (p.setWin i v).twin = p.twin := by cases p; rfl
@[simp] theorem Polder.setWin_wdn (p : Polder) (i : Nat) (v : Win) : (p.setWin i v).wdn = p.wdn := by cases p; rfl
@[simp] theorem Polder.setWin_gauge (p : Polder) (i : Nat) (v : Win) : (p.setWin i v).gauge = p.gauge := by cases p; rfl
@[simp] theorem Polder.setWin_inlet (p : Polder) (i : Nat) (v : Win) : (p.setWin i v).inlet = p.inlet := by cases p; rfl
@[simp] theorem Polder.setWin_unrestored (p : Polder) (i : Nat) (v : Win) : (p.setWin i v).unrestored = p.unrestored := by cases p; rfl
@[simp] theorem Polder.setWin_held (p : Polder) (i : Nat) (v : Win) : (p.setWin i v).held = p.held := by cases p; rfl
@[simp] theorem Polder.setWin_hostHold (p : Polder) (i : Nat) (v : Win) : (p.setWin i v).hostHold = p.hostHold := by cases p; rfl
@[simp] theorem Polder.setWin_stepHold (p : Polder) (i : Nat) (v : Win) : (p.setWin i v).stepHold = p.stepHold := by cases p; rfl
@[simp] theorem Polder.setWin_heldCtx (p : Polder) (i : Nat) (v : Win) : (p.setWin i v).heldCtx = p.heldCtx := by cases p; rfl
@[simp] theorem Polder.setWin_ended (p : Polder) (i : Nat) (v : Win) : (p.setWin i v).ended = p.ended := by cases p; rfl
@[simp] theorem Polder.setWin_hostOut (p : Polder) (i : Nat) (v : Win) : (p.setWin i v).hostOut = p.hostOut := by cases p; rfl

@[simp] theorem Polder.setMapSlot_regs (p : Polder) (i : Nat) (v : MapSlot) : (p.setMapSlot i v).regs = p.regs := by cases p; rfl
@[simp] theorem Polder.setMapSlot_effLo (p : Polder) (i : Nat) (v : MapSlot) : (p.setMapSlot i v).effLo = p.effLo := by cases p; rfl
@[simp] theorem Polder.setMapSlot_captured (p : Polder) (i : Nat) (v : MapSlot) : (p.setMapSlot i v).captured = p.captured := by cases p; rfl
@[simp] theorem Polder.setMapSlot_cycle (p : Polder) (i : Nat) (v : MapSlot) : (p.setMapSlot i v).cycle = p.cycle := by cases p; rfl
@[simp] theorem Polder.setMapSlot_field (p : Polder) (i : Nat) (v : MapSlot) : (p.setMapSlot i v).field = p.field := by cases p; rfl
@[simp] theorem Polder.setMapSlot_grid (p : Polder) (i : Nat) (v : MapSlot) : (p.setMapSlot i v).grid = p.grid := by cases p; rfl
@[simp] theorem Polder.setMapSlot_engines (p : Polder) (i : Nat) (v : MapSlot) : (p.setMapSlot i v).engines = p.engines := by cases p; rfl
@[simp] theorem Polder.setMapSlot_mem (p : Polder) (i : Nat) (v : MapSlot) : (p.setMapSlot i v).mem = p.mem := by cases p; rfl
@[simp] theorem Polder.setMapSlot_chans (p : Polder) (i : Nat) (v : MapSlot) : (p.setMapSlot i v).chans = p.chans := by cases p; rfl
@[simp] theorem Polder.setMapSlot_ports (p : Polder) (i : Nat) (v : MapSlot) : (p.setMapSlot i v).ports = p.ports := by cases p; rfl
@[simp] theorem Polder.setMapSlot_twin (p : Polder) (i : Nat) (v : MapSlot) : (p.setMapSlot i v).twin = p.twin := by cases p; rfl
@[simp] theorem Polder.setMapSlot_wdn (p : Polder) (i : Nat) (v : MapSlot) : (p.setMapSlot i v).wdn = p.wdn := by cases p; rfl
@[simp] theorem Polder.setMapSlot_gauge (p : Polder) (i : Nat) (v : MapSlot) : (p.setMapSlot i v).gauge = p.gauge := by cases p; rfl
@[simp] theorem Polder.setMapSlot_inlet (p : Polder) (i : Nat) (v : MapSlot) : (p.setMapSlot i v).inlet = p.inlet := by cases p; rfl
@[simp] theorem Polder.setMapSlot_unrestored (p : Polder) (i : Nat) (v : MapSlot) : (p.setMapSlot i v).unrestored = p.unrestored := by cases p; rfl
@[simp] theorem Polder.setMapSlot_held (p : Polder) (i : Nat) (v : MapSlot) : (p.setMapSlot i v).held = p.held := by cases p; rfl
@[simp] theorem Polder.setMapSlot_hostHold (p : Polder) (i : Nat) (v : MapSlot) : (p.setMapSlot i v).hostHold = p.hostHold := by cases p; rfl
@[simp] theorem Polder.setMapSlot_stepHold (p : Polder) (i : Nat) (v : MapSlot) : (p.setMapSlot i v).stepHold = p.stepHold := by cases p; rfl
@[simp] theorem Polder.setMapSlot_heldCtx (p : Polder) (i : Nat) (v : MapSlot) : (p.setMapSlot i v).heldCtx = p.heldCtx := by cases p; rfl
@[simp] theorem Polder.setMapSlot_ended (p : Polder) (i : Nat) (v : MapSlot) : (p.setMapSlot i v).ended = p.ended := by cases p; rfl
@[simp] theorem Polder.setMapSlot_hostOut (p : Polder) (i : Nat) (v : MapSlot) : (p.setMapSlot i v).hostOut = p.hostOut := by cases p; rfl

@[simp] theorem Polder.setHbStat_regs (p : Polder) (i : Nat) (v : HbStat) : (p.setHbStat i v).regs = p.regs := by cases p; rfl
@[simp] theorem Polder.setHbStat_effLo (p : Polder) (i : Nat) (v : HbStat) : (p.setHbStat i v).effLo = p.effLo := by cases p; rfl
@[simp] theorem Polder.setHbStat_captured (p : Polder) (i : Nat) (v : HbStat) : (p.setHbStat i v).captured = p.captured := by cases p; rfl
@[simp] theorem Polder.setHbStat_cycle (p : Polder) (i : Nat) (v : HbStat) : (p.setHbStat i v).cycle = p.cycle := by cases p; rfl
@[simp] theorem Polder.setHbStat_field (p : Polder) (i : Nat) (v : HbStat) : (p.setHbStat i v).field = p.field := by cases p; rfl
@[simp] theorem Polder.setHbStat_grid (p : Polder) (i : Nat) (v : HbStat) : (p.setHbStat i v).grid = p.grid := by cases p; rfl
@[simp] theorem Polder.setHbStat_engines (p : Polder) (i : Nat) (v : HbStat) : (p.setHbStat i v).engines = p.engines := by cases p; rfl
@[simp] theorem Polder.setHbStat_mem (p : Polder) (i : Nat) (v : HbStat) : (p.setHbStat i v).mem = p.mem := by cases p; rfl
@[simp] theorem Polder.setHbStat_chans (p : Polder) (i : Nat) (v : HbStat) : (p.setHbStat i v).chans = p.chans := by cases p; rfl
@[simp] theorem Polder.setHbStat_ports (p : Polder) (i : Nat) (v : HbStat) : (p.setHbStat i v).ports = p.ports := by cases p; rfl
@[simp] theorem Polder.setHbStat_twin (p : Polder) (i : Nat) (v : HbStat) : (p.setHbStat i v).twin = p.twin := by cases p; rfl
@[simp] theorem Polder.setHbStat_wdn (p : Polder) (i : Nat) (v : HbStat) : (p.setHbStat i v).wdn = p.wdn := by cases p; rfl
@[simp] theorem Polder.setHbStat_gauge (p : Polder) (i : Nat) (v : HbStat) : (p.setHbStat i v).gauge = p.gauge := by cases p; rfl
@[simp] theorem Polder.setHbStat_inlet (p : Polder) (i : Nat) (v : HbStat) : (p.setHbStat i v).inlet = p.inlet := by cases p; rfl
@[simp] theorem Polder.setHbStat_unrestored (p : Polder) (i : Nat) (v : HbStat) : (p.setHbStat i v).unrestored = p.unrestored := by cases p; rfl
@[simp] theorem Polder.setHbStat_held (p : Polder) (i : Nat) (v : HbStat) : (p.setHbStat i v).held = p.held := by cases p; rfl
@[simp] theorem Polder.setHbStat_hostHold (p : Polder) (i : Nat) (v : HbStat) : (p.setHbStat i v).hostHold = p.hostHold := by cases p; rfl
@[simp] theorem Polder.setHbStat_stepHold (p : Polder) (i : Nat) (v : HbStat) : (p.setHbStat i v).stepHold = p.stepHold := by cases p; rfl
@[simp] theorem Polder.setHbStat_heldCtx (p : Polder) (i : Nat) (v : HbStat) : (p.setHbStat i v).heldCtx = p.heldCtx := by cases p; rfl
@[simp] theorem Polder.setHbStat_ended (p : Polder) (i : Nat) (v : HbStat) : (p.setHbStat i v).ended = p.ended := by cases p; rfl
@[simp] theorem Polder.setHbStat_hostOut (p : Polder) (i : Nat) (v : HbStat) : (p.setHbStat i v).hostOut = p.hostOut := by cases p; rfl

@[simp] theorem Polder.onTwin_regs (p : Polder) (f : Twin → Twin) : (p.onTwin f).regs = p.regs := by cases p; rfl
@[simp] theorem Polder.onTwin_effLo (p : Polder) (f : Twin → Twin) : (p.onTwin f).effLo = p.effLo := by cases p; rfl
@[simp] theorem Polder.onTwin_captured (p : Polder) (f : Twin → Twin) : (p.onTwin f).captured = p.captured := by cases p; rfl
@[simp] theorem Polder.onTwin_cycle (p : Polder) (f : Twin → Twin) : (p.onTwin f).cycle = p.cycle := by cases p; rfl
@[simp] theorem Polder.onTwin_field (p : Polder) (f : Twin → Twin) : (p.onTwin f).field = p.field := by cases p; rfl
@[simp] theorem Polder.onTwin_grid (p : Polder) (f : Twin → Twin) : (p.onTwin f).grid = p.grid := by cases p; rfl
@[simp] theorem Polder.onTwin_engines (p : Polder) (f : Twin → Twin) : (p.onTwin f).engines = p.engines := by cases p; rfl
@[simp] theorem Polder.onTwin_mem (p : Polder) (f : Twin → Twin) : (p.onTwin f).mem = p.mem := by cases p; rfl
@[simp] theorem Polder.onTwin_chans (p : Polder) (f : Twin → Twin) : (p.onTwin f).chans = p.chans := by cases p; rfl
@[simp] theorem Polder.onTwin_ports (p : Polder) (f : Twin → Twin) : (p.onTwin f).ports = p.ports := by cases p; rfl
@[simp] theorem Polder.onTwin_flx (p : Polder) (f : Twin → Twin) : (p.onTwin f).flx = p.flx := by cases p; rfl
@[simp] theorem Polder.onTwin_wdn (p : Polder) (f : Twin → Twin) : (p.onTwin f).wdn = p.wdn := by cases p; rfl
@[simp] theorem Polder.onTwin_gauge (p : Polder) (f : Twin → Twin) : (p.onTwin f).gauge = p.gauge := by cases p; rfl
@[simp] theorem Polder.onTwin_inlet (p : Polder) (f : Twin → Twin) : (p.onTwin f).inlet = p.inlet := by cases p; rfl
@[simp] theorem Polder.onTwin_unrestored (p : Polder) (f : Twin → Twin) : (p.onTwin f).unrestored = p.unrestored := by cases p; rfl
@[simp] theorem Polder.onTwin_held (p : Polder) (f : Twin → Twin) : (p.onTwin f).held = p.held := by cases p; rfl
@[simp] theorem Polder.onTwin_hostHold (p : Polder) (f : Twin → Twin) : (p.onTwin f).hostHold = p.hostHold := by cases p; rfl
@[simp] theorem Polder.onTwin_stepHold (p : Polder) (f : Twin → Twin) : (p.onTwin f).stepHold = p.stepHold := by cases p; rfl
@[simp] theorem Polder.onTwin_heldCtx (p : Polder) (f : Twin → Twin) : (p.onTwin f).heldCtx = p.heldCtx := by cases p; rfl
@[simp] theorem Polder.onTwin_ended (p : Polder) (f : Twin → Twin) : (p.onTwin f).ended = p.ended := by cases p; rfl
@[simp] theorem Polder.onTwin_hostOut (p : Polder) (f : Twin → Twin) : (p.onTwin f).hostOut = p.hostOut := by cases p; rfl

@[simp] theorem Polder.onGauge_regs (p : Polder) (f : Gauge → Gauge) : (p.onGauge f).regs = p.regs := by cases p; rfl
@[simp] theorem Polder.onGauge_effLo (p : Polder) (f : Gauge → Gauge) : (p.onGauge f).effLo = p.effLo := by cases p; rfl
@[simp] theorem Polder.onGauge_captured (p : Polder) (f : Gauge → Gauge) : (p.onGauge f).captured = p.captured := by cases p; rfl
@[simp] theorem Polder.onGauge_cycle (p : Polder) (f : Gauge → Gauge) : (p.onGauge f).cycle = p.cycle := by cases p; rfl
@[simp] theorem Polder.onGauge_field (p : Polder) (f : Gauge → Gauge) : (p.onGauge f).field = p.field := by cases p; rfl
@[simp] theorem Polder.onGauge_grid (p : Polder) (f : Gauge → Gauge) : (p.onGauge f).grid = p.grid := by cases p; rfl
@[simp] theorem Polder.onGauge_engines (p : Polder) (f : Gauge → Gauge) : (p.onGauge f).engines = p.engines := by cases p; rfl
@[simp] theorem Polder.onGauge_mem (p : Polder) (f : Gauge → Gauge) : (p.onGauge f).mem = p.mem := by cases p; rfl
@[simp] theorem Polder.onGauge_chans (p : Polder) (f : Gauge → Gauge) : (p.onGauge f).chans = p.chans := by cases p; rfl
@[simp] theorem Polder.onGauge_ports (p : Polder) (f : Gauge → Gauge) : (p.onGauge f).ports = p.ports := by cases p; rfl
@[simp] theorem Polder.onGauge_flx (p : Polder) (f : Gauge → Gauge) : (p.onGauge f).flx = p.flx := by cases p; rfl
@[simp] theorem Polder.onGauge_twin (p : Polder) (f : Gauge → Gauge) : (p.onGauge f).twin = p.twin := by cases p; rfl
@[simp] theorem Polder.onGauge_wdn (p : Polder) (f : Gauge → Gauge) : (p.onGauge f).wdn = p.wdn := by cases p; rfl
@[simp] theorem Polder.onGauge_inlet (p : Polder) (f : Gauge → Gauge) : (p.onGauge f).inlet = p.inlet := by cases p; rfl
@[simp] theorem Polder.onGauge_unrestored (p : Polder) (f : Gauge → Gauge) : (p.onGauge f).unrestored = p.unrestored := by cases p; rfl
@[simp] theorem Polder.onGauge_held (p : Polder) (f : Gauge → Gauge) : (p.onGauge f).held = p.held := by cases p; rfl
@[simp] theorem Polder.onGauge_hostHold (p : Polder) (f : Gauge → Gauge) : (p.onGauge f).hostHold = p.hostHold := by cases p; rfl
@[simp] theorem Polder.onGauge_stepHold (p : Polder) (f : Gauge → Gauge) : (p.onGauge f).stepHold = p.stepHold := by cases p; rfl
@[simp] theorem Polder.onGauge_heldCtx (p : Polder) (f : Gauge → Gauge) : (p.onGauge f).heldCtx = p.heldCtx := by cases p; rfl
@[simp] theorem Polder.onGauge_ended (p : Polder) (f : Gauge → Gauge) : (p.onGauge f).ended = p.ended := by cases p; rfl
@[simp] theorem Polder.onGauge_hostOut (p : Polder) (f : Gauge → Gauge) : (p.onGauge f).hostOut = p.hostOut := by cases p; rfl

@[simp] theorem Polder.onWdn_regs (p : Polder) (f : Warden → Warden) : (p.onWdn f).regs = p.regs := by cases p; rfl
@[simp] theorem Polder.onWdn_effLo (p : Polder) (f : Warden → Warden) : (p.onWdn f).effLo = p.effLo := by cases p; rfl
@[simp] theorem Polder.onWdn_captured (p : Polder) (f : Warden → Warden) : (p.onWdn f).captured = p.captured := by cases p; rfl
@[simp] theorem Polder.onWdn_cycle (p : Polder) (f : Warden → Warden) : (p.onWdn f).cycle = p.cycle := by cases p; rfl
@[simp] theorem Polder.onWdn_field (p : Polder) (f : Warden → Warden) : (p.onWdn f).field = p.field := by cases p; rfl
@[simp] theorem Polder.onWdn_grid (p : Polder) (f : Warden → Warden) : (p.onWdn f).grid = p.grid := by cases p; rfl
@[simp] theorem Polder.onWdn_engines (p : Polder) (f : Warden → Warden) : (p.onWdn f).engines = p.engines := by cases p; rfl
@[simp] theorem Polder.onWdn_mem (p : Polder) (f : Warden → Warden) : (p.onWdn f).mem = p.mem := by cases p; rfl
@[simp] theorem Polder.onWdn_chans (p : Polder) (f : Warden → Warden) : (p.onWdn f).chans = p.chans := by cases p; rfl
@[simp] theorem Polder.onWdn_ports (p : Polder) (f : Warden → Warden) : (p.onWdn f).ports = p.ports := by cases p; rfl
@[simp] theorem Polder.onWdn_flx (p : Polder) (f : Warden → Warden) : (p.onWdn f).flx = p.flx := by cases p; rfl
@[simp] theorem Polder.onWdn_twin (p : Polder) (f : Warden → Warden) : (p.onWdn f).twin = p.twin := by cases p; rfl
@[simp] theorem Polder.onWdn_gauge (p : Polder) (f : Warden → Warden) : (p.onWdn f).gauge = p.gauge := by cases p; rfl
@[simp] theorem Polder.onWdn_inlet (p : Polder) (f : Warden → Warden) : (p.onWdn f).inlet = p.inlet := by cases p; rfl
@[simp] theorem Polder.onWdn_unrestored (p : Polder) (f : Warden → Warden) : (p.onWdn f).unrestored = p.unrestored := by cases p; rfl
@[simp] theorem Polder.onWdn_held (p : Polder) (f : Warden → Warden) : (p.onWdn f).held = p.held := by cases p; rfl
@[simp] theorem Polder.onWdn_hostHold (p : Polder) (f : Warden → Warden) : (p.onWdn f).hostHold = p.hostHold := by cases p; rfl
@[simp] theorem Polder.onWdn_stepHold (p : Polder) (f : Warden → Warden) : (p.onWdn f).stepHold = p.stepHold := by cases p; rfl
@[simp] theorem Polder.onWdn_heldCtx (p : Polder) (f : Warden → Warden) : (p.onWdn f).heldCtx = p.heldCtx := by cases p; rfl
@[simp] theorem Polder.onWdn_ended (p : Polder) (f : Warden → Warden) : (p.onWdn f).ended = p.ended := by cases p; rfl
@[simp] theorem Polder.onWdn_hostOut (p : Polder) (f : Warden → Warden) : (p.onWdn f).hostOut = p.hostOut := by cases p; rfl

@[simp] theorem Polder.onInlet_regs (p : Polder) (f : Inlet → Inlet) : (p.onInlet f).regs = p.regs := by cases p; rfl
@[simp] theorem Polder.onInlet_effLo (p : Polder) (f : Inlet → Inlet) : (p.onInlet f).effLo = p.effLo := by cases p; rfl
@[simp] theorem Polder.onInlet_captured (p : Polder) (f : Inlet → Inlet) : (p.onInlet f).captured = p.captured := by cases p; rfl
@[simp] theorem Polder.onInlet_cycle (p : Polder) (f : Inlet → Inlet) : (p.onInlet f).cycle = p.cycle := by cases p; rfl
@[simp] theorem Polder.onInlet_field (p : Polder) (f : Inlet → Inlet) : (p.onInlet f).field = p.field := by cases p; rfl
@[simp] theorem Polder.onInlet_grid (p : Polder) (f : Inlet → Inlet) : (p.onInlet f).grid = p.grid := by cases p; rfl
@[simp] theorem Polder.onInlet_engines (p : Polder) (f : Inlet → Inlet) : (p.onInlet f).engines = p.engines := by cases p; rfl
@[simp] theorem Polder.onInlet_mem (p : Polder) (f : Inlet → Inlet) : (p.onInlet f).mem = p.mem := by cases p; rfl
@[simp] theorem Polder.onInlet_chans (p : Polder) (f : Inlet → Inlet) : (p.onInlet f).chans = p.chans := by cases p; rfl
@[simp] theorem Polder.onInlet_ports (p : Polder) (f : Inlet → Inlet) : (p.onInlet f).ports = p.ports := by cases p; rfl
@[simp] theorem Polder.onInlet_flx (p : Polder) (f : Inlet → Inlet) : (p.onInlet f).flx = p.flx := by cases p; rfl
@[simp] theorem Polder.onInlet_twin (p : Polder) (f : Inlet → Inlet) : (p.onInlet f).twin = p.twin := by cases p; rfl
@[simp] theorem Polder.onInlet_wdn (p : Polder) (f : Inlet → Inlet) : (p.onInlet f).wdn = p.wdn := by cases p; rfl
@[simp] theorem Polder.onInlet_gauge (p : Polder) (f : Inlet → Inlet) : (p.onInlet f).gauge = p.gauge := by cases p; rfl
@[simp] theorem Polder.onInlet_unrestored (p : Polder) (f : Inlet → Inlet) : (p.onInlet f).unrestored = p.unrestored := by cases p; rfl
@[simp] theorem Polder.onInlet_held (p : Polder) (f : Inlet → Inlet) : (p.onInlet f).held = p.held := by cases p; rfl
@[simp] theorem Polder.onInlet_hostHold (p : Polder) (f : Inlet → Inlet) : (p.onInlet f).hostHold = p.hostHold := by cases p; rfl
@[simp] theorem Polder.onInlet_stepHold (p : Polder) (f : Inlet → Inlet) : (p.onInlet f).stepHold = p.stepHold := by cases p; rfl
@[simp] theorem Polder.onInlet_heldCtx (p : Polder) (f : Inlet → Inlet) : (p.onInlet f).heldCtx = p.heldCtx := by cases p; rfl
@[simp] theorem Polder.onInlet_ended (p : Polder) (f : Inlet → Inlet) : (p.onInlet f).ended = p.ended := by cases p; rfl
@[simp] theorem Polder.onInlet_hostOut (p : Polder) (f : Inlet → Inlet) : (p.onInlet f).hostOut = p.hostOut := by cases p; rfl

@[simp] theorem Polder.setStream_regs (p : Polder) (k : Nat) (v : Stream) : (p.setStream k v).regs = p.regs := by cases p; rfl
@[simp] theorem Polder.setStream_effLo (p : Polder) (k : Nat) (v : Stream) : (p.setStream k v).effLo = p.effLo := by cases p; rfl
@[simp] theorem Polder.setStream_captured (p : Polder) (k : Nat) (v : Stream) : (p.setStream k v).captured = p.captured := by cases p; rfl
@[simp] theorem Polder.setStream_cycle (p : Polder) (k : Nat) (v : Stream) : (p.setStream k v).cycle = p.cycle := by cases p; rfl
@[simp] theorem Polder.setStream_field (p : Polder) (k : Nat) (v : Stream) : (p.setStream k v).field = p.field := by cases p; rfl
@[simp] theorem Polder.setStream_grid (p : Polder) (k : Nat) (v : Stream) : (p.setStream k v).grid = p.grid := by cases p; rfl
@[simp] theorem Polder.setStream_engines (p : Polder) (k : Nat) (v : Stream) : (p.setStream k v).engines = p.engines := by cases p; rfl
@[simp] theorem Polder.setStream_mem (p : Polder) (k : Nat) (v : Stream) : (p.setStream k v).mem = p.mem := by cases p; rfl
@[simp] theorem Polder.setStream_chans (p : Polder) (k : Nat) (v : Stream) : (p.setStream k v).chans = p.chans := by cases p; rfl
@[simp] theorem Polder.setStream_ports (p : Polder) (k : Nat) (v : Stream) : (p.setStream k v).ports = p.ports := by cases p; rfl
@[simp] theorem Polder.setStream_flx (p : Polder) (k : Nat) (v : Stream) : (p.setStream k v).flx = p.flx := by cases p; rfl
@[simp] theorem Polder.setStream_twin (p : Polder) (k : Nat) (v : Stream) : (p.setStream k v).twin = p.twin := by cases p; rfl
@[simp] theorem Polder.setStream_wdn (p : Polder) (k : Nat) (v : Stream) : (p.setStream k v).wdn = p.wdn := by cases p; rfl
@[simp] theorem Polder.setStream_gauge (p : Polder) (k : Nat) (v : Stream) : (p.setStream k v).gauge = p.gauge := by cases p; rfl
@[simp] theorem Polder.setStream_unrestored (p : Polder) (k : Nat) (v : Stream) : (p.setStream k v).unrestored = p.unrestored := by cases p; rfl
@[simp] theorem Polder.setStream_held (p : Polder) (k : Nat) (v : Stream) : (p.setStream k v).held = p.held := by cases p; rfl
@[simp] theorem Polder.setStream_hostHold (p : Polder) (k : Nat) (v : Stream) : (p.setStream k v).hostHold = p.hostHold := by cases p; rfl
@[simp] theorem Polder.setStream_stepHold (p : Polder) (k : Nat) (v : Stream) : (p.setStream k v).stepHold = p.stepHold := by cases p; rfl
@[simp] theorem Polder.setStream_heldCtx (p : Polder) (k : Nat) (v : Stream) : (p.setStream k v).heldCtx = p.heldCtx := by cases p; rfl
@[simp] theorem Polder.setStream_ended (p : Polder) (k : Nat) (v : Stream) : (p.setStream k v).ended = p.ended := by cases p; rfl
@[simp] theorem Polder.setStream_hostOut (p : Polder) (k : Nat) (v : Stream) : (p.setStream k v).hostOut = p.hostOut := by cases p; rfl

@[simp] theorem Polder.setEng_regs (p : Polder) (e : Nat) (v : Eng) : (p.setEng e v).regs = p.regs := by cases p; rfl
@[simp] theorem Polder.setEng_effLo (p : Polder) (e : Nat) (v : Eng) : (p.setEng e v).effLo = p.effLo := by cases p; rfl
@[simp] theorem Polder.setEng_captured (p : Polder) (e : Nat) (v : Eng) : (p.setEng e v).captured = p.captured := by cases p; rfl
@[simp] theorem Polder.setEng_cycle (p : Polder) (e : Nat) (v : Eng) : (p.setEng e v).cycle = p.cycle := by cases p; rfl
@[simp] theorem Polder.setEng_field (p : Polder) (e : Nat) (v : Eng) : (p.setEng e v).field = p.field := by cases p; rfl
@[simp] theorem Polder.setEng_grid (p : Polder) (e : Nat) (v : Eng) : (p.setEng e v).grid = p.grid := by cases p; rfl
@[simp] theorem Polder.setEng_mem (p : Polder) (e : Nat) (v : Eng) : (p.setEng e v).mem = p.mem := by cases p; rfl
@[simp] theorem Polder.setEng_chans (p : Polder) (e : Nat) (v : Eng) : (p.setEng e v).chans = p.chans := by cases p; rfl
@[simp] theorem Polder.setEng_ports (p : Polder) (e : Nat) (v : Eng) : (p.setEng e v).ports = p.ports := by cases p; rfl
@[simp] theorem Polder.setEng_flx (p : Polder) (e : Nat) (v : Eng) : (p.setEng e v).flx = p.flx := by cases p; rfl
@[simp] theorem Polder.setEng_twin (p : Polder) (e : Nat) (v : Eng) : (p.setEng e v).twin = p.twin := by cases p; rfl
@[simp] theorem Polder.setEng_wdn (p : Polder) (e : Nat) (v : Eng) : (p.setEng e v).wdn = p.wdn := by cases p; rfl
@[simp] theorem Polder.setEng_gauge (p : Polder) (e : Nat) (v : Eng) : (p.setEng e v).gauge = p.gauge := by cases p; rfl
@[simp] theorem Polder.setEng_inlet (p : Polder) (e : Nat) (v : Eng) : (p.setEng e v).inlet = p.inlet := by cases p; rfl
@[simp] theorem Polder.setEng_unrestored (p : Polder) (e : Nat) (v : Eng) : (p.setEng e v).unrestored = p.unrestored := by cases p; rfl
@[simp] theorem Polder.setEng_held (p : Polder) (e : Nat) (v : Eng) : (p.setEng e v).held = p.held := by cases p; rfl
@[simp] theorem Polder.setEng_hostHold (p : Polder) (e : Nat) (v : Eng) : (p.setEng e v).hostHold = p.hostHold := by cases p; rfl
@[simp] theorem Polder.setEng_stepHold (p : Polder) (e : Nat) (v : Eng) : (p.setEng e v).stepHold = p.stepHold := by cases p; rfl
@[simp] theorem Polder.setEng_heldCtx (p : Polder) (e : Nat) (v : Eng) : (p.setEng e v).heldCtx = p.heldCtx := by cases p; rfl
@[simp] theorem Polder.setEng_ended (p : Polder) (e : Nat) (v : Eng) : (p.setEng e v).ended = p.ended := by cases p; rfl
@[simp] theorem Polder.setEng_hostOut (p : Polder) (e : Nat) (v : Eng) : (p.setEng e v).hostOut = p.hostOut := by cases p; rfl

@[simp] theorem Polder.setChan_regs (p : Polder) (n : Nat) (v : Chan) : (p.setChan n v).regs = p.regs := by cases p; rfl
@[simp] theorem Polder.setChan_effLo (p : Polder) (n : Nat) (v : Chan) : (p.setChan n v).effLo = p.effLo := by cases p; rfl
@[simp] theorem Polder.setChan_captured (p : Polder) (n : Nat) (v : Chan) : (p.setChan n v).captured = p.captured := by cases p; rfl
@[simp] theorem Polder.setChan_cycle (p : Polder) (n : Nat) (v : Chan) : (p.setChan n v).cycle = p.cycle := by cases p; rfl
@[simp] theorem Polder.setChan_field (p : Polder) (n : Nat) (v : Chan) : (p.setChan n v).field = p.field := by cases p; rfl
@[simp] theorem Polder.setChan_grid (p : Polder) (n : Nat) (v : Chan) : (p.setChan n v).grid = p.grid := by cases p; rfl
@[simp] theorem Polder.setChan_engines (p : Polder) (n : Nat) (v : Chan) : (p.setChan n v).engines = p.engines := by cases p; rfl
@[simp] theorem Polder.setChan_mem (p : Polder) (n : Nat) (v : Chan) : (p.setChan n v).mem = p.mem := by cases p; rfl
@[simp] theorem Polder.setChan_ports (p : Polder) (n : Nat) (v : Chan) : (p.setChan n v).ports = p.ports := by cases p; rfl
@[simp] theorem Polder.setChan_flx (p : Polder) (n : Nat) (v : Chan) : (p.setChan n v).flx = p.flx := by cases p; rfl
@[simp] theorem Polder.setChan_twin (p : Polder) (n : Nat) (v : Chan) : (p.setChan n v).twin = p.twin := by cases p; rfl
@[simp] theorem Polder.setChan_wdn (p : Polder) (n : Nat) (v : Chan) : (p.setChan n v).wdn = p.wdn := by cases p; rfl
@[simp] theorem Polder.setChan_gauge (p : Polder) (n : Nat) (v : Chan) : (p.setChan n v).gauge = p.gauge := by cases p; rfl
@[simp] theorem Polder.setChan_inlet (p : Polder) (n : Nat) (v : Chan) : (p.setChan n v).inlet = p.inlet := by cases p; rfl
@[simp] theorem Polder.setChan_unrestored (p : Polder) (n : Nat) (v : Chan) : (p.setChan n v).unrestored = p.unrestored := by cases p; rfl
@[simp] theorem Polder.setChan_held (p : Polder) (n : Nat) (v : Chan) : (p.setChan n v).held = p.held := by cases p; rfl
@[simp] theorem Polder.setChan_hostHold (p : Polder) (n : Nat) (v : Chan) : (p.setChan n v).hostHold = p.hostHold := by cases p; rfl
@[simp] theorem Polder.setChan_stepHold (p : Polder) (n : Nat) (v : Chan) : (p.setChan n v).stepHold = p.stepHold := by cases p; rfl
@[simp] theorem Polder.setChan_heldCtx (p : Polder) (n : Nat) (v : Chan) : (p.setChan n v).heldCtx = p.heldCtx := by cases p; rfl
@[simp] theorem Polder.setChan_ended (p : Polder) (n : Nat) (v : Chan) : (p.setChan n v).ended = p.ended := by cases p; rfl
@[simp] theorem Polder.setChan_hostOut (p : Polder) (n : Nat) (v : Chan) : (p.setChan n v).hostOut = p.hostOut := by cases p; rfl

@[simp] theorem Polder.setPort_regs (p : Polder) (i : Nat) (v : Port) : (p.setPort i v).regs = p.regs := by cases p; rfl
@[simp] theorem Polder.setPort_effLo (p : Polder) (i : Nat) (v : Port) : (p.setPort i v).effLo = p.effLo := by cases p; rfl
@[simp] theorem Polder.setPort_captured (p : Polder) (i : Nat) (v : Port) : (p.setPort i v).captured = p.captured := by cases p; rfl
@[simp] theorem Polder.setPort_cycle (p : Polder) (i : Nat) (v : Port) : (p.setPort i v).cycle = p.cycle := by cases p; rfl
@[simp] theorem Polder.setPort_field (p : Polder) (i : Nat) (v : Port) : (p.setPort i v).field = p.field := by cases p; rfl
@[simp] theorem Polder.setPort_grid (p : Polder) (i : Nat) (v : Port) : (p.setPort i v).grid = p.grid := by cases p; rfl
@[simp] theorem Polder.setPort_engines (p : Polder) (i : Nat) (v : Port) : (p.setPort i v).engines = p.engines := by cases p; rfl
@[simp] theorem Polder.setPort_mem (p : Polder) (i : Nat) (v : Port) : (p.setPort i v).mem = p.mem := by cases p; rfl
@[simp] theorem Polder.setPort_chans (p : Polder) (i : Nat) (v : Port) : (p.setPort i v).chans = p.chans := by cases p; rfl
@[simp] theorem Polder.setPort_flx (p : Polder) (i : Nat) (v : Port) : (p.setPort i v).flx = p.flx := by cases p; rfl
@[simp] theorem Polder.setPort_twin (p : Polder) (i : Nat) (v : Port) : (p.setPort i v).twin = p.twin := by cases p; rfl
@[simp] theorem Polder.setPort_wdn (p : Polder) (i : Nat) (v : Port) : (p.setPort i v).wdn = p.wdn := by cases p; rfl
@[simp] theorem Polder.setPort_gauge (p : Polder) (i : Nat) (v : Port) : (p.setPort i v).gauge = p.gauge := by cases p; rfl
@[simp] theorem Polder.setPort_inlet (p : Polder) (i : Nat) (v : Port) : (p.setPort i v).inlet = p.inlet := by cases p; rfl
@[simp] theorem Polder.setPort_unrestored (p : Polder) (i : Nat) (v : Port) : (p.setPort i v).unrestored = p.unrestored := by cases p; rfl
@[simp] theorem Polder.setPort_held (p : Polder) (i : Nat) (v : Port) : (p.setPort i v).held = p.held := by cases p; rfl
@[simp] theorem Polder.setPort_hostHold (p : Polder) (i : Nat) (v : Port) : (p.setPort i v).hostHold = p.hostHold := by cases p; rfl
@[simp] theorem Polder.setPort_stepHold (p : Polder) (i : Nat) (v : Port) : (p.setPort i v).stepHold = p.stepHold := by cases p; rfl
@[simp] theorem Polder.setPort_heldCtx (p : Polder) (i : Nat) (v : Port) : (p.setPort i v).heldCtx = p.heldCtx := by cases p; rfl
@[simp] theorem Polder.setPort_ended (p : Polder) (i : Nat) (v : Port) : (p.setPort i v).ended = p.ended := by cases p; rfl
@[simp] theorem Polder.setPort_hostOut (p : Polder) (i : Nat) (v : Port) : (p.setPort i v).hostOut = p.hostOut := by cases p; rfl

@[simp] theorem Polder.onGrid_grid (p : Polder) (f : Grid → Grid) : (p.onGrid f).grid = f p.grid := rfl
@[simp] theorem Polder.onMem_mem (p : Polder) (f : Mem → Mem) : (p.onMem f).mem = f p.mem := rfl
@[simp] theorem Polder.onFlx_flx (p : Polder) (f : Flx → Flx) : (p.onFlx f).flx = f p.flx := rfl
@[simp] theorem Polder.onTwin_twin (p : Polder) (f : Twin → Twin) : (p.onTwin f).twin = f p.twin := rfl
@[simp] theorem Polder.onGauge_gauge (p : Polder) (f : Gauge → Gauge) : (p.onGauge f).gauge = f p.gauge := rfl
@[simp] theorem Polder.onWdn_wdn (p : Polder) (f : Warden → Warden) : (p.onWdn f).wdn = f p.wdn := rfl
@[simp] theorem Polder.onInlet_inlet (p : Polder) (f : Inlet → Inlet) : (p.onInlet f).inlet = f p.inlet := rfl

end Sys2Proof.Machine
end

