-- ==== Sys2Proof/Laws/Env.lean ====
section
/-! SUPPORT. What the wrappers around every command can change: one polder, the queues of the module, nothing
else. -/

namespace Sys2Proof.Machine

theorem Quad.get_set_same (q : Quad) (p : Pid) (v : Polder) : (q.set p v).get p = v := by
  fin_cases p <;> rfl

theorem Quad.get_set_ne (q : Quad) {p r : Pid} (v : Polder) (h : r ≠ p) : (q.set p v).get r = q.get r := by
  fin_cases p <;> fin_cases r <;> first | rfl | exact absurd rfl h

/-- The parts of the module that posting records and completions can change. -/
structure Module.Posted (m m' : Module) : Prop where
  eq : m' = { m with
    regs := m'.regs, slots := m'.slots, journals := m'.journals, msix := m'.msix
    completions := m'.completions, hostWrites := m'.hostWrites }

theorem Module.Posted.refl (m : Module) : m.Posted m := ⟨by cases m; rfl⟩

theorem Module.Posted.trans {a b c : Module} (h : a.Posted b) (g : b.Posted c) : a.Posted c := by
  obtain ⟨h⟩ := h
  obtain ⟨g⟩ := g
  refine ⟨?_⟩
  rw [g, h]

theorem Module.Posted.sendMsix (m : Module) (n : Nat) : m.Posted (m.sendMsix n) := ⟨by cases m; rfl⟩
theorem Module.Posted.wr (m : Module) (off : Nat) (v : W32) (place : Nat) : m.Posted (m.wr off v place) :=
  ⟨by cases m; rfl⟩
theorem Module.Posted.setSlot (m : Module) (k : Fin 64) (v : Slot) : m.Posted (m.setSlot k v) :=
  ⟨by cases m; rfl⟩

theorem Module.Posted.postAll (n : Nat) (m : Module) (k : Fin 64) : m.Posted (Module.postAll n m k) := by
  induction n generalizing m with
  | zero => exact .refl m
  | succ n ih =>
    unfold Module.postAll
    dsimp only
    split
    · exact .refl m
    · split
      · exact .refl m
      · refine .trans ?_ (ih _)
        refine .trans ?_ (.sendMsix _ _)
        refine .trans (b := { m with completions := _ }) ?_ (.setSlot _ _ _)
        exact ⟨by cases m; rfl⟩

theorem Module.Posted.finish (m : Module) (k : Fin 64) (tag : BitVec 16) (st : Status) (d : Bool) (r : W64) :
    m.Posted (m.finish k tag st d r) := by
  unfold Module.finish
  dsimp only
  split
  · exact .refl m
  · refine .trans ?_ (.postAll _ _ _)
    refine .trans ?_ (.setSlot _ _ _)
    split
    · exact .wr _ _ _ _
    · exact .refl m

theorem Module.Posted.finishAll (l : List CmdEnd) (m : Module) :
    m.Posted (l.foldl (fun m e => m.finish e.slot e.tag e.status e.deferred e.result) m) := by
  induction l generalizing m with
  | nil => exact .refl m
  | cons e r ih => exact .trans (.finish m _ _ _ _ _) (ih _)

theorem Module.Posted.postJournal (m : Module) (q : Pid) (rs : List (BitVec 256)) :
    m.Posted (m.postJournal q rs) := by
  unfold Module.postJournal
  split
  · exact .refl m
  · exact ⟨by cases m; rfl⟩

theorem Module.Posted.notifyFrom (m : Module) (b : Bool) : m.Posted (m.notifyFrom b) := by
  unfold Module.notifyFrom
  split
  · exact .sendMsix _ _
  · exact .refl m

theorem State.onPol_mod (s : State) (q : Pid) (f : PolCtx → Polder → Polder) : s.mod.Posted (s.onPol q f).mod := by
  have key : ∀ p : Polder, ∀ b : Bool, s.mod.Posted (s.settle q b p).mod := by
    intro p b
    unfold State.settle
    dsimp only
    refine .trans (b := s.mod.postJournal q p.gauge.queue) (.postJournal _ _ _) ?_
    refine .trans (.finishAll p.ended _) ?_
    split
    · refine .trans (.sendMsix _ (64 + q.val)) ⟨?_⟩; rfl
    · exact ⟨rfl⟩
  exact key _ _

/-- The polder a command changes. -/
theorem State.pol_onPol (s : State) (q : Pid) (f : PolCtx → Polder → Polder) :
    (s.onPol q f).pol q = (f ⟨q, s.mod, s.free, s.ticks⟩ (s.pol q)).sent := by
  unfold State.onPol State.settle State.pol
  dsimp only
  rw [Quad.get_set_same]
  rfl

/-- Every other polder stays as it was. -/
theorem State.pol_onPol_ne (s : State) {q r : Pid} (f : PolCtx → Polder → Polder) (h : r ≠ q) :
    (s.onPol q f).pol r = s.pol r := by
  unfold State.onPol State.settle State.pol
  exact Quad.get_set_ne _ _ h

@[simp] theorem State.onPol_pending (s : State) (q : Pid) (f : PolCtx → Polder → Polder) :
    (s.onPol q f).pending = s.pending := by cases s; rfl
@[simp] theorem State.onPol_free (s : State) (q : Pid) (f : PolCtx → Polder → Polder) :
    (s.onPol q f).free = s.free := by cases s; rfl
@[simp] theorem State.onPol_ticks (s : State) (q : Pid) (f : PolCtx → Polder → Polder) :
    (s.onPol q f).ticks = s.ticks := by cases s; rfl

@[simp] theorem State.onPolFree_pending (s : State) (q : Pid) (f : PolCtx → Polder → Polder) :
    (s.onPolFree q f).pending = s.pending := by unfold State.onPolFree; simp
theorem State.pol_onPolFree (s : State) (q : Pid) (f : PolCtx → Polder → Polder) :
    (s.onPolFree q f).pol q = (f ⟨q, s.mod, s.free, s.ticks⟩ (s.pol q)).sent := s.pol_onPol q f
theorem State.pol_onPolFree_ne (s : State) {q r : Pid} (f : PolCtx → Polder → Polder) (h : r ≠ q) :
    (s.onPolFree q f).pol r = s.pol r := s.pol_onPol_ne f h

@[simp] theorem State.onMod_pending (s : State) (f : Module → Module) : (s.onMod f).pending = s.pending := by
  cases s; rfl
@[simp] theorem State.onMod_pols (s : State) (f : Module → Module) : (s.onMod f).pols = s.pols := by cases s; rfl
@[simp] theorem State.onMod_pol (s : State) (f : Module → Module) (p : Pid) : (s.onMod f).pol p = s.pol p := by
  cases s; rfl
theorem State.onMod_mod (s : State) (f : Module → Module) : (f s.mod).Posted (s.onMod f).mod :=
  .notifyFrom _ _

/-- An event of a block that lives. -/
theorem State.event_of_live (s : State) (q : Pid) (die : Nat) (f : PolCtx → Polder → Polder)
    (h : s.live q die = true) : s.event q die f = s.onPol q f := by
  unfold State.event; rw [if_pos h]

/-- A register write that its page sees. -/
theorem State.throughPol_of_open (s : State) (q : Pid) (w : Who) (addr : Nat) (f : State → State)
    (h : s.mod.power = .on) : s.throughPol q .open w addr f = f (s.onMod fun m => m.noteDebug w.req) := by
  unfold State.throughPol; simp [h]

section
variable (p : Polder)
@[simp] theorem Polder.sent_regs : p.sent.regs = p.regs := rfl
@[simp] theorem Polder.sent_cycle : p.sent.cycle = p.cycle := rfl
@[simp] theorem Polder.sent_field : p.sent.field = p.field := rfl
@[simp] theorem Polder.sent_grid : p.sent.grid = p.grid := rfl
@[simp] theorem Polder.sent_engines : p.sent.engines = p.engines := rfl
@[simp] theorem Polder.sent_mem : p.sent.mem = p.mem := rfl
@[simp] theorem Polder.sent_chans : p.sent.chans = p.chans := rfl
@[simp] theorem Polder.sent_ports : p.sent.ports = p.ports := rfl
@[simp] theorem Polder.sent_flx : p.sent.flx = p.flx := rfl
@[simp] theorem Polder.sent_twin : p.sent.twin = p.twin := rfl
@[simp] theorem Polder.sent_wdn : p.sent.wdn = p.wdn := rfl
@[simp] theorem Polder.sent_inlet : p.sent.inlet = p.inlet := rfl
@[simp] theorem Polder.sent_held : p.sent.held = p.held := rfl
@[simp] theorem Polder.sent_hostHold : p.sent.hostHold = p.hostHold := rfl
@[simp] theorem Polder.sent_stepHold : p.sent.stepHold = p.stepHold := rfl
@[simp] theorem Polder.sent_heldCtx : p.sent.heldCtx = p.heldCtx := rfl
@[simp] theorem Polder.sent_unrestored : p.sent.unrestored = p.unrestored := rfl
@[simp] theorem Polder.sent_captured : p.sent.captured = p.captured := rfl
@[simp] theorem Polder.sent_effLo : p.sent.effLo = p.effLo := rfl
end

/-- Registers, cells and the blocks behind them. -/
theorem Polder.cell_setCell (p : Polder) (k j : Nat) (c : Cell) :
    (p.setCell k c).cell j = if j = k then c else p.cell j := by
  unfold Polder.setCell Polder.cell
  exact SMap.get_set _ _ _ _ _

theorem Polder.rd_wr (p : Polder) (a b : Nat) (v : W32) (i j : Nat) :
    (p.wr a v i).rd b j = if b + 2 ^ 26 * j = a + 2 ^ 26 * i then v else p.rd b j := by
  unfold Polder.wr Polder.rd
  exact SMap.get_set _ _ _ _ _

@[simp] theorem Polder.rd_wr_same (p : Polder) (a : Nat) (v : W32) (i : Nat) : (p.wr a v i).rd a i = v := by
  rw [Polder.rd_wr, if_pos rfl]

theorem Polder.eng_setEng (p : Polder) (e k : Nat) (v : Eng) :
    (p.setEng e v).eng k = if k = e then v else p.eng k := by
  unfold Polder.setEng Polder.eng
  exact SMap.get_set _ _ _ _ _

theorem Polder.chan_setChan (p : Polder) (n k : Nat) (v : Chan) :
    (p.setChan n v).chan k = if k = n then v else p.chan k := by
  unfold Polder.setChan Polder.chan
  exact SMap.get_set _ _ _ _ _

theorem Polder.port_setPort (p : Polder) (n k : Nat) (v : Port) :
    (p.setPort n v).port k = if k = n then v else p.port k := by
  unfold Polder.setPort Polder.port
  exact SMap.get_set _ _ _ _ _

theorem Polder.win_setWin (p : Polder) (n k : Nat) (v : Win) :
    (p.setWin n v).win k = if k = n then v else p.win k := by
  unfold Polder.setWin Polder.win
  exact SMap.get_set _ _ _ _ _

theorem Polder.view_setView (p : Polder) (n k : Nat) (v : PolderView) :
    (p.setView n v).view k = if k = n then v else p.view k := by
  unfold Polder.setView Polder.view
  exact SMap.get_set _ _ _ _ _

theorem Polder.mapSlot_setMapSlot (p : Polder) (n k : Nat) (v : MapSlot) :
    (p.setMapSlot n v).mapSlot k = if k = n then v else p.mapSlot k := by
  unfold Polder.setMapSlot Polder.mapSlot
  exact SMap.get_set _ _ _ _ _

theorem Polder.stream_setStream (p : Polder) (n k : Nat) (v : Stream) :
    (p.setStream n v).stream k = if k = n then v else p.stream k := by
  unfold Polder.setStream Polder.stream
  exact SMap.get_set _ _ _ _ _

theorem Module.slot_setSlot (m : Module) (k j : Fin 64) (v : Slot) :
    (m.setSlot k v).slot j = if j = k then v else m.slot j := by
  unfold Module.setSlot Module.slot
  rw [SMap.get_set]
  simp only [Fin.val_inj]

end Sys2Proof.Machine
end

