-- ==== Sys2Proof/Laws/Paths.lean ====
section
/-! SUPPORT. The state a command answers once its way to the block is open: an event of a live block, a register
write that its page admits. -/

namespace Sys2Proof.Machine

theorem State.onPol_eq (s : State) (p : Pid) (f : PolCtx → Polder → Polder) :
    s.onPol p f = s.settle p (s.pol p).summary (f (s.ctxOf p) (s.pol p)) := rfl

theorem State.event_eq (s : State) (p : Pid) (die : Nat) (f : PolCtx → Polder → Polder) (h : s.live p die = true) :
    s.event p die f = s.settle p (s.pol p).summary (f (s.ctxOf p) (s.pol p)) := by
  rw [s.event_of_live p die f h]; rfl

theorem State.event_off (s : State) (p : Pid) (die : Nat) (f : PolCtx → Polder → Polder) (h : s.live p die = false) :
    s.event p die f = s := by
  unfold State.event; rw [h]; rfl

@[simp] theorem State.noted_pol (s : State) (w : Who) (p : Pid) : (s.noted w).pol p = s.pol p := by
  unfold State.noted; simp

theorem State.throughPol_eq (s : State) (p : Pid) (w : Who) (addr : Nat) (f : State → State) (h : s.mod.power = .on) :
    s.throughPol p .open w addr f = f (s.noted w) := s.throughPol_of_open p w addr f h

theorem State.writePage_eq (s : State) (p : Pid) (off : Nat) (w : Who) (f : PolCtx → Polder → Polder)
    (h : s.Admits p off w) :
    s.writePage p off w f = (s.noted w).settle p (s.pol p).summary (f ((s.noted w).ctxOf p) (s.pol p)) := by
  obtain ⟨h1, g, h2, h3⟩ := h
  unfold State.writePage
  rw [h2]
  dsimp only
  rw [h3, s.throughPol_eq p w off _ h1, State.onPol_eq, State.noted_pol]

theorem State.throughCell_eq (s : State) (c : CellId) (w : Who) (addr : Nat) (f : PolCtx → Polder → Polder)
    (h : s.AdmitsCell c w) :
    s.throughPol c.p (s.cellGate c w true) w addr (fun s => s.onPol c.p f) =
      (s.noted w).settle c.p (s.pol c.p).summary (f ((s.noted w).ctxOf c.p) (s.pol c.p)) := by
  rw [h.2, s.throughPol_eq c.p w addr _ h.1, State.onPol_eq, State.noted_pol]

theorem State.writeMod_eq (s : State) (off : Nat) (w : Who) (f : Module → Module) (h : s.AdmitsMod off w) :
    s.writeMod off w f = (s.noted w).onMod f := by
  obtain ⟨h1, g, h2, h3⟩ := h
  unfold State.writeMod
  rw [h2]
  simp [h1, h3, State.noted]

end Sys2Proof.Machine
end

