-- ==== Sys2Proof/Laws/Cells.lean ====
section
/-! SUPPORT. What a command to a cell does to it: one lemma for issuing, one for a step of its units. -/

namespace Sys2Proof.Machine

@[simp] theorem Polder.cell_onGrid (p : Polder) (f : Grid → Grid) (k : Nat) (h : (f p.grid).cells = p.grid.cells) :
    (p.onGrid f).cell k = p.cell k := by
  unfold Polder.cell Polder.onGrid; rw [h]

theorem Polder.cell_gridFault (p : Polder) (code : Status) (ev a port k : Nat) :
    (p.gridFault code ev a port).cell k = p.cell k := by
  unfold Polder.gridFault
  rw [Polder.cell_onGrid _ _ _ (by rfl)]
  unfold Polder.cell
  simp

theorem Polder.cell_emit1 (p : Polder) (o : CellOut) (k : Nat) : (p.emit1 o).cell k = p.cell k := by
  unfold Polder.emit1
  cases o with
  | incr x => exact p.cell_onGrid _ _ rfl
  | pkt x => exact p.cell_onGrid _ _ rfl
  | token x =>
    dsimp only
    split
    · exact p.cell_onGrid _ _ rfl
    · exact p.cell_gridFault _ _ _ _ _

theorem Polder.cell_emit (p : Polder) (l : List CellOut) (k : Nat) : (p.emit l).cell k = p.cell k := by
  unfold Polder.emit
  induction l generalizing p with
  | nil => rfl
  | cons o r ih => rw [List.foldl_cons, ih, p.cell_emit1]

@[simp] theorem Polder.cell_reach (p : Polder) (n k : Nat) : (p.reach n).cell k = p.cell k := by cases p; rfl

@[simp] theorem Polder.cell_sent (p : Polder) (k : Nat) : p.sent.cell k = p.cell k := rfl

/-- A step of a cell's units that happens. -/
theorem State.onCell_some (s : State) (c : CellId) (f : CellEnv → Cell → Option (Cell × List CellOut × Nat))
    (h : s.cellUp c) {r : Cell × List CellOut × Nat} (hr : f (s.cellEnv c) (s.cellOf c) = some r) :
    (s.onCell c f).pol c.p = ((((s.pol c.p).setCell c.key r.1).emit r.2.1).reach r.2.2).sent := by
  obtain ⟨h1, h2, h3⟩ := h
  unfold State.onCell
  rw [h1, h2, h3]
  unfold State.cellEnv State.cellOf at hr
  simp only [Bool.not_true, Bool.or_self, Bool.false_eq_true, ↓reduceIte]
  rw [State.pol_onPol, hr]

/-- A step of a cell's units that does not happen. -/
theorem State.onCell_none (s : State) (c : CellId) (f : CellEnv → Cell → Option (Cell × List CellOut × Nat))
    (h : s.cellUp c) (hr : f (s.cellEnv c) (s.cellOf c) = none) : (s.onCell c f).pol c.p = (s.pol c.p).sent := by
  obtain ⟨h1, h2, h3⟩ := h
  unfold State.onCell
  rw [h1, h2, h3]
  unfold State.cellEnv State.cellOf at hr
  simp only [Bool.not_true, Bool.or_self, Bool.false_eq_true, ↓reduceIte]
  rw [State.pol_onPol, hr]

/-- The cell such a step leaves. -/
theorem State.cellOf_onCell (s : State) (c : CellId) (f : CellEnv → Cell → Option (Cell × List CellOut × Nat))
    (h : s.cellUp c) {r : Cell × List CellOut × Nat} (hr : f (s.cellEnv c) (s.cellOf c) = some r) :
    (s.onCell c f).cellOf c = r.1 := by
  unfold State.cellOf
  rw [s.onCell_some c f h hr, Polder.cell_sent, Polder.cell_reach, Polder.cell_emit, Polder.cell_setCell]
  exact if_pos rfl

/-- A word read without error. -/
theorem fetchParity_ok (c : Cell) (pc : BitVec 10) (h1 : SMap.find? c.upset (8192 + 2 * pc.toNat) = none)
    (h2 : SMap.find? c.upset (8193 + 2 * pc.toNat) = none) : fetchParity pc c = .ok () c := by
  unfold fetchParity parityAt
  simp [bind, EStateM.bind, get, getThe, MonadStateOf.get, EStateM.get, h1, h2, pure, EStateM.pure]

/-- Issue of a word that issues: the instruction reaches its unit. -/
theorem Cell.issue_of (s : State) (c : CellId) (i : FieldIns) (run : Run) (h : s.Issues c i) :
    (s.cellOf c).issue (s.cellEnv c) i.op run =
      ((s.cellOf c).advanced.toUnit (s.issueEnv c i) run (s.issued c i)).map
        fun r => (r.1, r.2, (s.issueEnv c i).now) := by
  obtain ⟨-, h1, h2, h3, h4, h5, h6, h7⟩ := h
  unfold Cell.issue
  rw [h1, fetchParity_ok _ _ h2 h3]
  simp only [Bool.not_true, Bool.false_eq_true, ↓reduceIte, h4, ne_eq, not_true_eq_false, h5, h6, h7]
  rfl

/-- A unit that can start an instruction starts it. -/
theorem Cell.toUnit_start (c : Cell) (e : CellEnv) (run : Run) (i : Issued) (h : c.canStart e.now i = true) :
    c.toUnit e run i = some (c.start e false run i) := by
  unfold Cell.canStart at h
  unfold Cell.toUnit
  cases hu : i.ins.op.unit <;> rw [hu] at h <;> simp only at h ⊢
  · rw [if_pos h]
  · rw [if_pos h]
  · simp only [Bool.and_eq_true, Bool.not_eq_true'] at h
    rw [h.1, h.2]; rfl
  · simp only [Bool.and_eq_true, Option.isNone_iff_eq_none] at h
    rw [h.1, h.2]; rfl
  · rw [if_pos h]
  · simp only [Bool.and_eq_true, Option.isNone_iff_eq_none, decide_eq_true_eq] at h
    rw [h.1, if_pos h.2]; rfl

/-- An instruction that issues and starts. -/
theorem State.pol_issue (s : State) (c : CellId) (i : FieldIns) (run : Run) (h : s.Issues c i)
    (hs : (s.cellOf c).advanced.canStart (s.issueEnv c i).now (s.issued c i) = true) :
    (s.issue c i.op run).pol c.p =
      ((((s.pol c.p).setCell c.key ((s.cellOf c).advanced.start (s.issueEnv c i) false run (s.issued c i)).1).emit
        ((s.cellOf c).advanced.start (s.issueEnv c i) false run (s.issued c i)).2).reach (s.issueEnv c i).now).sent := by
  refine s.onCell_some c (fun e cell => cell.issue e i.op run) h.1
    (r := (((s.cellOf c).advanced.start (s.issueEnv c i) false run (s.issued c i)).1,
      ((s.cellOf c).advanced.start (s.issueEnv c i) false run (s.issued c i)).2, (s.issueEnv c i).now)) ?_
  rw [Cell.issue_of s c i run h, Cell.toUnit_start _ _ _ _ hs]
  rfl

/-- The cell an instruction that starts leaves. -/
theorem State.cellOf_issue (s : State) (c : CellId) (i : FieldIns) (run : Run) (h : s.Issues c i)
    (hs : (s.cellOf c).advanced.canStart (s.issueEnv c i).now (s.issued c i) = true) :
    (s.issue c i.op run).cellOf c = ((s.cellOf c).advanced.start (s.issueEnv c i) false run (s.issued c i)).1 := by
  unfold State.cellOf at *
  rw [s.pol_issue c i run h hs, Polder.cell_sent, Polder.cell_reach, Polder.cell_emit, Polder.cell_setCell]
  exact if_pos rfl

/-- The sequencer's own instructions and the scalar ones leave what they compute: their units hold nothing. -/
theorem State.cellOf_seq (s : State) (c : CellId) (i : FieldIns) (f : CellEnv → Issued → Cell → Cell)
    (h : s.Issues c i) (hu : i.op.unit = .seq ∨ i.op.unit = .scalar) :
    (s.issue c i.op (runC f)).cellOf c = f (s.issueEnv c i) (s.issued c i) (s.cellOf c).advanced := by
  have hu' : (s.issued c i).ins.op.unit = .seq ∨ (s.issued c i).ins.op.unit = .scalar := hu
  rw [s.cellOf_issue c i _ h (by unfold Cell.canStart; rcases hu' with e | e <;> rw [e])]
  unfold Cell.start
  show ((f (s.issueEnv c i) (s.issued c i) (s.cellOf c).advanced).occupy _ _ _) = _
  unfold Cell.occupy
  rcases hu' with e | e <;> rw [e]

theorem State.cellOf_scalar (s : State) (c : CellId) (i : FieldIns) (f : Issued → W64) (h : s.Issues c i)
    (hu : i.op.unit = .scalar) :
    (s.issue c i.op (runScalar f)).cellOf c = (s.cellOf c).advanced.setG i.rd (f (s.issued c i)) :=
  s.cellOf_seq c i _ h (Or.inr hu)

end Sys2Proof.Machine
end

