-- ==== Sys2Proof/Laws/Frame.lean ====
section
/-! SUPPORT. What no command changes: one lemma for each operation on the whole state, saying that it leads where
`State.Leads` allows. -/

namespace Sys2Proof.Machine

@[simp] theorem Fuses.Grows.refl (f : Fuses) : f.Grows f :=
  ⟨fun _ h => h, fun h => h, fun h => h, fun _ h => h, ⟨rfl, rfl, rfl, rfl, rfl, rfl⟩⟩

theorem Fuses.Grows.trans {f g h : Fuses} (a : f.Grows g) (b : g.Grows h) : f.Grows h := by
  refine ⟨fun i x => b.1 i (a.1 i x), fun x => b.2 (a.2 x), fun x => b.3 (a.3 x), fun i x => b.4 i (a.4 i x), ?_⟩
  obtain ⟨a1, a2, a3, a4, a5, a6⟩ := a.made
  obtain ⟨b1, b2, b3, b4, b5, b6⟩ := b.made
  exact ⟨b1.trans a1, b2.trans a2, b3.trans a3, b4.trans a4, b5.trans a5, b6.trans a6⟩

theorem Fuses.grows_blown (f : Fuses) (field bit : Nat) : f.Grows (f.blown field bit) := by
  unfold Fuses.blown
  split
  · refine ⟨fun i h => ?_, fun h => h, fun h => h, fun _ h => h, ⟨rfl, rfl, rfl, rfl, rfl, rfl⟩⟩
    simp [h]
  · exact ⟨fun _ h => h, fun _ => rfl, fun h => h, fun _ h => h, ⟨rfl, rfl, rfl, rfl, rfl, rfl⟩⟩
  · exact ⟨fun _ h => h, fun h => h, fun _ => rfl, fun _ h => h, ⟨rfl, rfl, rfl, rfl, rfl, rfl⟩⟩

/-- What of the module the claims follow through every command. -/
def Module.kept (m : Module) : Fuses × List W32 × W32 := (m.fuses, m.gens, m.cfgNext)

/-- Posting changes no fuse and no image. -/
theorem Module.Posted.kept {m m' : Module} (h : m.Posted m') : m'.kept = m.kept := by
  obtain ⟨h⟩ := h
  rw [h]
  rfl

section
variable (m : Module)
@[simp] theorem Module.wr_kept (off : Nat) (v : W32) (place : Nat) : (m.wr off v place).kept = m.kept := by cases m; rfl
@[simp] theorem Module.count_kept (off n lo width place : Nat) : (m.count off n lo width place).kept = m.kept := by cases m; rfl
@[simp] theorem Module.raise_kept (page bit : Nat) : (m.raise page bit).kept = m.kept := by cases m; rfl
@[simp] theorem Module.recordErr_kept (page : Nat) (c : Status) (ev kind src : Nat) (a : W64) :
    (m.recordErr page c ev kind src a).kept = m.kept := by cases m; rfl
@[simp] theorem Module.setSlot_kept (k : Fin 64) (v : Slot) : (m.setSlot k v).kept = m.kept := by cases m; rfl
@[simp] theorem Module.updCmd_kept (k : Fin 64) (tag : BitVec 16) (f : Cmd → Cmd) :
    (m.updCmd k tag f).kept = m.kept := by cases m; rfl
@[simp] theorem Module.onCmds_kept (f : Cmd → Cmd) : (m.onCmds f).kept = m.kept := by cases m; rfl
@[simp] theorem Module.deny_kept (r : Requester) (a src : Nat) : (m.deny r a src).kept = m.kept := by
  unfold Module.deny; cases r <;> cases m <;> rfl
@[simp] theorem Module.dropHeld_kept : m.dropHeld.kept = m.kept := by cases m; rfl
@[simp] theorem Module.noteDebug_kept (r : Requester) : (m.noteDebug r).kept = m.kept := by
  unfold Module.noteDebug; split <;> rfl
@[simp] theorem Module.finish_kept (k : Fin 64) (tag : BitVec 16) (st : Status) (d : Bool) (r : W64) :
    (m.finish k tag st d r).kept = m.kept := (Module.Posted.finish m k tag st d r).kept
@[simp] theorem Module.postAll_kept (n : Nat) (k : Fin 64) : (Module.postAll n m k).kept = m.kept :=
  (Module.Posted.postAll n m k).kept
@[simp] theorem Module.endCfg_kept (op : CfgOp) (o : Option (Fin 64 × BitVec 16)) (st : Status) (r : W32) :
    (m.endCfg op o st r).kept = m.kept := by
  unfold Module.endCfg; dsimp only; split <;> simp
@[simp] theorem Image.set_gen (i : Image) (p off idx : Nat) (v : W32) : (i.set p off idx v).gen = i.gen := by
  cases i; rfl
/-- A shadow that takes a write keeps its number. -/
theorem Module.kept_staged {img img' : Image} (h : m.staged = some img) (g : img'.gen = img.gen) :
    ({ m with staged := some img' } : Module).kept = m.kept := by
  unfold Module.kept Module.gens
  simp [h, g]
@[simp] theorem Module.storeRws_kept (pid off idx : Nat) (mask v : W32) :
    (m.storeRws pid off idx mask v).kept = m.kept := by
  unfold Module.storeRws
  split
  · rename_i h _
    dsimp only
    repeat' split
    · rfl
    · rfl
    · exact m.kept_staged h (by rw [Image.set_gen, Image.set_gen])
    · exact m.kept_staged h (by rw [Image.set_gen])
  · exact Module.raise_kept _ _ _
@[simp] theorem Module.storeReg_kept (g : Page) (r : RegInfo) (e : Nat) (v : W32) :
    (m.storeReg g r e v).kept = m.kept := by
  unfold Module.storeReg; dsimp only; split <;> rfl
theorem Module.raiseAll_kept (page : Nat) (l : List Nat) :
    (l.foldl (fun (m : Module) i => m.raise page i) m).kept = m.kept := by
  induction l generalizing m with
  | nil => rfl
  | cons a r ih => rw [List.foldl_cons, ih]; rfl
@[simp] theorem Module.writeHeader_kept (g : Page) (o : Nat) (v : W32) :
    (m.writeHeader g o v).kept = m.kept := by
  unfold Module.writeHeader; dsimp only; repeat' split
  all_goals first | rfl | exact Module.raiseAll_kept _ _ _
@[simp] theorem Module.refuseCmd_kept (k : Fin 64) (tag : BitVec 16) (st : Status) (h : BitVec 12) :
    (m.refuseCmd k tag st h).kept = m.kept := by
  unfold Module.refuseCmd; dsimp only; simp
@[simp] theorem Module.fetch_kept (k : Fin 64) (e : BitVec 1024) : (m.fetch k e).kept = m.kept := by
  unfold Module.fetch; dsimp only; repeat' split
  all_goals simp
@[simp] theorem Module.doorbell_kept (k : Fin 64) (cq : Bool) (v : W32) : (m.doorbell k cq v).kept = m.kept := by
  unfold Module.doorbell; dsimp only; split <;> simp
@[simp] theorem Module.blowFuse_kept (r : Requester) (field bit : Nat) : (m.blowFuse r field bit).kept = m.kept := by
  unfold Module.blowFuse; dsimp only; repeat' split
  all_goals rfl
@[simp] theorem Module.testSlot_kept (slot : Bool) : (m.testSlot slot).1.kept = m.kept := by
  unfold Module.testSlot; dsimp only; repeat' split
  all_goals rfl
@[simp] theorem Module.readDone_kept (g : Page) (o : Nat) (w : Who) : (m.readDone g o w).kept = m.kept := by
  unfold Module.readDone; dsimp only; repeat' split
  all_goals rfl
@[simp] theorem Module.boot_kept (slot : Bool) : (m.boot slot).kept = m.kept := by
  unfold Module.boot
  have h1 := Module.testSlot_kept m slot
  split
  · rename_i m1 e; rw [e] at h1; exact Eq.trans (b := m1.kept) rfl h1
  · rename_i m1 e; rw [e] at h1
    have h2 := Module.testSlot_kept m1 (!slot)
    split
    · rename_i m2 e2; rw [e2] at h2; rw [Module.raise_kept]; exact Eq.trans (b := m2.kept) rfl (h2.trans h1)
    · rename_i m2 e2; rw [e2] at h2; exact Eq.trans (b := m2.kept) rfl (h2.trans h1)
/-- An advance of ARB blows bits, and touches no image number. -/
theorem Module.advanceArb_gens : m.advanceArb.gens = m.gens ∧ m.advanceArb.cfgNext = m.cfgNext := by
  unfold Module.advanceArb; dsimp only; repeat' split
  all_goals exact ⟨rfl, rfl⟩
theorem Module.advanceArb_fuses : m.fuses.Grows m.advanceArb.fuses := by
  unfold Module.advanceArb; dsimp only; repeat' split
  all_goals try exact .refl _
  refine ⟨fun _ h => h, fun h => h, fun h => h, fun i h => ?_, ⟨rfl, rfl, rfl, rfl, rfl, rfl⟩⟩
  show (m.fuses.arb ||| _).getLsbD i = true
  rw [BitVec.getLsbD_or, h, Bool.true_or]
end

/-- What a change of the module must keep: blown fuses and image numbers. -/
structure Module.Keeps (m m' : Module) : Prop where
  fuses : m.fuses.Grows m'.fuses
  gens : m.GensBelow → m'.GensBelow

theorem Module.Keeps.refl (m : Module) : m.Keeps m := ⟨.refl _, fun h => h⟩

theorem Module.Keeps.of_kept {m m' : Module} (h : m'.kept = m.kept) : m.Keeps m' := by
  unfold Module.kept at h
  simp only [Prod.mk.injEq] at h
  obtain ⟨h1, h2, h3⟩ := h
  refine ⟨by rw [h1]; exact .refl _, fun g => ?_⟩
  unfold Module.GensBelow
  rw [h2, h3]
  exact g

theorem Module.Keeps.trans {a b c : Module} (h : a.Keeps b) (g : b.Keeps c) : a.Keeps c :=
  ⟨h.1.trans g.1, fun x => g.2 (h.2 x)⟩

theorem Module.keeps_arb (m : Module) : m.Keeps m.advanceArb := by
  refine ⟨m.advanceArb_fuses, fun h => ?_⟩
  unfold Module.GensBelow
  rw [m.advanceArb_gens.1, m.advanceArb_gens.2]
  exact h

/-- A fuse blown, and what posts it. -/
theorem Module.keeps_blown (m m' : Module) (field bit : Nat)
    (e : m'.kept = (m.fuses.blown field bit, m.gens, m.cfgNext)) : m.Keeps m' := by
  unfold Module.kept at e
  simp only [Prod.mk.injEq] at e
  obtain ⟨e1, e2, e3⟩ := e
  refine ⟨by rw [e1]; exact Fuses.grows_blown _ _ _, fun g => ?_⟩
  unfold Module.GensBelow
  rw [e2, e3]
  exact g

/-- Generation 0 alone, below any number a next image can get (R440, R485). -/
theorem Module.below_zero {m : Module} (h : m.gens = [0]) (n : 0 < m.cfgNext.toNat) : m.GensBelow := by
  intro g hg
  rw [h, List.mem_singleton] at hg
  rw [hg]
  exact n

theorem Module.below_pos {m : Module} (h : m.GensBelow) : 0 < m.cfgNext.toNat :=
  Nat.lt_of_le_of_lt (Nat.zero_le _) (h m.active.gen (by unfold Module.gens; simp))

theorem Module.keeps_dark (m : Module) (p : Power) : m.Keeps (m.dark p) :=
  ⟨.refl _, fun _ => Module.below_zero rfl (Nat.zero_lt_one)⟩

/-- A stage gives the next number, once. -/
theorem Module.keeps_stage (m : Module) (h : m.cfgNext ≠ 0xFFFFFFFF) : m.Keeps
    { m.dropHeld with
      staged := some { m.active with gen := m.cfgNext }, sealed := false
      cfgNext := m.cfgNext + 1 } := by
  refine ⟨.refl _, fun g => ?_⟩
  have hn : (m.cfgNext + 1).toNat = m.cfgNext.toNat + 1 := by bv_omega
  unfold Module.GensBelow Module.gens at *
  intro k hk
  dsimp only at *
  rw [hn]
  simp only [List.map_cons, List.map_append, List.mem_cons, List.mem_append, Option.toList_some, List.map_nil,
    List.not_mem_nil, or_false] at hk g
  rcases hk with e | e | e
  · exact Nat.lt_succ_of_lt (g k (Or.inl e))
  · exact Nat.lt_succ_of_lt (g k (Or.inr (Or.inl e)))
  · rw [e]; exact Nat.lt_succ_self _

theorem Module.keeps_discard (m : Module) : m.Keeps { m.dropHeld with staged := none, sealed := false } := by
  refine ⟨.refl _, fun g k hk => g k ?_⟩
  unfold Module.gens at *
  simp only [List.map_cons, List.map_append, List.mem_cons, List.mem_append, Option.toList_none, List.map_nil,
    List.not_mem_nil, or_false] at hk ⊢
  exact hk.imp id Or.inl

theorem Module.keeps_rollback (m : Module) {img : Image} (h : m.previous = some img) :
    m.Keeps { m.dropHeld with staged := some img } := by
  refine ⟨.refl _, fun g k hk => g k ?_⟩
  unfold Module.gens at *
  simp only [h, List.map_cons, List.map_append, List.mem_cons, List.mem_append, Option.toList_some, List.map_nil,
    List.not_mem_nil, or_false] at hk ⊢
  simp only [Module.dropHeld, h, Option.toList_some, List.map_cons, List.map_nil, List.mem_cons, List.not_mem_nil,
    or_false] at hk
  rcases hk with e | e | e
  · exact Or.inl e
  · exact Or.inr (Or.inl e)
  · exact Or.inr (Or.inl e)

theorem Module.kept_swapped (m : Module) (img : Image) :
    ({ m.dropHeld with
      previous := some m.active, active := img, staged := none, sealed := false, commit := none } : Module).kept =
      (m.fuses, [img.gen, m.active.gen], m.cfgNext) := by
  cases m; rfl

/-- The staged image takes effect (R443). -/
theorem Module.keeps_swap (m m' : Module) {img : Image} (h : m.staged = some img)
    (e : m'.kept = (m.fuses, [img.gen, m.active.gen], m.cfgNext)) : m.Keeps m' := by
  unfold Module.kept at e
  simp only [Prod.mk.injEq] at e
  obtain ⟨e1, e2, e3⟩ := e
  refine ⟨by rw [e1]; exact .refl _, fun g k hk => ?_⟩
  rw [e2] at hk
  rw [e3]
  refine g k ?_
  unfold Module.gens
  simp only [h, List.map_cons, List.map_append, List.mem_cons, List.mem_append, Option.toList_some, List.map_nil,
    List.not_mem_nil, or_false] at hk ⊢
  exact hk.elim (fun e => Or.inr (Or.inr e)) Or.inl

namespace State.Leads
variable {S : Pid → Prop} {s t u : State}

theorem refl (S : Pid → Prop) (s : State) : Leads S s s := ⟨rfl, .refl _, fun h => h, fun _ _ => rfl⟩

theorem trans (a : Leads S s t) (b : Leads S t u) : Leads S s u :=
  ⟨b.1.trans a.1, a.2.trans b.2, fun h => b.3 (a.3 h), fun q h => (b.4 q h).trans (a.4 q h)⟩

theorem mono {S' : Pid → Prop} (h : ∀ q, S q → S' q) (a : Leads S s t) : Leads S' s t :=
  ⟨a.1, a.2, a.3, fun q hq => a.4 q fun k => hq (h q k)⟩

theorem withFree (n : Nat) (a : Leads S s t) : Leads S s { t with free := n } := ⟨a.1, a.2, a.3, a.4⟩

theorem withMod (m : Module) (h : t.mod.Keeps m) (a : Leads S s t) : Leads S s { t with mod := m } :=
  a.trans ⟨rfl, h.1, h.2, fun _ _ => rfl⟩

theorem onPol {q : Pid} (f : PolCtx → Polder → Polder) (hq : S q) (a : Leads S s t) : Leads S s (t.onPol q f) := by
  have h := Module.Keeps.of_kept (State.onPol_mod t q f).kept
  refine a.trans ⟨State.onPol_pending _ _ _, h.1, h.2, fun r hr => ?_⟩
  exact State.pol_onPol_ne _ _ (fun e => hr (e ▸ hq))

theorem onPolFree {q : Pid} (f : PolCtx → Polder → Polder) (hq : S q) (a : Leads S s t) :
    Leads S s (t.onPolFree q f) := (a.onPol f hq).withFree _

theorem onMod (f : Module → Module) (h : t.mod.Keeps (f t.mod)) (a : Leads S s t) : Leads S s (t.onMod f) :=
  a.withMod _ (h.trans (.of_kept (Module.Posted.notifyFrom (f t.mod) t.mod.summary).kept))

/-- A change of the module that no fuse and no image takes part in. -/
theorem onMod' (f : Module → Module) (h : ∀ m, (f m).kept = m.kept) (a : Leads S s t) : Leads S s (t.onMod f) :=
  a.onMod f (.of_kept (h _))

theorem fold {α : Type} (l : List α) (f : State → α → State) (h : ∀ t a, Leads S t (f t a)) (a : Leads S s t) :
    Leads S s (l.foldl f t) := by
  induction l generalizing t with
  | nil => exact a
  | cons x r ih => exact ih (a.trans (h t x))

theorem ite {c : Prop} [Decidable c] (a : Leads S s t) (b : Leads S s u) :
    Leads S s (if c then t else u) := by split <;> assumption

theorem standIn {q : Pid} (hq : S q) (a : Leads S s t) : Leads S s (t.standIn q) := by
  unfold State.standIn; split
  · exact a.onPol _ hq
  · exact a

theorem throughPol {q : Pid} {g : Gate} {w : Who} {n : Nat} {f : State → State} (hq : S q)
    (hf : ∀ t, Leads S t (f t)) (a : Leads S s t) : Leads S s (t.throughPol q g w n f) := by
  unfold State.throughPol; split
  · exact a
  · have b := a.onMod' (fun m => m.noteDebug w.req) (by simp)
    rcases g with _ | _ | _ | _
    · exact b.trans (hf _)
    · exact b.onMod' _ fun m => by simp
    · exact b.standIn hq
    · exact b

theorem writePage {q : Pid} {off : Nat} {w : Who} {f : PolCtx → Polder → Polder} (hq : S q) (a : Leads S s t) :
    Leads S s (t.writePage q off w f) := by
  unfold State.writePage; split
  · exact a
  · exact a.throughPol hq fun t => (refl S t).onPol f hq

theorem writeMod {off : Nat} {w : Who} {f : Module → Module} (h : ∀ m : Module, m.Keeps (f m))
    (a : Leads S s t) : Leads S s (t.writeMod off w f) := by
  unfold State.writeMod; split
  · exact a
  · split
    · exact a
    · have b := a.onMod' (fun m => m.noteDebug w.req) (by simp)
      dsimp only
      split
      · exact b.onMod _ (h _)
      · exact b.onMod' _ fun m => by simp
      · exact b
      · exact b

theorem event {q : Pid} {die : Nat} {f : PolCtx → Polder → Polder} (hq : S q) (a : Leads S s t) :
    Leads S s (t.event q die f) := by
  unfold State.event; split
  · exact a.onPol f hq
  · exact a

theorem onCell {c : CellId} {f : CellEnv → Cell → Option (Cell × List CellOut × Nat)} (hq : S c.p)
    (a : Leads S s t) : Leads S s (t.onCell c f) := by
  unfold State.onCell; split
  · exact a
  · exact a.onPol _ hq

theorem issue {c : CellId} {op : FieldOp} {run : Run} (hq : S c.p) (a : Leads S s t) :
    Leads S s (t.issue c op run) := a.onCell hq

theorem onEng {e : EngId} {f : PolCtx → Polder → Polder} (hq : S e.p) (a : Leads S s t) : Leads S s (t.onEng e f) := by
  unfold State.onEng; split
  · exact a.onPol _ hq
  · exact a

theorem writeEng {e : EngId} {off : Nat} {w : Who} {f : PolCtx → Polder → Polder} (hq : S e.p) (a : Leads S s t) :
    Leads S s (t.writeEng e off w f) := a.writePage hq

theorem followRails (q : Pid) (a : Leads S s t) : Leads S s (t.followRails q) := by
  unfold State.followRails
  extract_lets w now want
  clear_value want
  refine .ite a (a.onMod' _ fun m => ?_)
  dsimp only
  repeat' split
  all_goals rfl

theorem warden {q : Pid} {f : PolCtx → Polder → Polder} (hq : S q) (a : Leads S s t) : Leads S s (t.warden q f) := by
  unfold State.warden
  exact ((a.onPol f hq).followRails q).withMod _ (.of_kept rfl)

theorem onPowered {f : PolCtx → Polder → Polder} (hq : ∀ q, S q) (a : Leads S s t) : Leads S s (t.onPowered f) :=
  a.fold _ _ fun t q => by split; exacts [(refl S t).onPol f (hq q), refl S t]

theorem holdPolders (hq : ∀ q, S q) (a : Leads S s t) : Leads S s t.holdPolders := by
  unfold State.holdPolders; split
  · exact a.fold _ _ fun t q => by split; exacts [(refl S t).warden (hq q), refl S t]
  · exact a

theorem keeperReset (hq : ∀ q, S q) (slot : Bool) (a : Leads S s t) : Leads S s (t.keeperReset slot) := by
  unfold State.keeperReset
  refine holdPolders hq (onPowered hq (a.onMod' _ fun m => ?_))
  rw [Module.boot_kept, Module.onCmds_kept]
  rfl

theorem endNow (k : Fin 64) (tag : BitVec 16) (st : Status) (r : W64) (a : Leads S s t) :
    Leads S s (t.endNow k tag st r) := a.onMod' _ (by simp)

theorem holdCmd (k : Fin 64) (tag : BitVec 16) (a : Leads S s t) : Leads S s (t.holdCmd k tag) := a.onMod' _ (by simp)

theorem startCmd {k : Fin 64} {tag : BitVec 16} {q : Pid} {f : PolCtx → Polder → Polder} (hq : S q)
    (a : Leads S s t) : Leads S s (t.startCmd k tag q f) := (a.onMod' _ (by simp)).onPol f hq

theorem fail {q : Pid} (hq : S q) (a : Leads S s t) : Leads S s (t.fail q) := a.warden hq

theorem runHeld (hq : ∀ q, S q) (a : Leads S s t) : Leads S s t.runHeld := a.onPowered hq

theorem checkPolder {q : Pid} (m : Image) (hq : S q) (a : Leads S s t) : Leads S s (t.checkPolder m q).1 := by
  unfold State.checkPolder; dsimp only
  repeat' split
  all_goals first | exact a | (dsimp only; exact a.onPol _ hq)

theorem checkImage (m : Image) (hq : ∀ q, S q) (a : Leads S s t) : Leads S s (t.checkImage m).1 := by
  have key : ∀ (l : List Pid) (b : State × Option W32), Leads S s b.1 →
      Leads S s (l.foldl (fun (a : State × Option W32) q =>
        match a.2 with
        | some _ => a
        | none => a.1.checkPolder m q) b).1 := by
    intro l
    induction l with
    | nil => exact fun b h => h
    | cons q r ih =>
      intro b h
      refine ih _ ?_
      dsimp only
      split
      · exact h
      · exact h.checkPolder m (hq q)
  have h := key (List.finRange 4) (t, none) a
  unfold State.checkImage
  dsimp only
  split <;> exact h

theorem sealCheck (hq : ∀ q, S q) (op : CfgOp) (o : Option (Fin 64 × BitVec 16)) (img : Image) (a : Leads S s t) :
    Leads S s (t.sealCheck op o img) := by
  unfold State.sealCheck
  have h := (a.onMod' (fun m => { m with sealed := true }) (fun _ => rfl)).checkImage img hq
  dsimp only
  split
  · rename_i e; rw [e] at h; exact h.onMod' _ fun _ => rfl
  · rename_i e; rw [e] at h; exact h.onMod' _ fun m => by simp; rfl

theorem cfgOp (hq : ∀ q, S q) (op : CfgOp) (o : Option (Fin 64 × BitVec 16)) (a : Leads S s t) :
    Leads S s (t.cfgOp op o) := by
  have stop : ∀ st, Leads S s (t.onMod fun m => m.endCfg op o st 0) := fun st => a.onMod' _ (by simp)
  unfold State.cfgOp
  extract_lets m stop'
  split
  · refine .ite (stop _) ?_
    by_cases h : m.cfgNext = 0xFFFFFFFF
    · rw [if_pos h]; exact stop _
    · rw [if_neg h]; exact a.onMod _ (.trans (Module.keeps_stage _ h) (.of_kept (by simp)))
  · refine .ite (stop _) (a.onMod _ (.trans (Module.keeps_discard _) (.of_kept (by simp))))
  · refine .ite (stop _) ?_
    split
    · exact stop _
    · exact sealCheck hq _ _ _ a
  · refine .ite (stop _) ?_
    split
    · exact stop _
    · rename_i h
      exact sealCheck hq _ _ _ (a.onMod _ (Module.keeps_rollback _ h))

theorem cfgCtrl (hq : ∀ q, S q) (w : Who) (op : CfgOp) (a : Leads S s t) : Leads S s (t.cfgCtrl w op) := by
  unfold State.cfgCtrl; dsimp only
  have b : Leads S s (t.writeMod (CFGM + 0x50) w id) := a.writeMod fun m => .refl _
  split
  · exact b.cfgOp hq _ _
  · exact b

theorem putRws {q : Pid} (hq : S q) (g : Page) (off : Nat) (w : Who) (v : W32) (gate : Gate) (a : Leads S s t) :
    Leads S s (t.putRws q g off w v gate) := by
  unfold State.putRws; split
  · exact a
  · split
    · exact a
    · exact a.throughPol hq fun t => (refl S t).onMod' _ (by simp)

theorem runCmd {k : Fin 64} {tag : BitVec 16} {op : Nat} {f : State → Cmd → State}
    (hf : ∀ t c, Leads S t (f t c)) (a : Leads S s t) : Leads S s (t.runCmd k tag op f) := by
  unfold State.runCmd
  repeat' split
  all_goals first | exact a | exact a.trans (hf _ _)

theorem runPol {k : Fin 64} {tag : BitVec 16} {op : Nat} {f : State → Cmd → Pid → State} (hq : ∀ q, S q)
    (hf : ∀ t c q, Leads S t (f t c q)) (a : Leads S s t) : Leads S s (t.runPol k tag op f) := by
  refine a.runCmd fun t c => ?_
  repeat' split
  · exact .refl _ _
  · exact ((refl S t).standIn (hq _)).endNow _ _ _ _
  · exact (refl S t).holdCmd _ _
  · exact hf _ _ _

theorem dispatch (hq : ∀ q, S q) (k : Fin 64) (c : Cmd) (a : Leads S s t) : Leads S s (t.dispatch k c) := by
  have go : ∀ (op : Nat), Leads S s (if (entryGen c.entry ≠ 0 && entryGen c.entry ≠ t.mod.active.gen) = true then
      t.endNow k c.tag Status.genMismatch
    else if (op = 0x40 && t.mod.loading.isSome) = true then t.endNow k c.tag Status.refusedBusy
    else t.onMod fun m => (if op = 0x40 then { m with loading := some (k, c.tag) } else m).updCmd k c.tag
      fun c => { c with phase := .dispatched }) := fun op =>
    .ite (a.endNow _ _ _ _) (.ite (a.endNow _ _ _ _) (a.onMod' _ fun m => by
      rw [Module.updCmd_kept]; split <;> rfl))
  unfold State.dispatch
  refine .ite (a.endNow _ _ _ _) (.ite (a.endNow _ _ _ _) ?_)
  split
  · exact go _
  · refine .ite (a.endNow _ _ _ _) (.ite ((a.standIn (hq _)).endNow _ _ _ _) (.ite (a.holdCmd _ _)
      (.ite (a.holdCmd _ _) (go _))))

theorem hostWrite (x : W64) (bs : List Byte) (a : Leads S s t) : Leads S s (t.hostWrite x bs) := by
  unfold State.hostWrite; split
  · exact a
  · exact a.withMod _ (.of_kept rfl)

theorem cfgCmd (hq : ∀ q, S q) (k : Fin 64) (tag : BitVec 16) (op : CfgOp) (a : Leads S s t) :
    Leads S s (t.cfgCmd k tag op) := a.runCmd fun t c => ((refl S t).onMod' _ (by simp)).cfgOp hq _ _

theorem endLoad (k : Fin 64) (tag : BitVec 16) (st : Status) (r : Nat) (a : Leads S s t) :
    Leads S s (t.endLoad k tag st r) := (a.onMod' _ fun m => by dsimp only; split <;> rfl).endNow _ _ _ _

theorem polRead {q : Pid} (hq : S q) (g : Page) (off : Nat) (w : Who) (gate : Gate) (a : Leads S s t) :
    Leads S s (t.polRead q g off w gate).1 := by
  unfold State.polRead
  exact a.throughPol hq fun t => (refl S t).onPolFree _ hq

theorem sessionWrite {q : Pid} (hq : S q) (w : Who) (v : W32) (a : Leads S s t) :
    Leads S s (t.sessionWrite q w v) := by
  unfold State.sessionWrite; dsimp only; split
  · exact a.onMod' _ fun m => by simp
  · exact a.onPol _ hq

/-- The outcome of a row that leads on. -/
def Row (S : Pid → Prop) (s : State) (r : Host.Outcome State Fault Refusal) : Prop := ∀ t, r = .next t → Leads S s t

theorem Row.next (a : Leads S s t) : Row S s (.next t) := fun _ e => by cases e; exact a
theorem Row.fault {f : Fault} : Row S s (.fault f) := fun _ e => by cases e

theorem Row.ite {c : Prop} [Decidable c] {a b : Host.Outcome State Fault Refusal} (h : Row S s a) (g : Row S s b) :
    Row S s (if c then a else b) := by split <;> assumption

theorem afterRow {r : Host.Outcome State Fault Refusal} (h : Row S t r) (a : Leads S s t) :
    Leads S s (Machine.afterRow t r) := by
  unfold Machine.afterRow; split
  · exact a.trans (h _ rfl)
  · exact a

theorem bitRows {v : W32} (l : List (Nat × (State → Host.Outcome State Fault Refusal)))
    (h : ∀ e ∈ l, ∀ t, Row S t (e.2 t)) (a : Leads S s t) : Leads S s (t.bitRows v l) := by
  unfold State.bitRows
  induction l generalizing t with
  | nil => exact a
  | cons e r ih =>
    refine ih (fun e he => h e (List.mem_cons_of_mem _ he)) ?_
    dsimp only
    split
    · exact a.afterRow (h e (List.mem_cons_self ..) t)
    · exact a

theorem replied (w : Who) (r : State × RegAns) (a : Leads S s r.1) : Leads S s (State.replied r w) := by
  unfold State.replied; split
  · rename_i ans _
    exact (a.withMod { r.1.mod with replies := r.1.mod.replies ++ [ans] } (.of_kept rfl)).withFree _
  · exact a

end State.Leads

end Sys2Proof.Machine
end

