-- ==== Sys2Proof/Laws/FrameReg.lean ====
section
/-! SUPPORT. What register accesses and requests of the fabric cannot change. -/

namespace Sys2Proof.Machine

namespace State.Leads
variable {S : Pid → Prop} {s t : State}

theorem pair {u : State} {r : RegAns} (a : Leads S s u) : Leads S s (u, r).1 := a

theorem pite {c : Prop} [Decidable c] {u v : State × RegAns} (a : Leads S s u.1) (b : Leads S s v.1) :
    Leads S s (if c then u else v).1 := by split <;> assumption

theorem row_page {q : Pid} {off : Nat} {w : Who} {f : PolCtx → Polder → Polder} (hq : S q) :
    Row S t (.next (t.writePage q off w f)) := .next ((refl S t).writePage hq)

theorem row_event {q : Pid} {die : Nat} {f : PolCtx → Polder → Polder} (hq : S q) :
    Row S t (.next (t.event q die f)) := .next ((refl S t).event hq)

theorem row_watch {q : Pid} {f : PolCtx → Polder → Polder} (hq : S q) : Row S t (t.watch q f) := by
  refine .next ?_
  split
  · exact (refl S t).warden hq
  · exact refl S t

theorem row_resetReq {q : Pid} {w : Who} {d : Polder → Option Dom} (hq : S q) : Row S t (t.resetReq q w d) :=
  .next (((refl S t).writePage hq).followRails q)

theorem row_powerCycle {q : Pid} (w : Who) (hq : S q) : Row S t (execResetReqPowerCycle q w t) := by
  unfold execResetReqPowerCycle
  split
  · exact .next ((refl S t).warden hq)
  · exact row_resetReq hq

theorem row_onLadder {q : Pid} {i : Nat} {f : PolCtx → Polder → Ladder → Polder} (hq : S q) :
    Row S t (t.onLadder q i f) := by
  refine .next ?_
  repeat' split
  all_goals first | exact refl S t | exact (refl S t).warden hq

theorem row_onNotice {q : Pid} {x : Txn} {k : BitVec 4} {f : PolCtx → Polder → Polder} (hq : S q) :
    Row S t (t.onNotice q x k f) := by
  unfold State.onNotice
  split
  · exact .fault
  · exact row_event hq

theorem writeCtrl {q : Pid} (hq : S q) (g : Page) (w : Who) (v : W32) (a : Leads S s t) :
    Leads S s (t.writeCtrl q g w v) := by
  have hp : ∀ f, Leads S s (t.onPol q f) := fun f => a.onPol f hq
  unfold State.writeCtrl
  dsimp only
  split
  · exact a.bitRows _ (by
      simp only [List.mem_cons, List.not_mem_nil, or_false, forall_eq_or_imp, forall_eq]
      exact fun t => row_page hq)
  · exact a.bitRows _ (by
      simp only [List.mem_cons, List.not_mem_nil, or_false, forall_eq_or_imp, forall_eq]
      exact ⟨fun t => row_page hq, fun t => row_page hq, fun t => row_page hq⟩)
  · exact a.afterRow (row_page hq)
  · exact a.bitRows _ (by
      simp only [List.mem_cons, List.not_mem_nil, or_false, forall_eq_or_imp, forall_eq]
      exact ⟨fun t => row_page hq, fun t => row_page hq⟩)
  · exact a.bitRows _ (by
      simp only [List.mem_cons, List.not_mem_nil, or_false, forall_eq_or_imp, forall_eq]
      exact ⟨fun t => row_page hq, fun t => row_page hq⟩)
  · exact a.afterRow (row_page hq)
  · exact (hp _).bitRows _ (by
      simp only [List.mem_cons, List.not_mem_nil, or_false, forall_eq_or_imp, forall_eq]
      exact ⟨fun t => row_page hq, fun t => row_page hq⟩)
  · exact (hp _).bitRows _ (by
      simp only [List.mem_cons, List.not_mem_nil, or_false, forall_eq_or_imp, forall_eq]
      exact ⟨fun t => row_page hq, fun t => row_page hq⟩)
  · exact hp _
  · exact hp _

theorem writeResetReq {q : Pid} (hq : S q) (w : Who) (v : W32) (a : Leads S s t) :
    Leads S s (t.writeResetReq q w v) := by
  have b := a.onPol (fun _ p => p.wr (WDN + 0x44) (v &&& 0xFF07)) hq
  unfold State.writeResetReq
  refine .ite b ?_
  split
  · exact b.afterRow (row_resetReq hq)
  · exact b.afterRow (row_resetReq hq)
  · exact b.afterRow (row_resetReq hq)
  · exact b.afterRow (row_resetReq hq)
  · exact b.afterRow (row_powerCycle w hq)
  · exact b

theorem writeXfer {q : Pid} (hq : S q) (w : Who) (v : W32) (a : Leads S s t) : Leads S s (t.writeXfer q w v) := by
  have b := a.onPol (fun _ p => p.wr (TWN + 0x94) ((p.rd (TWN + 0x94) &&& 0xFF0000) ||| (v &&& 0xFF0C))) hq
  unfold State.writeXfer
  refine .ite b ?_
  split
  · exact b.afterRow (row_page hq)
  · exact b.afterRow (row_page hq)
  · exact b

theorem row_windowReg {q : Pid} (hq : S q) : Row S t (execWindowOpen q .regPath t) := by
  unfold execWindowOpen; split
  · exact .fault
  · exact row_event hq

theorem row_windowRegClose {q : Pid} (hq : S q) : Row S t (execWindowClose q .regPath t) := by
  unfold execWindowClose; split
  · exact .fault
  · exact row_event hq

theorem writeAct {q : Pid} (hq : S q) (g : Page) (o e : Nat) (w : Who) (v : W32) (u : State) (a : Leads S s t)
    (h : t.writeAct q g o e w v = some u) : Leads S s u := by
  have hp : ∀ f, Leads S s (t.onPol q f) := fun f => a.onPol f hq
  unfold State.writeAct at h
  dsimp only at h
  repeat' split at h
  all_goals first
    | (cases h; done)
    | (cases h; first
        | exact a
        | exact hp _
        | exact a.writeResetReq hq w v
        | exact a.writeXfer hq w v
        | exact a.sessionWrite hq w v
        | exact a.afterRow (row_page hq)
        | exact a.bitRows _ (by
            simp only [List.mem_cons, List.not_mem_nil, or_false, forall_eq_or_imp, forall_eq]
            first
              | exact fun t => row_page hq
              | exact ⟨fun t => row_page hq, fun t => row_page hq⟩
              | exact ⟨fun t => row_windowReg hq, fun t => row_windowRegClose hq⟩
              | exact ⟨fun t => row_page hq, fun t => row_page hq, fun t => row_page hq, fun t => row_page hq⟩))

theorem putReg {q : Pid} (hq : S q) (g : Page) (o : Nat) (w : Who) (v : W32) (a : Leads S s t) :
    Leads S s (t.putReg q g o w v) := by
  have hp : ∀ f, Leads S s (t.onPol q f) := fun f => a.onPol f hq
  unfold State.putReg
  refine .ite (a.writeCtrl hq g w v) (.ite (hp _) ?_)
  split
  · exact a
  · refine .ite a (.ite (hp _) ?_)
    dsimp only
    split
    · rename_i h; exact writeAct hq g o _ w v _ a h
    · exact hp _

theorem polWrite {q : Pid} (hq : S q) (g : Page) (off : Nat) (w : Who) (v : W32) (gate : Gate) (a : Leads S s t) :
    Leads S s (t.polWrite q g off w v gate).1 := by
  unfold State.polWrite
  dsimp only
  refine .ite (a.putRws hq _ _ _ _ _) (.ite (a.afterRow (row_powerCycle w hq)) ?_)
  exact a.throughPol hq fun t => (refl S t).putReg hq _ _ _ _

theorem fabRegs {q : Pid} (hq : S q) (g : Page) (w : Who) (n : Nat) (o : Nat) (a : Leads S s t) :
    Leads S s (t.fabRegs q g w o n).1 := by
  induction n generalizing t o with
  | zero => exact a
  | succ n ih => exact ih (t := (t.polRead q g o w .open).1) _ (a.polRead hq g o w _)

theorem fabPut {q : Pid} (hq : S q) (g : Page) (w : Who) (gate : Gate) (l : List W32) (o : Nat) (a : Leads S s t) :
    Leads S s (t.fabPut q g w gate o l) := by
  induction l generalizing t o with
  | nil => exact a
  | cons v r ih => exact ih _ (a.polWrite hq g o w v gate)

theorem onRegs {q : Pid} {x : Txn} {f : State → Page → State × List Byte} (hq : S q)
    (hf : ∀ t g, Leads S t (f t g).1) (a : Leads S s t) : Leads S s (t.onRegs q x f) := by
  unfold State.onRegs; split
  · exact a
  · exact (a.trans (hf _ _)).onPol _ hq

theorem fabric {q : Pid} {port : Fin 8} {x : Txn} {write : Bool} {run : State → State} (hq : S q)
    (hr : ∀ t, Leads S t (run t)) (a : Leads S s t) : Leads S s (t.fabric q port x write run) := by
  unfold State.fabric
  refine .ite a ?_
  extract_lets c p own req
  refine .ite a ?_
  have b := a.onPol (fun _ q => q.takeInbound port.val x) hq
  refine .ite b ?_
  split
  · exact b.onPol _ hq
  · refine .ite ((b.onMod' _ fun m => by simp).onPol _ hq) ?_
    split
    · exact Leads.onPol _ hq (.ite (b.standIn hq) b)
    · exact b.trans (hr _)

theorem atomic {q : Pid} {port : Fin 8} {x : Txn} (hq : S q) (a : Leads S s t) : Leads S s (t.atomic q port x) := by
  unfold State.atomic
  refine a.fabric hq fun t => ?_
  split
  · refine (refl S t).onRegs hq fun t g => ?_
    dsimp only
    split
    · exact ((refl S t).polRead hq _ _ _ _).polWrite hq _ _ _ _ _
    · exact (refl S t).polRead hq _ _ _ _
  · exact (refl S t).onPol _ hq

theorem cellRead {c : CellId} (hq : S c.p) (o : Nat) (w : Who) (a : Leads S s t) : Leads S s (t.cellRead c o w).1 := by
  have hp : ∀ g (v : Cell), Leads S s (t.throughPol c.p g w (cellAt c o) fun s => s.onPolFree c.p fun _ p => p.setCell c.key v) :=
    fun g v => a.throughPol hq fun t => (refl S t).onPolFree _ hq
  unfold State.cellRead
  dsimp only
  repeat' split
  all_goals first | exact a | exact hp _ _

theorem putCellReg {c : CellId} (hq : S c.p) (o : Nat) (w : Who) (v : W32) (a : Leads S s t) :
    Leads S s (t.putCellReg c o w v) := by
  have hp : ∀ f, Leads S s (t.onPol c.p f) := fun f => a.onPol f hq
  unfold State.putCellReg
  dsimp only
  refine .ite ?_ (.ite (hp _) ?_)
  · refine Leads.bitRows _ ?_ (.ite a (hp _))
    simp only [List.mem_cons, List.not_mem_nil, or_false, forall_eq_or_imp, forall_eq]
    exact ⟨fun t => .next ((refl S t).throughPol hq fun t => (refl S t).onPol _ hq),
      fun t => .next ((refl S t).throughPol hq fun t => (refl S t).onPol _ hq)⟩
  · repeat' split
    all_goals first | exact a | exact hp _

theorem cellWrite {c : CellId} (hq : S c.p) (o : Nat) (w : Who) (v : W32) (a : Leads S s t) :
    Leads S s (t.cellWrite c o w v).1 := by
  have hp : ∀ g (v : Cell), Leads S s (t.throughPol c.p g w (cellAt c o) fun s => s.onPol c.p fun _ p => p.setCell c.key v) :=
    fun g v => a.throughPol hq fun t => (refl S t).onPol _ hq
  unfold State.cellWrite
  dsimp only
  split
  · exact a
  · split
    · exact a
    · split
      · exact pair (a.throughPol hq fun t => (refl S t).putCellReg hq _ _ _)
      · split
        · exact pair (hp _ _)
        · exact pair (hp _ _)

/-- The polders a location's register can act on: its own; a module register can act on every polder. -/
def reaches (a : RegAddr) (q : Pid) : Prop :=
  match a with
  | .polder p _ => q = p
  | .module _ => True

theorem row_powerBit {w : Who} (hq : ∀ q, S q) (p : Pid) : Row S t (execPolderOff p w t) := by
  refine .next ?_
  have b : Leads S t (t.writeMod (PWR + 0x50) w id) := (refl S t).writeMod fun m => .refl m
  refine .ite (Leads.fail (hq p) (b.onMod' _ fun m => rfl)) b

theorem row_powerBitOn {w : Who} (hq : ∀ q, S q) (p : Pid) : Row S t (execPolderOn p w t) := by
  refine .next ?_
  have b : Leads S t (t.writeMod (PWR + 0x50) w id) := (refl S t).writeMod fun m => .refl m
  refine .ite (Leads.warden (hq p) (b.onMod' _ fun m => rfl)) b

theorem row_kreset {w : Who} (hq : ∀ q, S q) : Row S t (execKreset w t) := by
  refine .next ?_
  have b : Leads S t (t.writeMod (KQ + 0x0C) w id) := (refl S t).writeMod fun m => .refl m
  exact .ite (b.keeperReset hq _) b

theorem row_arb {w : Who} : Row S t (execArbAdvance w t) := .next ((refl S t).writeMod Module.keeps_arb)

theorem row_cfg {w : Who} (hq : ∀ q, S q) (op : CfgOp) : Row S t (.next (t.cfgCtrl w op)) :=
  .next ((refl S t).cfgCtrl hq w op)

theorem putModReg (hq : ∀ q, S q) (g : Page) (o : Nat) (w : Who) (v : W32) (a : Leads S s t) :
    Leads S s (t.putModReg g o w v) := by
  unfold State.putModReg
  refine .ite ?_ (.ite (a.onMod' _ fun m => by simp) ?_)
  · split
    · exact a.bitRows _ (by
        simp only [List.mem_cons, List.not_mem_nil, or_false, forall_eq]
        exact fun t => row_kreset hq)
    · exact a.bitRows _ (by
        simp only [List.mem_cons, List.not_mem_nil, or_false, forall_eq]
        exact fun t => row_arb)
    · exact a
  · split
    · exact a
    · refine .ite a (.ite (a.onMod' _ fun m => by simp) ?_)
      dsimp only
      split
      · exact .ite (a.onMod' _ fun m => by simp) (.ite a (a.onMod' _ fun m => by simp))
      · exact a.bitRows _ (by
          simp only [List.mem_cons, List.not_mem_nil, or_false, forall_eq_or_imp, forall_eq]
          exact ⟨fun t => row_powerBit hq _, fun t => row_powerBit hq _, fun t => row_powerBit hq _,
            fun t => row_powerBit hq _, fun t => row_powerBitOn hq _, fun t => row_powerBitOn hq _,
            fun t => row_powerBitOn hq _, fun t => row_powerBitOn hq _⟩)
      · exact (a.onMod' (fun m => m.wr (CFGM + 0x50) (v &&& 0x100)) fun m => by simp).bitRows _ (by
          simp only [List.mem_cons, List.not_mem_nil, or_false, forall_eq_or_imp, forall_eq]
          exact ⟨fun t => row_cfg hq _, fun t => row_cfg hq _, fun t => row_cfg hq _, fun t => row_cfg hq _⟩)
      · exact .ite a (a.onMod' _ fun m => by simp)
      · exact a.onMod' _ fun m => by simp

theorem regRead (a : RegAddr) (w : Who) (hS : ∀ q, reaches a q → S q) (b : Leads S s t) :
    Leads S s (t.regRead a w).1 := by
  unfold State.regRead
  split
  · exact b
  · split
    · rename_i q off
      have hq : S q := hS q rfl
      dsimp only
      split
      · exact b
      · split
        · exact b
        · exact b.polRead hq _ _ _ _
    · dsimp only
      split
      · exact b
      · split
        · exact b
        · have c := b.onMod' (fun m => m.noteDebug w.req) fun m => by simp
          split
          · exact pair ((c.onMod' (fun m => m.readDone _ _ w) fun m => by simp).withFree _)
          · exact pair (c.onMod' (fun m => m.deny w.req _) fun m => by simp)
          · exact pair c
          · exact pair c

theorem writeRws (a : RegAddr) (w : Who) (v : W32) (hS : ∀ q, reaches a q → S q) (b : Leads S s t) :
    Leads S s (t.writeRws a w v) := by
  unfold State.writeRws
  split
  · rename_i q off
    have hq : S q := hS q rfl
    split
    · exact b
    · exact b.putRws hq _ _ _ _ _
  · repeat' split
    all_goals first | exact b | exact b.writeMod fun m => .of_kept (by simp)

theorem regWrite (a : RegAddr) (w : Who) (v : W32) (hS : ∀ q, reaches a q → S q) (b : Leads S s t) :
    Leads S s (t.regWrite a w v).1 := by
  unfold State.regWrite
  split
  · exact b
  · split
    · rename_i q off
      have hq : S q := hS q rfl
      dsimp only
      split
      · exact b
      · split
        · exact b
        · exact b.polWrite hq _ _ _ _ _
    · have hq : ∀ q, S q := fun q => hS q trivial
      dsimp only
      split
      · split
        · exact pair (b.onMod' (fun m => m.doorbell _ _ v) fun m => by simp)
        · exact pair b
      · split
        · exact pair b
        · refine pite (pair (b.writeRws _ _ _ hS)) ?_
          · have c := b.onMod' (fun m => m.noteDebug w.req) fun m => by simp
            split
            · exact pair (c.putModReg hq _ _ _ _)
            · exact pair (c.onMod' (fun m => m.deny w.req _) fun m => by simp)
            · exact pair c
            · exact pair c

theorem reaches_inPage {a : RegAddr} {o : Nat} {q : Pid} : reaches (inPage a o) q ↔ reaches a q := by
  cases a <;> rfl

theorem reaches_nextReg {a : RegAddr} {q : Pid} : reaches (nextReg a) q ↔ reaches a q := by
  cases a <;> rfl

end State.Leads

end Sys2Proof.Machine
end

