-- ==== Sys2Proof/Laws/Mem.lean ====
section
/-! SUPPORT. The memory keeps its canonical form, and a read of tier 1 or 2 after a write. -/

namespace Sys2Proof.Machine

theorem Mem.setByte_wf (m : Mem) (t o : Nat) (b : Byte) (h : m.wf = true) : (m.setByte t o b).wf = true := by
  simp only [Mem.wf, Bool.and_eq_true] at h
  unfold Mem.setByte
  split <;> simp_all [Mem.wf, SMap.wf_set]

theorem Mem.setValid_wf (m : Mem) (t g : Nat) (b : Bool) (h : m.wf = true) : (m.setValid t g b).wf = true := by
  simp only [Mem.wf, Bool.and_eq_true] at h
  unfold Mem.setValid
  split <;> simp_all [Mem.wf, SMap.wf_set]

theorem Mem.putRaw_wf (m : Mem) (t o : Nat) (bs : List (Option Byte)) (h : m.wf = true) :
    (m.putRaw t o bs).wf = true := by
  induction bs generalizing m o with
  | nil => exact h
  | cons b r ih =>
    cases b with
    | none => exact ih m (o + 1) h
    | some b => exact ih _ (o + 1) (m.setByte_wf t o b h)

/-- A byte of tier 1 or 2 after one is stored. -/
theorem Mem.byte_setByte (m : Mem) (t o : Nat) (b : Byte) (u a : Nat) (ht : t = 1 ∨ t = 2) (hu : u = 1 ∨ u = 2) :
    (m.setByte t o b).byte u a = if u = t ∧ a = o then b else m.byte u a := by
  rcases ht with rfl | rfl <;> rcases hu with rfl | rfl <;> simp [Mem.setByte, Mem.byte, SMap.get_set]

end Sys2Proof.Machine
end

