-- ==== Sys2Proof/Laws/Rows.lean ====
section
/-! SUPPORT. What each row leaves as it was: a row of a polder changes that polder, and the module's registers and
queues. -/

namespace Sys2Proof.Machine.State.Leads

/-- The polders a page can act on. -/
def pageReaches (a : PageAddr) (q : Pid) : Prop :=
  match a with
  | .page a => reaches a q
  | .cell c => q = c.p

/-- A loss of supply reaches every polder. -/
theorem lost (s : State) (p : Power) : Leads (fun _ => True) s (s.lose p) :=
  ⟨rfl, (Module.keeps_dark s.mod p).1, (Module.keeps_dark s.mod p).2, fun _ h => absurd trivial h⟩

theorem leads_halt (c : CellId) (s : State) : Row (· = c.p) s (execHalt c s) :=
  .next ((refl _ s).issue rfl)

theorem leads_cellHaltComplete (c : CellId) (s : State) : Row (· = c.p) s (execCellHaltComplete c s) :=
  .next ((refl _ s).onCell rfl)

theorem leads_nop (c : CellId) (s : State) : Row (· = c.p) s (execNop c s) :=
  .next ((refl _ s).issue rfl)

theorem leads_jmp (c : CellId) (s : State) : Row (· = c.p) s (execJmp c s) :=
  .next ((refl _ s).issue rfl)

theorem leads_loop (c : CellId) (s : State) : Row (· = c.p) s (execLoop c s) :=
  .next ((refl _ s).issue rfl)

theorem leads_brc (c : CellId) (s : State) : Row (· = c.p) s (execBrc c s) :=
  .next ((refl _ s).issue rfl)

theorem leads_fence (c : CellId) (s : State) : Row (· = c.p) s (execFence c s) :=
  .next ((refl _ s).issue rfl)

theorem leads_fenceRelease (c : CellId) (s : State) : Row (· = c.p) s (execFenceRelease c s) :=
  .next ((refl _ s).onCell rfl)

theorem leads_twait (c : CellId) (s : State) : Row (· = c.p) s (execTwait c s) :=
  .next ((refl _ s).issue rfl)

theorem leads_twaitRelease (c : CellId) (s : State) : Row (· = c.p) s (execTwaitRelease c s) :=
  .next ((refl _ s).onCell rfl)

theorem leads_movs (c : CellId) (s : State) : Row (· = c.p) s (execMovs c s) :=
  .next ((refl _ s).issue rfl)

theorem leads_add (c : CellId) (s : State) : Row (· = c.p) s (execAdd c s) :=
  .next ((refl _ s).issue rfl)

theorem leads_addi (c : CellId) (s : State) : Row (· = c.p) s (execAddi c s) :=
  .next ((refl _ s).issue rfl)

theorem leads_sub (c : CellId) (s : State) : Row (· = c.p) s (execSub c s) :=
  .next ((refl _ s).issue rfl)

theorem leads_mul (c : CellId) (s : State) : Row (· = c.p) s (execMul c s) :=
  .next ((refl _ s).issue rfl)

theorem leads_and (c : CellId) (s : State) : Row (· = c.p) s (execAnd c s) :=
  .next ((refl _ s).issue rfl)

theorem leads_or (c : CellId) (s : State) : Row (· = c.p) s (execOr c s) :=
  .next ((refl _ s).issue rfl)

theorem leads_xor (c : CellId) (s : State) : Row (· = c.p) s (execXor c s) :=
  .next ((refl _ s).issue rfl)

theorem leads_shli (c : CellId) (s : State) : Row (· = c.p) s (execShli c s) :=
  .next ((refl _ s).issue rfl)

theorem leads_shri (c : CellId) (s : State) : Row (· = c.p) s (execShri c s) :=
  .next ((refl _ s).issue rfl)

theorem leads_ldi (c : CellId) (s : State) : Row (· = c.p) s (execLdi c s) :=
  .next ((refl _ s).issue rfl)

theorem leads_ldhi (c : CellId) (s : State) : Row (· = c.p) s (execLdhi c s) :=
  .next ((refl _ s).issue rfl)

theorem leads_ld (c : CellId) (s : State) : Row (· = c.p) s (execLd c s) :=
  .next ((refl _ s).issue rfl)

theorem leads_st (c : CellId) (s : State) : Row (· = c.p) s (execSt c s) :=
  .next ((refl _ s).issue rfl)

theorem leads_copy (c : CellId) (s : State) : Row (· = c.p) s (execCopy c s) :=
  .next ((refl _ s).issue rfl)

theorem leads_vclr (c : CellId) (s : State) : Row (· = c.p) s (execVclr c s) :=
  .next ((refl _ s).issue rfl)

theorem leads_svrd (c : CellId) (s : State) : Row (· = c.p) s (execSvrd c s) :=
  .next ((refl _ s).issue rfl)

theorem leads_svwr (c : CellId) (s : State) : Row (· = c.p) s (execSvwr c s) :=
  .next ((refl _ s).issue rfl)

theorem leads_serviceAccessComplete (c : CellId) (i : Fin 4) (s : State) :
    Row (· = c.p) s (execServiceAccessComplete c i s) :=
  .next (.ite (refl _ s) ((refl _ s).onPol _ rfl))

theorem leads_send (c : CellId) (s : State) : Row (· = c.p) s (execSend c s) :=
  .next ((refl _ s).issue rfl)

theorem leads_recv (c : CellId) (s : State) : Row (· = c.p) s (execRecv c s) :=
  .next ((refl _ s).issue rfl)

theorem leads_portQueueStart (c : CellId) (s : State) : Row (· = c.p) s (execPortQueueStart c s) :=
  .next ((refl _ s).onCell rfl)

theorem leads_swait (c : CellId) (s : State) : Row (· = c.p) s (execSwait c s) :=
  .next ((refl _ s).issue rfl)

theorem leads_swaitRelease (c : CellId) (s : State) : Row (· = c.p) s (execSwaitRelease c s) :=
  .next ((refl _ s).onCell rfl)

theorem leads_ssig (c : CellId) (s : State) : Row (· = c.p) s (execSsig c s) :=
  .next ((refl _ s).issue rfl)

theorem leads_semIncrement (c : CellId) (sem : Fin 16) (n : Byte) (s : State) :
    Row (· = c.p) s (execSemIncrement c sem n s) :=
  .next (.ite (refl _ s) (.ite ((refl _ s).standIn rfl) ((refl _ s).onPol _ rfl)))

theorem leads_engineSemIncrement (e : EngId) (sem : Fin 16) (n : Byte) (s : State) :
    Row (· = e.p) s (execEngineSemIncrement e sem n s) :=
  .next (.ite (refl _ s) (.ite ((refl _ s).standIn rfl) ((refl _ s).onPol _ rfl)))

theorem leads_wtok (c : CellId) (s : State) : Row (· = c.p) s (execWtok c s) :=
  .next ((refl _ s).issue rfl)

theorem leads_amxs (c : CellId) (s : State) : Row (· = c.p) s (execAmxs c s) :=
  .next ((refl _ s).issue rfl)

theorem leads_amxsComplete (c : CellId) (s : State) : Row (· = c.p) s (execAmxsComplete c s) :=
  .next (.ite (refl _ s) ((refl _ s).onPol _ rfl))

theorem leads_mma (c : CellId) (s : State) : Row (· = c.p) s (execMma c s) :=
  .next ((refl _ s).issue rfl)

theorem leads_arrayQueueStart (c : CellId) (s : State) : Row (· = c.p) s (execArrayQueueStart c s) :=
  .next ((refl _ s).onCell rfl)

theorem leads_azero (c : CellId) (s : State) : Row (· = c.p) s (execAzero c s) :=
  .next ((refl _ s).issue rfl)

theorem leads_aacc (c : CellId) (s : State) : Row (· = c.p) s (execAacc c s) :=
  .next ((refl _ s).issue rfl)

theorem leads_ascale (c : CellId) (s : State) : Row (· = c.p) s (execAscale c s) :=
  .next ((refl _ s).issue rfl)

theorem leads_acvt (c : CellId) (s : State) : Row (· = c.p) s (execAcvt c s) :=
  .next ((refl _ s).issue rfl)

theorem leads_vadd (c : CellId) (s : State) : Row (· = c.p) s (execVadd c s) :=
  .next ((refl _ s).issue rfl)

theorem leads_vsub (c : CellId) (s : State) : Row (· = c.p) s (execVsub c s) :=
  .next ((refl _ s).issue rfl)

theorem leads_vmul (c : CellId) (s : State) : Row (· = c.p) s (execVmul c s) :=
  .next ((refl _ s).issue rfl)

theorem leads_vfma (c : CellId) (s : State) : Row (· = c.p) s (execVfma c s) :=
  .next ((refl _ s).issue rfl)

theorem leads_vmax (c : CellId) (s : State) : Row (· = c.p) s (execVmax c s) :=
  .next ((refl _ s).issue rfl)

theorem leads_vmin (c : CellId) (s : State) : Row (· = c.p) s (execVmin c s) :=
  .next ((refl _ s).issue rfl)

theorem leads_vscl (c : CellId) (s : State) : Row (· = c.p) s (execVscl c s) :=
  .next ((refl _ s).issue rfl)

theorem leads_vrsum (c : CellId) (s : State) : Row (· = c.p) s (execVrsum c s) :=
  .next ((refl _ s).issue rfl)

theorem leads_vrmax (c : CellId) (s : State) : Row (· = c.p) s (execVrmax c s) :=
  .next ((refl _ s).issue rfl)

theorem leads_cvt (c : CellId) (s : State) : Row (· = c.p) s (execCvt c s) :=
  .next ((refl _ s).issue rfl)

theorem leads_fload (c : CellId) (s : State) : Row (· = c.p) s (execFload c s) :=
  .next ((refl _ s).issue rfl)

theorem leads_feval (c : CellId) (s : State) : Row (· = c.p) s (execFeval c s) :=
  .next ((refl _ s).issue rfl)

theorem leads_fbwd (c : CellId) (s : State) : Row (· = c.p) s (execFbwd c s) :=
  .next ((refl _ s).issue rfl)

theorem leads_cellReset (c : CellId) (s : State) : Row (· = c.p) s (execCellReset c s) :=
  .next (.ite ((refl _ s).onPol _ rfl) (refl _ s))

theorem leads_celRunWrite (c : CellId) (w : Who) (s : State) : Row (· = c.p) s (execCelRunWrite c w s) :=
  .next ((refl _ s).throughPol rfl fun t => (refl _ t).onPol _ rfl)

theorem leads_cellStart (c : CellId) (s : State) : Row (· = c.p) s (execCellStart c s) :=
  .next ((refl _ s).onCell rfl)

theorem leads_celStop (c : CellId) (w : Who) (s : State) : Row (· = c.p) s (execCelStop c w s) :=
  .next ((refl _ s).throughPol rfl fun t => (refl _ t).onPol _ rfl)

theorem leads_programStoreWrite (c : CellId) (w : Who) (pc : Fin 1024) (hi : Bool) (v : W32) (s : State) :
    Row (· = c.p) s (execProgramStoreWrite c w pc hi v s) :=
  .next (.ite (refl _ s) ((refl _ s).throughPol rfl fun t => (refl _ t).onPol _ rfl))

theorem leads_rngRegisterWrite (p : Pid) (w : Who) (i : Fin 5) (v : W32) (s : State) :
    Row (· = p) s (execRngRegisterWrite p w i v s) :=
  .next ((refl _ s).writePage rfl)

theorem leads_tideWrap (p : Pid) (s : State) : Row (· = p) s (execTideWrap p s) :=
  .next (.ite (refl _ s) ((refl _ s).onPol _ rfl))

theorem leads_beatHop (c : CellId) (port : Fin 6) (circ : Fin 8) (s : State) :
    Row (· = c.p) s (execBeatHop c port circ s) :=
  .next (.ite (refl _ s) ((refl _ s).onPol _ rfl))

theorem leads_controlTokenHop (c : CellId) (input : Fin 5) (s : State) :
    Row (· = c.p) s (execControlTokenHop c input s) :=
  .next (.ite (refl _ s) ((refl _ s).onPol _ rfl))

theorem leads_servicePacketHop (p : Pid) (i : Nat) (s : State) : Row (· = p) s (execServicePacketHop p i s) :=
  .next (.ite (refl _ s) ((refl _ s).onPol _ rfl))

theorem leads_weirTokenArrival (c : CellId) (out : Fin 6) (tok : BitVec 24) (s : State) :
    Row (· = c.p) s (execWeirTokenArrival c out tok s) :=
  .next (.ite (refl _ s) ((refl _ s).onPol _ rfl))

theorem leads_tokenTakesEffect (c : CellId) (out : Fin 6) (i : Fin 4) (s : State) :
    Row (· = c.p) s (execTokenTakesEffect c out i s) :=
  .next (.ite (refl _ s) ((refl _ s).onPol _ rfl))

theorem leads_holdFreeze (p : Pid) (s : State) : Row (· = p) s (execHoldFreeze p s) :=
  .next (.ite ((refl _ s).onPol _ rfl) (refl _ s))

theorem leads_holdResume (p : Pid) (s : State) : Row (· = p) s (execHoldResume p s) :=
  .next (.ite ((refl _ s).onPol _ rfl) (refl _ s))

theorem leads_debugHoldWrite (p : Pid) (w : Who) (on : Bool) (s : State) : Row (· = p) s (execDebugHoldWrite p w on s) :=
  .next ((refl _ s).writePage rfl)

theorem leads_recfgGo (p : Pid) (w : Who) (s : State) : Row (· = p) s (execRecfgGo p w s) :=
  .next ((refl _ s).writePage rfl)

theorem leads_recfgWaitEnd (p : Pid) (s : State) : Row (· = p) s (execRecfgWaitEnd p s) :=
  .next ((refl _ s).event rfl)

theorem leads_recfgDone (p : Pid) (s : State) : Row (· = p) s (execRecfgDone p s) :=
  .next ((refl _ s).event rfl)

theorem leads_notDrained (p : Pid) (s : State) : Row (· = p) s (execNotDrained p s) :=
  .next ((refl _ s).event rfl)

theorem leads_recfgRelease (p : Pid) (w : Who) (s : State) : Row (· = p) s (execRecfgRelease p w s) :=
  .next ((refl _ s).writePage rfl)

theorem leads_slotTableWrite (p : Pid) (w : Who) (v : W32) (s : State) : Row (· = p) s (execSlotTableWrite p w v s) :=
  .next ((refl _ s).writePage rfl)

theorem leads_issueGo (p : Pid) (w : Who) (s : State) : Row (· = p) s (execIssueGo p w s) :=
  .next ((refl _ s).writePage rfl)

theorem leads_variantTableReadDone (p : Pid) (s : State) : Row (· = p) s (execVariantTableReadDone p s) :=
  .next ((refl _ s).event rfl)

theorem leads_plotStart (p : Pid) (i : Nat) (s : State) : Row (· = p) s (execPlotStart p i s) :=
  .next ((refl _ s).event rfl)

theorem leads_startTideMissed (p : Pid) (i : Nat) (s : State) : Row (· = p) s (execStartTideMissed p i s) :=
  .next ((refl _ s).event rfl)

theorem leads_issueComplete (p : Pid) (i : Nat) (s : State) : Row (· = p) s (execIssueComplete p i s) :=
  .next ((refl _ s).event rfl)

theorem leads_pipeGo (p : Pid) (w : Who) (s : State) : Row (· = p) s (execPipeGo p w s) :=
  .next ((refl _ s).writePage rfl)

theorem leads_pipeGateOpen (p : Pid) (s : State) : Row (· = p) s (execPipeGateOpen p s) :=
  .next ((refl _ s).event rfl)

theorem leads_pipeTableReadDone (p : Pid) (s : State) : Row (· = p) s (execPipeTableReadDone p s) :=
  .next ((refl _ s).event rfl)

theorem leads_passBegin (p : Pid) (s : State) : Row (· = p) s (execPassBegin p s) :=
  .next (.ite ((refl _ s).onPolFree _ rfl) (refl _ s))

theorem leads_stashCopyOut (p : Pid) (stage : Fin 64) (rec : Fin 32) (s : State) :
    Row (· = p) s (execStashCopyOut p stage rec s) :=
  .next ((refl _ s).event rfl)

theorem leads_stashReturn (p : Pid) (stage : Fin 64) (rec : Fin 32) (s : State) :
    Row (· = p) s (execStashReturn p stage rec s) :=
  .next ((refl _ s).event rfl)

theorem leads_pipeRunComplete (p : Pid) (s : State) : Row (· = p) s (execPipeRunComplete p s) :=
  .next ((refl _ s).event rfl)

theorem leads_handoffRegisterWrite (p : Pid) (w : Who) (n : Fin 4) (isDone : Bool) (v : W32) (s : State) :
    Row (· = p) s (execHandoffRegisterWrite p w n isDone v s) :=
  .next ((refl _ s).writePage rfl)

theorem leads_ringTailWrite (e : EngId) (w : Who) (v : W32) (s : State) : Row (· = e.p) s (execRingTailWrite e w v s) :=
  .next ((refl _ s).writeEng rfl)

theorem leads_descBurstFetch (e : EngId) (s : State) : Row (· = e.p) s (execDescBurstFetch e s) :=
  .next ((refl _ s).onEng rfl)

theorem leads_descBurstLanded (e : EngId) (s : State) : Row (· = e.p) s (execDescBurstLanded e s) :=
  .next ((refl _ s).onEng rfl)

theorem leads_descEnterFetching (e : EngId) (s : State) : Row (· = e.p) s (execDescEnterFetching e s) :=
  .next ((refl _ s).onEng rfl)

theorem leads_engineArm (e : EngId) (w : Who) (s : State) : Row (· = e.p) s (execEngineArm e w s) :=
  .next ((refl _ s).writeEng rfl)

theorem leads_engineStop (e : EngId) (w : Who) (s : State) : Row (· = e.p) s (execEngineStop e w s) :=
  .next ((refl _ s).writeEng rfl)

theorem leads_engineStopped (e : EngId) (s : State) : Row (· = e.p) s (execEngineStopped e s) :=
  .next ((refl _ s).onEng rfl)

theorem leads_engineIdle (e : EngId) (s : State) : Row (· = e.p) s (execEngineIdle e s) :=
  .next ((refl _ s).onEng rfl)

theorem leads_intakeRequestIssue (e : EngId) (s : State) : Row (· = e.p) s (execIntakeRequestIssue e s) :=
  .next ((refl _ s).onEng rfl)

theorem leads_handGateWaitEnd (e : EngId) (s : State) : Row (· = e.p) s (execHandGateWaitEnd e s) :=
  .next ((refl _ s).onEng rfl)

theorem leads_intakeDataLanded (e : EngId) (i : Nat) (r : ReadReply) (s : State) :
    Row (· = e.p) s (execIntakeDataLanded e i r s) := by
  unfold execIntakeDataLanded; split
  · exact .fault
  · exact .next ((refl _ s).onEng rfl)

theorem leads_intakeRetryTimer (e : EngId) (i : Nat) (s : State) : Row (· = e.p) s (execIntakeRetryTimer e i s) :=
  .next ((refl _ s).onEng rfl)

theorem leads_intakeBeatEmit (e : EngId) (circ : Fin 8) (s : State) : Row (· = e.p) s (execIntakeBeatEmit e circ s) :=
  .next ((refl _ s).onEng rfl)

theorem leads_intakeHoldRequest (e : EngId) (s : State) : Row (· = e.p) s (execIntakeHoldRequest e s) :=
  .next ((refl _ s).onEng rfl)

theorem leads_descRetire (e : EngId) (s : State) : Row (· = e.p) s (execDescRetire e s) :=
  .next ((refl _ s).onEng rfl)

theorem leads_outfallBeatTake (e : EngId) (s : State) : Row (· = e.p) s (execOutfallBeatTake e s) :=
  .next ((refl _ s).onEng rfl)

theorem leads_outfallWaitRelease (e : EngId) (s : State) : Row (· = e.p) s (execOutfallWaitRelease e s) :=
  .next ((refl _ s).onEng rfl)

theorem leads_outfallWrite (e : EngId) (s : State) : Row (· = e.p) s (execOutfallWrite e s) :=
  .next ((refl _ s).onEng rfl)

theorem leads_reduceWriteSend (e : EngId) (s : State) : Row (· = e.p) s (execReduceWriteSend e s) :=
  .next ((refl _ s).onEng rfl)

theorem leads_reduceWriteCompletion (e : EngId) (tag : BitVec 16) (status : Status) (deferred : Bool) (s : State) :
    Row (· = e.p) s (execReduceWriteCompletion e tag status deferred s) :=
  .next ((refl _ s).onEng rfl)

theorem leads_outfallReissueTimer (e : EngId) (tag : BitVec 16) (s : State) :
    Row (· = e.p) s (execOutfallReissueTimer e tag s) :=
  .next ((refl _ s).onEng rfl)

theorem leads_hbmAccessGrant (p : Pid) (die : Fin 4) (ctrl : Fin 2) (s : State) :
    Row (· = p) s (execHbmAccessGrant p die ctrl s) := by
  refine .next (.ite (refl _ s) ?_)
  split
  · exact refl _ s
  · exact .ite (refl _ s) (.ite (refl _ s) ((refl _ s).onPol _ rfl))

theorem leads_accessTableWrite (p : Pid) (die : Fin 4) (ctrl : Fin 2) (w : Who) (v : W32) (s : State) :
    Row (· = p) s (execAccessTableWrite p die ctrl w v s) :=
  .next ((refl _ s).writePage rfl)

theorem leads_kvCreate (p : Pid) (s : State) : Row (· = p) s (execKvCreate p s) :=
  .next ((refl _ s).event rfl)

theorem leads_kvAppend (p : Pid) (s : State) : Row (· = p) s (execKvAppend p s) :=
  .next ((refl _ s).event rfl)

theorem leads_kvFork (p : Pid) (s : State) : Row (· = p) s (execKvFork p s) :=
  .next ((refl _ s).event rfl)

theorem leads_kvPrepareWrite (p : Pid) (s : State) : Row (· = p) s (execKvPrepareWrite p s) :=
  .next ((refl _ s).event rfl)

theorem leads_kvTruncate (p : Pid) (s : State) : Row (· = p) s (execKvTruncate p s) :=
  .next ((refl _ s).event rfl)

theorem leads_kvDestroy (p : Pid) (s : State) : Row (· = p) s (execKvDestroy p s) :=
  .next ((refl _ s).event rfl)

theorem leads_kvPrefetch (p : Pid) (s : State) : Row (· = p) s (execKvPrefetch p s) :=
  .next ((refl _ s).event rfl)

theorem leads_kvResident (p : Pid) (s : State) : Row (· = p) s (execKvResident p s) :=
  .next ((refl _ s).event rfl)

theorem leads_kvPinRelease (p : Pid) (i : Nat) (s : State) : Row (· = p) s (execKvPinRelease p i s) :=
  .next ((refl _ s).event rfl)

theorem leads_kvPrefetchPageDone (p : Pid) (s : State) : Row (· = p) s (execKvPrefetchPageDone p s) :=
  .next ((refl _ s).event rfl)

theorem leads_rangeClear (p : Pid) (w : Who) (s : State) : Row (· = p) s (execRangeClear p w s) :=
  .next ((refl _ s).writePage rfl)

theorem leads_rangeFetch (p : Pid) (w : Who) (s : State) : Row (· = p) s (execRangeFetch p w s) :=
  .next ((refl _ s).writePage rfl)

theorem leads_rangeEvict (p : Pid) (w : Who) (s : State) : Row (· = p) s (execRangeEvict p w s) :=
  .next ((refl _ s).writePage rfl)

theorem leads_rangeReservedOp (p : Pid) (w : Who) (s : State) : Row (· = p) s (execRangeReservedOp p w s) :=
  .next ((refl _ s).writePage rfl)

theorem leads_rangeDone (p : Pid) (s : State) : Row (· = p) s (execRangeDone p s) :=
  .next ((refl _ s).event rfl)

theorem leads_bwWindowExpiry (p : Pid) (s : State) : Row (· = p) s (execBwWindowExpiry p s) :=
  .next (.ite ((refl _ s).onPol _ rfl) (refl _ s))

theorem leads_bar4Access (p : Pid) (off : BitVec 36) (a : Access) (s : State) :
    Row (· = p) s (execBar4Access p off a s) := by
  unfold execBar4Access
  extract_lets
  have ans : ∀ (c : Prop) [Decidable c] (t : State) (r : HostReply), Leads (· = p) s t →
      Leads (· = p) s (if c then t else { t with pols := t.pols.set p ((t.pol p).reply r) }) := by
    intro c _ t r h
    split
    · exact h
    · exact h.trans ⟨rfl, .refl _, fun h => h, fun q hq => Quad.get_set_ne _ _ hq⟩
  split
  · exact .fault
  · refine .next ?_
    dsimp only
    refine .ite (ans _ _ _ (.ite (Leads.onPol _ rfl ?_) ?_)) (.ite (ans _ _ _ (refl _ s))
      (.ite (ans _ _ _ ((refl _ s).standIn rfl)) ?_))
    · exact (refl _ s).onMod' (fun m => m.deny _ _) fun m => by simp
    · exact (refl _ s).onMod' (fun m => m.deny _ _) fun m => by simp
    · split <;> exact (refl _ s).onPol _ rfl

theorem leads_tier3Completion (p : Pid) (i : Nat) (o : PcieOutcome) (s : State) :
    Row (· = p) s (execTier3Completion p i o s) := by
  unfold execTier3Completion; split
  · exact .fault
  · exact .next ((refl _ s).event rfl)

theorem leads_pumpArm (p : Pid) (ch : Fin 4) (w : Who) (s : State) : Row (· = p) s (execPumpArm p ch w s) :=
  .next ((refl _ s).writePage rfl)

theorem leads_pumpClose (p : Pid) (ch : Fin 4) (w : Who) (s : State) : Row (· = p) s (execPumpClose p ch w s) :=
  .next ((refl _ s).writePage rfl)

theorem leads_pumpDeadlineExpiry (p : Pid) (ch : Fin 4) (s : State) : Row (· = p) s (execPumpDeadlineExpiry p ch s) :=
  .next ((refl _ s).event rfl)

theorem leads_pumpGraceExpiry (p : Pid) (ch : Fin 4) (s : State) : Row (· = p) s (execPumpGraceExpiry p ch s) :=
  .next ((refl _ s).event rfl)

theorem leads_reductionDrained (p : Pid) (ch : Fin 4) (s : State) : Row (· = p) s (execReductionDrained p ch s) :=
  .next ((refl _ s).event rfl)

theorem leads_normTotalReady (p : Pid) (ch : Fin 4) (s : State) : Row (· = p) s (execNormTotalReady p ch s) :=
  .next ((refl _ s).event rfl)

theorem leads_pumpShardComplete (p : Pid) (ch : Fin 4) (shard : Nat) (s : State) :
    Row (· = p) s (execPumpShardComplete p ch shard s) :=
  .next (.ite ((refl _ s).onPolFree _ rfl) (refl _ s))

theorem leads_pumpUpdateComplete (p : Pid) (ch : Fin 4) (s : State) : Row (· = p) s (execPumpUpdateComplete p ch s) :=
  .next ((refl _ s).event rfl)

theorem leads_snapshotHandoffWaitEnd (p : Pid) (ch : Fin 4) (s : State) :
    Row (· = p) s (execSnapshotHandoffWaitEnd p ch s) :=
  .next ((refl _ s).event rfl)

theorem leads_snapshotAbort (p : Pid) (ch : Fin 4) (s : State) : Row (· = p) s (execSnapshotAbort p ch s) :=
  .next ((refl _ s).event rfl)

theorem leads_portEnableWrite (p : Pid) (port : Fin 8) (w : Who) (v : W32) (s : State) :
    Row (· = p) s (execPortEnableWrite p port w v s) :=
  .next ((refl _ s).writePage rfl)

theorem leads_laneCheckDone (p : Pid) (port : Fin 8) (shorted : BitVec 8) (s : State) :
    Row (· = p) s (execLaneCheckDone p port shorted s) :=
  .next ((refl _ s).event rfl)

theorem leads_negotiateRoundEnd (p : Pid) (port : Fin 8) (lanes : List LaneRx) (peer : Option FinalPage) (s : State) :
    Row (· = p) s (execNegotiateRoundEnd p port lanes peer s) := by
  unfold execNegotiateRoundEnd; split
  · exact .fault
  · exact .next ((refl _ s).event rfl)

theorem leads_trainDone (p : Pid) (port : Fin 8) (failed inverted : BitVec 8) (s : State) :
    Row (· = p) s (execTrainDone p port failed inverted s) :=
  .next ((refl _ s).event rfl)

theorem leads_alignDone (p : Pid) (port : Fin 8) (s : State) : Row (· = p) s (execAlignDone p port s) :=
  .next ((refl _ s).event rfl)

theorem leads_waitExpiry (p : Pid) (port : Fin 8) (s : State) : Row (· = p) s (execWaitExpiry p port s) :=
  .next ((refl _ s).event rfl)

theorem leads_retrain (p : Pid) (port : Fin 8) (w : Who) (s : State) : Row (· = p) s (execRetrain p port w s) :=
  .next ((refl _ s).writePage rfl)

theorem leads_laneLost (p : Pid) (port : Fin 8) (s : State) : Row (· = p) s (execLaneLost p port s) :=
  .next ((refl _ s).event rfl)

theorem leads_downIdleEnd (p : Pid) (port : Fin 8) (s : State) : Row (· = p) s (execDownIdleEnd p port s) :=
  .next ((refl _ s).event rfl)

theorem leads_inPackageBringup (p : Pid) (port : Fin 8) (failed : BitVec 8) (peer : Option (BitVec 8)) (s : State) :
    Row (· = p) s (execInPackageBringup p port failed peer s) :=
  .next ((refl _ s).event rfl)

theorem leads_flitReceive (p : Pid) (port : Fin 8) (flit : BitVec 2048) (s : State) :
    Row (· = p) s (execFlitReceive p port flit s) :=
  .next ((refl _ s).event rfl)

theorem leads_flitTransmit (p : Pid) (port : Fin 8) (s : State) : Row (· = p) s (execFlitTransmit p port s) :=
  .next ((refl _ s).event rfl)

theorem leads_ackTimer (p : Pid) (port : Fin 8) (s : State) : Row (· = p) s (execAckTimer p port s) :=
  .next ((refl _ s).event rfl)

theorem leads_txnRequestIssue (p : Pid) (t : Txn) (s : State) : Row (· = p) s (execTxnRequestIssue p t s) := by
  unfold execTxnRequestIssue; split
  · exact .fault
  · exact .next ((refl _ s).event rfl)

theorem leads_elasticWaitExpiry (p : Pid) (tag : BitVec 16) (s : State) :
    Row (· = p) s (execElasticWaitExpiry p tag s) :=
  .next ((refl _ s).event rfl)

theorem leads_fabricRead (p : Pid) (port : Fin 8) (t : Txn) (s : State) : Row (· = p) s (execFabricRead p port t s) := by
  unfold execFabricRead; split
  · exact .fault
  · refine .next (.ite (refl _ s) ((refl _ s).fabric rfl fun t => ?_))
    refine .ite ((refl _ t).onRegs rfl fun u g => ?_) ((refl _ t).onPol _ rfl)
    exact Leads.fabRegs (S := (· = p)) (q := p) rfl _ _ _ _ (refl _ u)

theorem leads_mirrorRecordRx (p : Pid) (port : Fin 8) (t : Txn) (s : State) :
    Row (· = p) s (execMirrorRecordRx p port t s) := by
  unfold execMirrorRecordRx; split
  · exact .fault
  · refine .next (.ite (refl _ s) ?_)
    exact .ite (((refl _ s).onMod' (fun m => m.deny _ _ _) fun m => by simp).onPol _ rfl) ((refl _ s).onPol _ rfl)

theorem leads_fabricWrite (p : Pid) (port : Fin 8) (t : Txn) (s : State) : Row (· = p) s (execFabricWrite p port t s) := by
  unfold execFabricWrite; split
  · exact .fault
  · split
    · exact .next (refl _ s)
    · split
      · exact leads_mirrorRecordRx p port t s
      · refine .next ((refl _ s).fabric rfl fun u => ?_)
        refine .ite ((refl _ u).onRegs rfl fun v g => ?_) ((refl _ u).onPol _ rfl)
        exact Leads.fabPut (S := (· = p)) (q := p) rfl _ _ _ _ _ (refl _ v)

theorem leads_fabricReduceWrite (p : Pid) (port : Fin 8) (t : Txn) (s : State) :
    Row (· = p) s (execFabricReduceWrite p port t s) := by
  unfold execFabricReduceWrite; split
  · exact .fault
  · exact .next (.ite (refl _ s) ((refl _ s).fabric rfl fun t => (refl _ t).onPol _ rfl))

theorem leads_fabricFetchAdd (p : Pid) (port : Fin 8) (t : Txn) (s : State) :
    Row (· = p) s (execFabricFetchAdd p port t s) := by
  unfold execFabricFetchAdd; split
  · exact .fault
  · exact .next (.ite (refl _ s) ((refl _ s).atomic rfl))

theorem leads_fabricCompareSwap (p : Pid) (port : Fin 8) (t : Txn) (s : State) :
    Row (· = p) s (execFabricCompareSwap p port t s) := by
  unfold execFabricCompareSwap; split
  · exact .fault
  · exact .next (.ite (refl _ s) ((refl _ s).atomic rfl))

theorem leads_windowOpen (p : Pid) (o : WinFrom) (s : State) : Row (· = p) s (execWindowOpen p o s) := by
  unfold execWindowOpen; split
  · exact .fault
  · exact .next ((refl _ s).event rfl)

theorem leads_windowClose (p : Pid) (o : WinFrom) (s : State) : Row (· = p) s (execWindowClose p o s) := by
  unfold execWindowClose; split
  · exact .fault
  · exact .next ((refl _ s).event rfl)

theorem leads_windowWriteVisible (p : Pid) (i : Fin 64) (s : State) : Row (· = p) s (execWindowWriteVisible p i s) :=
  .next ((refl _ s).event rfl)

theorem leads_fabricFence (p : Pid) (port : Fin 8) (t : Txn) (s : State) : Row (· = p) s (execFabricFence p port t s) := by
  unfold execFabricFence; split
  · exact .fault
  · exact .next ((refl _ s).event rfl)

theorem leads_txnCompletion (p : Pid) (t : Txn) (s : State) : Row (· = p) s (execTxnCompletion p t s) := by
  unfold execTxnCompletion; split
  · exact .fault
  · exact .next ((refl _ s).event rfl)

theorem leads_requestTimeout (p : Pid) (tag : BitVec 16) (s : State) : Row (· = p) s (execRequestTimeout p tag s) :=
  .next ((refl _ s).event rfl)

theorem leads_heartbeatTimer (p : Pid) (s : State) : Row (· = p) s (execHeartbeatTimer p s) :=
  .next ((refl _ s).event rfl)

theorem leads_heartbeatRx (p : Pid) (t : Txn) (s : State) : Row (· = p) s (execHeartbeatRx p t s) := by
  unfold execHeartbeatRx; split
  · exact .fault
  · exact .next ((refl _ s).event rfl)

theorem leads_peerLossTimeout (p : Pid) (entry : Fin 32) (s : State) : Row (· = p) s (execPeerLossTimeout p entry s) :=
  .next ((refl _ s).event rfl)

theorem leads_noticePeerLost (p : Pid) (t : Txn) (s : State) : Row (· = p) s (execNoticePeerLost p t s) := row_onNotice rfl

theorem leads_noticePeerUp (p : Pid) (t : Txn) (s : State) : Row (· = p) s (execNoticePeerUp p t s) := row_onNotice rfl

theorem leads_noticeRouteChange (p : Pid) (t : Txn) (s : State) : Row (· = p) s (execNoticeRouteChange p t s) := row_onNotice rfl

theorem leads_noticeDrain (p : Pid) (t : Txn) (s : State) : Row (· = p) s (execNoticeDrain p t s) := row_onNotice rfl

theorem leads_noticeUser (p : Pid) (t : Txn) (s : State) : Row (· = p) s (execNoticeUser p t s) := row_onNotice rfl

theorem leads_noticeSend (p : Pid) (w : Who) (s : State) : Row (· = p) s (execNoticeSend p w s) :=
  .next ((refl _ s).writePage rfl)

theorem leads_noticePop (p : Pid) (w : Who) (s : State) : Row (· = p) s (execNoticePop p w s) :=
  .next ((refl _ s).writePage rfl)

theorem leads_flitForward (p : Pid) (port : Fin 8) (flit : BitVec 2048) (s : State) :
    Row (· = p) s (execFlitForward p port flit s) :=
  .next ((refl _ s).event rfl)

theorem leads_flxMapStage (p : Pid) (w : Who) (s : State) : Row (· = p) s (execFlxMapStage p w s) :=
  .next ((refl _ s).writePage rfl)

theorem leads_flxMapActivate (p : Pid) (w : Who) (s : State) : Row (· = p) s (execFlxMapActivate p w s) :=
  .next ((refl _ s).writePage rfl)

theorem leads_mapActivation (p : Pid) (slot : Fin 8) (s : State) : Row (· = p) s (execMapActivation p slot s) :=
  .next ((refl _ s).event rfl)

theorem leads_flxMapRetire (p : Pid) (w : Who) (s : State) : Row (· = p) s (execFlxMapRetire p w s) :=
  .next ((refl _ s).writePage rfl)

theorem leads_flxMapDrop (p : Pid) (w : Who) (s : State) : Row (· = p) s (execFlxMapDrop p w s) :=
  .next ((refl _ s).writePage rfl)

theorem leads_mirrorRecordCompletion (p : Pid) (status : Status) (s : State) :
    Row (· = p) s (execMirrorRecordCompletion p status s) :=
  .next ((refl _ s).event rfl)

theorem leads_twnPost (p : Pid) (w : Who) (s : State) : Row (· = p) s (execTwnPost p w s) :=
  .next ((refl _ s).writePage rfl)

theorem leads_stepEnd (p : Pid) (w : Who) (s : State) : Row (· = p) s (execStepEnd p w s) :=
  .next ((refl _ s).writePage rfl)

theorem leads_stepBoundary (p : Pid) (s : State) : Row (· = p) s (execStepBoundary p s) :=
  .next ((refl _ s).event rfl)

theorem leads_scalesWritten (p : Pid) (s : State) : Row (· = p) s (execScalesWritten p s) :=
  .next ((refl _ s).event rfl)

theorem leads_xfCopy (p : Pid) (w : Who) (s : State) : Row (· = p) s (execXfCopy p w s) :=
  .next ((refl _ s).writePage rfl)

theorem leads_xfZero (p : Pid) (w : Who) (s : State) : Row (· = p) s (execXfZero p w s) :=
  .next ((refl _ s).writePage rfl)

theorem leads_xfComplete (p : Pid) (status : Status) (s : State) : Row (· = p) s (execXfComplete p status s) :=
  .next ((refl _ s).event rfl)

theorem leads_semWaitWatchdog (c : CellId) (s : State) : Row (· = c.p) s (execSemWaitWatchdog c s) := row_watch rfl

theorem leads_plotHalt (p : Pid) (s : State) : Row (· = p) s (execPlotHalt p s) := row_watch rfl

theorem leads_engWaitWatchdog (e : EngId) (s : State) : Row (· = e.p) s (execEngWaitWatchdog e s) := row_watch rfl

theorem leads_holdOverrun (p : Pid) (s : State) : Row (· = p) s (execHoldOverrun p s) := row_watch rfl

theorem leads_noResponseWatchdog (p : Pid) (b : BlockId) (s : State) : Row (· = p) s (execNoResponseWatchdog p b s) := row_watch rfl

theorem leads_internalLinkLost (p : Pid) (j : JoinId) (s : State) : Row (· = p) s (execInternalLinkLost p j s) := by
  refine .next ?_
  have b : Leads (· = p) s (if (j = .pll && s.mod.power = .on) = true then s.onMod fun m => m.count (CLK + 0x44) 1 else s) :=
    .ite ((refl _ s).onMod' _ fun m => by simp) (refl _ s)
  exact .ite (b.warden rfl) b

theorem leads_linkStuck (p : Pid) (port : Option (Fin 8)) (s : State) : Row (· = p) s (execLinkStuck p port s) := row_watch rfl

theorem leads_resetReqPlot (p : Pid) (w : Who) (s : State) : Row (· = p) s (execResetReqPlot p w s) := row_resetReq rfl

theorem leads_resetReqEngine (p : Pid) (w : Who) (target : Byte) (s : State) :
    Row (· = p) s (execResetReqEngine p w target s) := row_resetReq rfl

theorem leads_resetReqDie (p : Pid) (w : Who) (target : Byte) (s : State) :
    Row (· = p) s (execResetReqDie p w target s) := row_resetReq rfl

theorem leads_resetReqPolder (p : Pid) (w : Who) (s : State) : Row (· = p) s (execResetReqPolder p w s) := row_resetReq rfl

theorem leads_resetReqPowerCycle (p : Pid) (w : Who) (s : State) : Row (· = p) s (execResetReqPowerCycle p w s) := row_powerCycle w rfl

theorem leads_resetHoldoffEnd (p : Pid) (i : Nat) (s : State) : Row (· = p) s (execResetHoldoffEnd p i s) := row_watch rfl

theorem leads_resetComplete (p : Pid) (i : Nat) (s : State) : Row (· = p) s (execResetComplete p i s) := row_onLadder rfl

theorem leads_ladderTimeout (p : Pid) (i : Nat) (s : State) : Row (· = p) s (execLadderTimeout p i s) := row_onLadder rfl

theorem leads_recoveryPhaseDone (p : Pid) (s : State) : Row (· = p) s (execRecoveryPhaseDone p s) := by
  refine .next ?_
  split
  · exact refl _ s
  · exact (refl _ s).warden rfl

theorem leads_recoveryPhaseTimeout (p : Pid) (s : State) : Row (· = p) s (execRecoveryPhaseTimeout p s) := by
  refine .next ?_
  split
  · exact refl _ s
  · exact (refl _ s).warden rfl

theorem leads_wardenResume (p : Pid) (w : Who) (s : State) : Row (· = p) s (execWardenResume p w s) :=
  .next ((refl _ s).writePage rfl)

theorem leads_wardenGuardTimeout (p : Pid) (s : State) : Row (· = p) s (execWardenGuardTimeout p s) :=
  .next (.ite ((refl _ s).warden rfl) (refl _ s))

theorem leads_probeStart (p : Pid) (s : State) : Row (· = p) s (execProbeStart p s) := row_watch rfl

theorem leads_probeBatchDone (p : Pid) (s : State) : Row (· = p) s (execProbeBatchDone p s) := row_watch rfl

theorem leads_probeTimeout (p : Pid) (s : State) : Row (· = p) s (execProbeTimeout p s) := row_watch rfl

theorem leads_quarantineRelease (p : Pid) (w : Who) (s : State) : Row (· = p) s (execQuarantineRelease p w s) :=
  .next ((refl _ s).writePage rfl)

theorem leads_amaxReport (p : Pid) (s : State) : Row (· = p) s (execAmaxReport p s) :=
  .next ((refl _ s).event rfl)

theorem leads_pumpRatioReport (p : Pid) (ch : Fin 4) (s : State) : Row (· = p) s (execPumpRatioReport p ch s) :=
  .next ((refl _ s).event rfl)

theorem leads_gaugeRelease (p : Pid) (w : Who) (s : State) : Row (· = p) s (execGaugeRelease p w s) :=
  .next ((refl _ s).writePage rfl)

theorem leads_thermalSample (p : Pid) (temps : BitVec 48) (s : State) : Row (· = p) s (execThermalSample p temps s) := by
  refine .next (.ite (Leads.onPol _ rfl ((refl _ s).onMod' _ fun m => ?_)) (refl _ s))
  have key : ∀ (l : List Nat) (m : Module), (l.foldl (fun (m : Module) i =>
        let k := 6 * p.val + i
        let t : Byte := bits temps (8 * i) 8
        let peak := SMap.get (fun _ => (0 : Byte)) m.peaks k
        { m with
          temps := SMap.set (fun _ => 0) m.temps k t
          peaks := SMap.set (fun _ => 0) m.peaks k (if peak.toNat < t.toNat then t else peak) }) m).kept = m.kept := by
    intro l
    induction l with
    | nil => exact fun m => rfl
    | cons a r ih => exact fun m => (ih _).trans rfl
  dsimp only
  repeat' split
  all_goals exact key _ m

theorem leads_thermalCritTimeout (p : Pid) (s : State) : Row (· = p) s (execThermalCritTimeout p s) :=
  .next (.ite ((Leads.fail (S := (· = p)) (q := p) rfl (refl _ s)).onMod' _ fun m => by simp) (refl _ s))

theorem leads_imgSave (p : Pid) (w : Who) (s : State) : Row (· = p) s (execImgSave p w s) :=
  .next ((refl _ s).writePage rfl)

theorem leads_imgLoad (p : Pid) (w : Who) (s : State) : Row (· = p) s (execImgLoad p w s) :=
  .next ((refl _ s).writePage rfl)

theorem leads_sqTailDoorbell (slot : Fin 64) (v : W32) (s : State) :
    Row (fun _ => True) s (execSqTailDoorbell slot v s) :=
  .next (.ite ((refl _ s).onMod' _ fun m => by simp) (refl _ s))

theorem leads_cqHeadDoorbell (slot : Fin 64) (v : W32) (s : State) :
    Row (fun _ => True) s (execCqHeadDoorbell slot v s) :=
  .next (.ite ((refl _ s).onMod' _ fun m => by simp) (refl _ s))

theorem leads_commandFetch (slot : Fin 64) (entry : BitVec 1024) (s : State) :
    Row (fun _ => True) s (execCommandFetch slot entry s) :=
  .next (.ite ((refl _ s).onMod' _ fun m => by simp) (refl _ s))

theorem leads_commandDispatch (slot : Fin 64) (tag : BitVec 16) (s : State) :
    Row (fun _ => True) s (execCommandDispatch slot tag s) := by
  refine .next (.ite ?_ (refl _ s))
  split
  · exact .ite ((refl _ s).dispatch (fun _ => trivial) _ _) (refl _ s)
  · exact refl _ s

theorem leads_cmdNop (slot : Fin 64) (tag : BitVec 16) (s : State) : Row (fun _ => True) s (execCmdNop slot tag s) :=
  .next ((refl _ s).runCmd fun t c => (refl _ t).endNow _ _ _ _)

theorem leads_regRead (slot : Fin 64) (tag : BitVec 16) (s : State) : Row (fun _ => True) s (execRegRead slot tag s) := by
  refine .next ((refl _ s).runPol (fun _ => trivial) fun t c q => ?_)
  split
  · exact (refl _ t).endNow _ _ _ _
  · exact ((refl _ t).regRead _ _ fun _ _ => trivial).endNow _ _ _ _

theorem leads_regWrite (slot : Fin 64) (tag : BitVec 16) (s : State) : Row (fun _ => True) s (execRegWrite slot tag s) := by
  refine .next ((refl _ s).runPol (fun _ => trivial) fun t c q => ?_)
  split
  · exact (refl _ t).endNow _ _ _ _
  · exact ((refl _ t).regWrite _ _ _ fun _ _ => trivial).endNow _ _ _ _

theorem leads_plotIssue (slot : Fin 64) (tag : BitVec 16) (s : State) :
    Row (fun _ => True) s (execPlotIssue slot tag s) :=
  .next ((refl _ s).runPol (fun _ => trivial) fun t c q => (refl _ t).startCmd trivial)

theorem leads_pipeStart (slot : Fin 64) (tag : BitVec 16) (s : State) :
    Row (fun _ => True) s (execPipeStart slot tag s) :=
  .next ((refl _ s).runPol (fun _ => trivial) fun t c q => (refl _ t).startCmd trivial)

theorem leads_kvEdit (slot : Fin 64) (tag : BitVec 16) (s : State) : Row (fun _ => True) s (execKvEdit slot tag s) :=
  .next ((refl _ s).runPol (fun _ => trivial) fun t c q => (refl _ t).startCmd trivial)

theorem leads_updateArm (slot : Fin 64) (tag : BitVec 16) (s : State) :
    Row (fun _ => True) s (execUpdateArm slot tag s) :=
  .next ((refl _ s).runPol (fun _ => trivial) fun t c q => (refl _ t).startCmd trivial)

theorem leads_mapStage (slot : Fin 64) (tag : BitVec 16) (s : State) : Row (fun _ => True) s (execMapStage slot tag s) :=
  .next ((refl _ s).runPol (fun _ => trivial) fun t c q => (refl _ t).startCmd trivial)

theorem leads_mapActivate (slot : Fin 64) (tag : BitVec 16) (s : State) :
    Row (fun _ => True) s (execMapActivate slot tag s) :=
  .next ((refl _ s).runPol (fun _ => trivial) fun t c q => (refl _ t).startCmd trivial)

theorem leads_restore2408 (slot : Fin 64) (tag : BitVec 16) (counter : BitVec 512) (queue : List (BitVec 128))
    (s : State) :
    Row (fun _ => True) s (execRestore2408 slot tag counter queue s) := by
  unfold execRestore2408; split
  · exact .fault
  · refine .next ((refl _ s).runPol (fun _ => trivial) fun t c q => ?_)
    refine .ite ((refl _ t).endNow _ _ _ _) ?_
    exact (((refl _ t).withFree _).hostWrite _ _).endNow _ _ _ _

theorem leads_journalRead (slot : Fin 64) (tag : BitVec 16) (s : State) :
    Row (fun _ => True) s (execJournalRead slot tag s) :=
  .next ((refl _ s).runPol (fun _ => trivial) fun t c q => ((refl _ t).hostWrite _ _).endNow _ _ _ _)

theorem leads_cfgStage (slot : Fin 64) (tag : BitVec 16) (s : State) : Row (fun _ => True) s (execCfgStage slot tag s) :=
  .next ((refl _ s).cfgCmd (fun _ => trivial) _ _ _)

theorem leads_cfgCommit (slot : Fin 64) (tag : BitVec 16) (s : State) :
    Row (fun _ => True) s (execCfgCommit slot tag s) :=
  .next ((refl _ s).cfgCmd (fun _ => trivial) _ _ _)

theorem leads_cfgDiscard (slot : Fin 64) (tag : BitVec 16) (s : State) :
    Row (fun _ => True) s (execCfgDiscard slot tag s) :=
  .next ((refl _ s).cfgCmd (fun _ => trivial) _ _ _)

theorem leads_cfgRollback (slot : Fin 64) (tag : BitVec 16) (s : State) :
    Row (fun _ => True) s (execCfgRollback slot tag s) :=
  .next ((refl _ s).cfgCmd (fun _ => trivial) _ _ _)

theorem leads_cfgCtrlStage (w : Who) (s : State) : Row (fun _ => True) s (execCfgCtrlStage w s) :=
  .next ((refl _ s).cfgCtrl (fun _ => trivial) _ _)

theorem leads_cfgCtrlCommit (w : Who) (s : State) : Row (fun _ => True) s (execCfgCtrlCommit w s) :=
  .next ((refl _ s).cfgCtrl (fun _ => trivial) _ _)

theorem leads_cfgCtrlDiscard (w : Who) (s : State) : Row (fun _ => True) s (execCfgCtrlDiscard w s) :=
  .next ((refl _ s).cfgCtrl (fun _ => trivial) _ _)

theorem leads_cfgCtrlRollback (w : Who) (s : State) : Row (fun _ => True) s (execCfgCtrlRollback w s) :=
  .next ((refl _ s).cfgCtrl (fun _ => trivial) _ _)

theorem leads_commitSwap (s : State) : Row (fun _ => True) s (execCommitSwap s) := by
  refine .next ?_
  split
  · rename_i c img hc hi
    refine .ite ?_ (refl _ s)
    dsimp only
    have hm : ∀ (l : List Pid) (t : State), t.mod.kept = s.mod.kept → t.mod.staged = some img →
        (l.foldl (fun (s : State) q =>
          if s.mod.powered q && !(s.pol q).unrestored.contains 5 then
            s.onPol q fun _ p => p.swapTo q s.mod.active img else s) t).mod.staged = some img := by
      intro l
      induction l with
      | nil => exact fun t _ h => h
      | cons q r ih =>
        intro t hk h
        rw [List.foldl_cons]
        refine ih _ ?_ ?_
        · split
          · exact (State.onPol_mod _ _ _).kept.trans hk
          · exact hk
        · split
          · rw [(State.onPol_mod _ _ _).eq]; exact h
          · exact h
    have hs := hm (List.finRange 4) s rfl hi
    refine Leads.runHeld (fun _ => trivial) (Leads.onMod _ ?_ ((refl _ s).fold _ _ fun t q =>
      .ite ((refl _ t).onPol _ trivial) (refl _ t)))
    refine Module.keeps_swap _ _ hs ?_
    split <;> simp only [Module.endCfg_kept, Module.raise_kept, Module.wr_kept] <;> exact Module.kept_swapped _ _
  · exact refl _ s

theorem leads_commitDrainTimeout (s : State) : Row (fun _ => True) s (execCommitDrainTimeout s) := by
  refine .next ?_
  split
  · exact refl _ s
  · exact .ite (refl _ s) (Leads.runHeld (fun _ => trivial) ((refl _ s).onMod' _ fun m => by simp; rfl))

theorem leads_rwsWrite (a : RegAddr) (w : Who) (v : W32) (s : State) : Row (reaches a) s (execRwsWrite a w v s) :=
  .next ((refl _ s).writeRws a w v fun _ h => h)

theorem leads_fwLoad (slot : Fin 64) (tag : BitVec 16) (data : Option (List Byte)) (s : State) :
    Row (fun _ => True) s (execFwLoad slot tag data s) := by
  unfold execFwLoad
  refine Row.ite .fault ?_
  · refine .next ((refl _ s).runCmd fun t c => ?_)
    refine .ite ((refl _ t).endLoad _ _ _ _) ?_
    split
    · exact (refl _ t).endLoad _ _ _ _
    · refine .ite (refl _ t) (.ite ((refl _ t).endLoad _ _ _ _) ?_)
      extract_lets r
      refine .ite ((refl _ t).endLoad _ _ _ _) ?_
      refine Leads.endLoad slot tag Status.done 0 ?_
      exact Leads.onMod' _ (fun m => rfl) (refl _ t)

theorem leads_fwActivate (slot : Fin 64) (tag : BitVec 16) (s : State) :
    Row (fun _ => True) s (execFwActivate slot tag s) :=
  .next ((refl _ s).runCmd fun t c => ((refl _ t).endNow _ _ _ _).keeperReset (fun _ => trivial) _)

theorem leads_attest (slot : Fin 64) (tag : BitVec 16) (ok : Bool) (s : State) :
    Row (fun _ => True) s (execAttest slot tag ok s) := by
  refine .next ((refl _ s).runCmd fun t c => .ite ((refl _ t).endNow _ _ _ _) ?_)
  exact (((refl _ t).withFree _).hostWrite _ _).endNow _ _ _ _

theorem leads_kreset (w : Who) (s : State) : Row (fun _ => True) s (execKreset w s) := row_kreset fun _ => trivial

theorem leads_keeperWatchdog (s : State) : Row (fun _ => True) s (execKeeperWatchdog s) :=
  .next (.ite ((refl _ s).keeperReset (fun _ => trivial) _) (refl _ s))

theorem leads_hostHoldPoint (p : Pid) (s : State) : Row (· = p) s (execHostHoldPoint p s) :=
  .next ((refl _ s).event rfl)

theorem leads_keeperReady (s : State) : Row (fun _ => True) s (execKeeperReady s) := by
  refine .next (.ite (Leads.onPowered (fun _ => trivial) ((refl _ s).onMod' _ fun m => ?_)) (refl _ s))
  dsimp only; split <;> simp <;> rfl

theorem leads_keeperBootTimeout (s : State) : Row (fun _ => True) s (execKeeperBootTimeout s) := by
  refine .next (.ite (Leads.holdPolders (fun _ => trivial) ((refl _ s).onMod' _ fun m => ?_)) (refl _ s))
  have h := Module.testSlot_kept m (!m.running)
  split
  · rename_i m1 e; rw [e] at h; rw [Module.raise_kept]; exact Eq.trans (b := m1.kept) rfl h
  · rename_i m1 e; rw [e] at h; exact Eq.trans (b := m1.kept) rfl h

theorem leads_heldCommandTimeout (slot : Fin 64) (tag : BitVec 16) (s : State) :
    Row (fun _ => True) s (execHeldCommandTimeout slot tag s) := by
  refine .next ((refl _ s).onMod' _ fun m => ?_)
  repeat' split
  all_goals first | rfl | simp

theorem leads_inletDataFrame (p : Pid) (f : Frame) (s : State) : Row (· = p) s (execInletDataFrame p f s) := by
  unfold execInletDataFrame; split
  · exact .fault
  · exact .next ((refl _ s).event rfl)

theorem leads_inletCreditFrame (p : Pid) (f : Frame) (s : State) : Row (· = p) s (execInletCreditFrame p f s) := by
  unfold execInletCreditFrame; split
  · exact .fault
  · exact .next ((refl _ s).event rfl)

theorem leads_inletNackFrame (p : Pid) (f : Frame) (s : State) : Row (· = p) s (execInletNackFrame p f s) := by
  unfold execInletNackFrame; split
  · exact .fault
  · exact .next ((refl _ s).event rfl)

theorem leads_inletPfcFrame (p : Pid) (enable pause : BitVec 8) (s : State) :
    Row (· = p) s (execInletPfcFrame p enable pause s) :=
  .next ((refl _ s).event rfl)

theorem leads_inletFrameDrop (p : Pid) (cause : DropCause) (s : State) : Row (· = p) s (execInletFrameDrop p cause s) :=
  .next ((refl _ s).event rfl)

theorem leads_inletFrameDelivered (p : Pid) (s : State) : Row (· = p) s (execInletFrameDelivered p s) :=
  .next ((refl _ s).event rfl)

theorem leads_inletSessionWrite (p : Pid) (w : Who) (v : W32) (s : State) :
    Row (· = p) s (execInletSessionWrite p w v s) :=
  .next ((refl _ s).throughPol rfl fun t => Leads.sessionWrite (S := (· = p)) rfl w v (refl _ t))

theorem leads_inletConsumedWrite (p : Pid) (w : Who) (v : W64) (s : State) :
    Row (· = p) s (execInletConsumedWrite p w v s) :=
  .next ((refl _ s).writePage rfl)

theorem leads_inletCreditTimer (p : Pid) (stream : Fin 16) (s : State) :
    Row (· = p) s (execInletCreditTimer p stream s) :=
  .next ((refl _ s).event rfl)

theorem leads_inletPfcSend (p : Pid) (prio : Fin 8) (s : State) : Row (· = p) s (execInletPfcSend p prio s) :=
  .next ((refl _ s).event rfl)

theorem leads_inletSnapshotSend (p : Pid) (stream : Fin 16) (s : State) :
    Row (· = p) s (execInletSnapshotSend p stream s) :=
  .next ((refl _ s).event rfl)

theorem leads_inletBringup (p : Pid) (laneFault strelham : Bool) (s : State) :
    Row (· = p) s (execInletBringup p laneFault strelham s) :=
  .next ((refl _ s).event rfl)

theorem leads_fuseBlowProtMap (w : Who) (i : Fin 128) (s : State) : Row (fun _ => True) s (execFuseBlowProtMap w i s) :=
  .next ((refl _ s).writeMod fun m => .of_kept (by simp))

theorem leads_fuseBlowDebugLock (w : Who) (s : State) : Row (fun _ => True) s (execFuseBlowDebugLock w s) :=
  .next ((refl _ s).writeMod fun m => .of_kept (by simp))

theorem leads_fuseBlowFieldLock (w : Who) (s : State) : Row (fun _ => True) s (execFuseBlowFieldLock w s) :=
  .next ((refl _ s).writeMod fun m => .of_kept (by simp))

theorem leads_fuseBlowDone (s : State) : Row (fun _ => True) s (execFuseBlowDone s) := by
  refine .next ((refl _ s).onMod _ ?_)
  split
  · exact .refl _
  · rename_i field bit _
    refine Module.keeps_blown _ _ field bit ?_
    simp only [Module.raise_kept, Module.wr_kept]
    rfl

theorem leads_arbAdvance (w : Who) (s : State) : Row (fun _ => True) s (execArbAdvance w s) := row_arb

theorem leads_debugAccess (a : RegAddr) (v : Option W32) (s : State) : Row (reaches a) s (execDebugAccess a v s) := by
  refine .next ?_
  split
  · exact Leads.replied _ _ ((refl _ s).regRead _ _ fun _ h => h)
  · exact (refl _ s).regWrite _ _ _ fun _ h => h

theorem leads_pllLockLoss (l : PllId) (s : State) : Row (fun _ => True) s (execPllLockLoss l s) := by
  unfold execPllLockLoss
  split
  · rename_i q
    intro t h
    exact (leads_internalLinkLost q .pll s t h).mono fun _ _ => trivial
  · exact .next (.ite (((refl _ s).onMod' _ fun m => by simp).keeperReset (fun _ => trivial) _) (refl _ s))
  · exact .next (.ite (((refl _ s).onMod' _ fun m => by simp).keeperReset (fun _ => trivial) _) (refl _ s))

theorem leads_inputRise (s : State) : Row (fun _ => True) s (execInputRise s) :=
  .next (.ite (refl _ s) ((refl _ s).withMod _ (.of_kept rfl)))

theorem leads_hotswapChargeDone (s : State) : Row (fun _ => True) s (execHotswapChargeDone s) :=
  .next (.ite ⟨rfl, .refl _, fun h => h, fun _ _ => rfl⟩ (refl _ s))

theorem leads_vinDip (s : State) : Row (fun _ => True) s (execVinDip s) :=
  .next (.ite ((refl _ s).onMod' _ fun m => by simp) (refl _ s))

theorem leads_vinLoss (s : State) : Row (fun _ => True) s (execVinLoss s) :=
  .next (.ite (lost s _) (refl _ s))

theorem leads_inputOvercurrent (s : State) : Row (fun _ => True) s (execInputOvercurrent s) :=
  .next (.ite (lost s _) (refl _ s))

theorem leads_railFault (p : Pid) (s : State) : Row (· = p) s (execRailFault p s) := by
  refine .next (.ite ?_ (refl _ s))
  have b := (refl (· = p) s).onMod' (fun m =>
    let m := { m with rails := SMap.set (fun _ => Rail.off) m.rails p.val .fault }
    ((m.count (PWR + 0x58) 1 (2 * p.val) 2).raise PWR 0).raise PWR 1) fun m => by simp; rfl
  exact .ite (b.fail rfl) (b.warden rfl)

theorem leads_keeperGroupFault (s : State) : Row (fun _ => True) s (execKeeperGroupFault s) :=
  .next (.ite (lost s _) (refl _ s))

theorem leads_polderOff (p : Pid) (w : Who) (s : State) : Row (· = p) s (execPolderOff p w s) := by
  refine .next ?_
  have b : Leads (· = p) s (s.writeMod (PWR + 0x50) w id) := (refl _ s).writeMod fun m => .refl m
  exact .ite (Leads.fail rfl (b.onMod' _ fun m => rfl)) b

theorem leads_polderOn (p : Pid) (w : Who) (s : State) : Row (· = p) s (execPolderOn p w s) := by
  refine .next ?_
  have b : Leads (· = p) s (s.writeMod (PWR + 0x50) w id) := (refl _ s).writeMod fun m => .refl m
  exact .ite (Leads.warden rfl (b.onMod' _ fun m => rfl)) b

theorem leads_modResetAssert (s : State) : Row (fun _ => True) s (execModResetAssert s) := by
  refine .next (.ite ⟨rfl, ?_, fun h => Module.below_zero rfl (show 0 < s.mod.cfgNext.toNat from Module.below_pos h),
    fun _ h => absurd trivial h⟩ (refl _ s))
  dsimp only
  split
  · split
    · exact Fuses.grows_blown _ _ _
    · exact .refl _
  · exact .refl _

theorem leads_modResetRelease (s : State) : Row (fun _ => True) s (execModResetRelease s) :=
  .next (.ite ((refl _ s).onMod' _ fun m => by simp; rfl) (refl _ s))

theorem leads_polderPowerOnSequence (p : Pid) (s : State) : Row (· = p) s (execPolderPowerOnSequence p s) :=
  .next (.ite ((refl _ s).warden rfl) (refl _ s))

theorem leads_perstAssert (port : Fin 2) (s : State) : Row (fun _ => True) s (execPerstAssert port s) := by
  refine .next (.ite ?_ (refl _ s))
  exact (Leads.onPowered (fun _ => trivial) ((refl _ s).withMod
    { s.mod with perst := s.mod.perst &&& ~~~(BitVec.ofNat 2 (2 ^ port.val)) } (.of_kept rfl))).withFree _

theorem leads_perstRelease (port : Fin 2) (s : State) : Row (fun _ => True) s (execPerstRelease port s) :=
  .next ((refl _ s).withMod _ (.of_kept rfl))

theorem leads_eventW1c (a : PageAddr) (w : Who) (v : W32) (s : State) : Row (pageReaches a) s (execEventW1c a w v s) := by
  refine .next ?_
  cases a with
  | page a => exact (refl _ s).regWrite _ _ _ fun _ h => reaches_inPage.1 h
  | cell c => exact Leads.cellWrite (S := pageReaches (.cell c)) rfl _ _ _ (refl _ s)

theorem leads_eventForce (a : PageAddr) (w : Who) (v : W32) (s : State) :
    Row (pageReaches a) s (execEventForce a w v s) := by
  refine .next ?_
  cases a with
  | page a => exact (refl _ s).regWrite _ _ _ fun _ h => reaches_inPage.1 h
  | cell c => exact Leads.cellWrite (S := pageReaches (.cell c)) rfl _ _ _ (refl _ s)

theorem leads_rcRegisterRead (a : PageAddr) (w : Who) (s : State) : Row (pageReaches a) s (execRcRegisterRead a w s) := by
  refine .next ?_
  cases a with
  | page a => exact Leads.replied _ _ ((refl _ s).regRead _ _ fun _ h => h)
  | cell c => exact Leads.replied _ _ (Leads.cellRead (S := pageReaches (.cell c)) rfl _ _ (refl _ s))

theorem leads_errCodeRead (a : PageAddr) (w : Who) (s : State) : Row (pageReaches a) s (execErrCodeRead a w s) := by
  refine .next ?_
  cases a with
  | page a => exact Leads.replied _ _ ((refl _ s).regRead _ _ fun _ h => reaches_inPage.1 h)
  | cell c => exact Leads.replied _ _ (Leads.cellRead (S := pageReaches (.cell c)) rfl _ _ (refl _ s))

theorem leads_loHiPairWrite (a : RegAddr) (w : Who) (lo : W32) (hi : W32) (s : State) :
    Row (reaches a) s (execLoHiPairWrite a w lo hi s) :=
  .next (Leads.regWrite _ _ _ (fun _ h => reaches_nextReg.1 h) ((refl _ s).regWrite _ _ _ fun _ h => h))

theorem leads_registerWrite (a : PageAddr) (w : Who) (v : W32) (s : State) :
    Row (pageReaches a) s (execRegisterWrite a w v s) := by
  refine .next ?_
  cases a with
  | page a => exact (refl _ s).regWrite _ _ _ fun _ h => h
  | cell c => exact Leads.cellWrite (S := pageReaches (.cell c)) rfl _ _ _ (refl _ s)

theorem leads_unitQueueStart (c : CellId) (u : UnitId) (s : State) : Row (· = c.p) s (execUnitQueueStart c u s) :=
  .next ((refl _ s).onCell rfl)

theorem leads_bar2Access (c : CellId) (w : Who) (addr : BitVec 17) (v : Option W32) (s : State) :
    Row (· = c.p) s (execBar2Access c w addr v s) := by
  refine .next (.ite (refl _ s) ?_)
  split
  · exact Leads.replied _ _ (Leads.cellRead (S := (· = c.p)) rfl _ _ (refl _ s))
  · exact Leads.cellWrite (S := (· = c.p)) rfl _ _ _ (refl _ s)

theorem leads_alignTimeout (p : Pid) (port : Fin 8) (s : State) : Row (· = p) s (execAlignTimeout p port s) :=
  .next (.ite ((refl _ s).onPolFree _ rfl) (refl _ s))

end Sys2Proof.Machine.State.Leads
end

