-- ==== Sys2Proof/Tests/Slice0.lean ====
section
/-! SUPPORT. Tests: payloads a wire cannot carry are refused, values the manual prints, and for each statement of
Certificates/Slice0 a concrete state and operands that meet its hypotheses, clause by clause. -/

open Sys2Proof Sys2Proof.Machine

namespace Sys2Proof.Tests

-- one proof at a time: each needs much memory
set_option Elab.async false

/-! ## Small states -/

/-- The running module: reset, with supply and rails on, the keeper die ready and every die restored. -/
def on : State :=
  let p := { Polder.reset with unrestored := [] }
  { State.reset with
    mod := { Module.reset with power := .on, keeper := .ready, running := true
                               rails := [(0, .on), (1, .on), (2, .on), (3, .on)] }
    pols := ⟨p, p, p, p⟩ }

/-- The state with polder 0, or the module, changed. -/
def at0 (f : Polder → Polder) (s : State := on) : State := { s with pols := s.pols.set 0 (f (s.pol 0)) }
def atMod (f : Module → Module) (s : State := on) : State := { s with mod := f s.mod }

/-- The keeper agent of context 7, and keeper firmware. -/
abbrev ag : Who := ⟨.keeperAgent, 7⟩
abbrev fw : Who := ⟨.keeperFw, 7⟩

/-- Cell (0, 1) of polder 0. -/
abbrev c0 : CellId := ⟨0, 0, 1⟩

theorem admits_iff {s : State} {p : Pid} {off : Nat} {w : Who} : s.Admits p off w ↔
    (s.mod.power = .on ∧ (polPage off).any (fun g => decide (s.polGate p g.blk.cls off w true = .open)) = true) := by
  cases h : polPage off <;> simp [State.Admits, h]

theorem admitsMod_iff {s : State} {off : Nat} {w : Who} : s.AdmitsMod off w ↔
    (s.mod.power = .on ∧ (modPage off).any (fun g => decide (s.modGate g.blk.cls w true = .open)) = true) := by
  cases h : modPage off <;> simp [State.AdmitsMod, h]

theorem passes_iff {s : State} {p : Pid} {port : Fin 8} {t : Txn} {write : Bool} : s.Passes p port t write ↔
    (t.wf = true ∧ s.live p 5 = true ∧ ((s.ctxOf p).module? (s.pol p)).isSome = true ∧
      (s.ctxOf p).isOwn (s.pol p) t.addr = true ∧ (fabClass t.addr).any (fun c =>
        decide (t.src.toNat = (s.ctxOf p).ownId (s.pol p)) || !s.mod.denied (portRequester port.val) c write) = true) := by
  cases h : fabClass t.addr <;> simp [State.Passes, h]

/-! ## Payloads a wire cannot carry -/

/-- A transaction of a given opcode, address, length and data, to polder 20 from polder 77 unless said. -/
def txn (op : Byte) (md : BitVec 4) (a : W64) (len : Nat) (data : List Byte) (src : Nat := 77) (dst : Nat := 20) : Txn :=
  { op := op, mod := md, tinc := 0, tag := 5, len := BitVec.ofNat 10 len, epoch := 0, rinc := 0, chk := false
    deferred := false, status := 0, addr := a, ctx := 7, opnd := 3, src := BitVec.ofNat 12 src, dst := BitVec.ofNat 12 dst
    cls := .guaranteed, data := data }

/-- A frame of stream 2 or another, with its session, offset and number of payload bytes. -/
def frame (ty : Nat) (k : Fin 16) (session off len : Nat) (limit : Nat := 0) : Frame :=
  ⟨BitVec.ofNat 4 ty, false, true, false, false, false, k, 0, BitVec.ofNat 32 session, BitVec.ofNat 64 off,
   BitVec.ofNat 64 limit, 0, 0, List.replicate len 7⟩

/-- One term for each check of `Instr.wf`, which refuses it. -/
theorem test_illformed_refused :
    (txn opWrite 0 0 4 (List.replicate 513 0)).wf = false ∧
    ReadReply.wf ⟨0, false, List.replicate 513 0⟩ = false ∧
    (Access.read 0).wf = false ∧ (Access.read 4097).wf = false ∧ (Access.write []).wf = false ∧
    Instr.wf (.negotiateRoundEnd 0 1 [.nothing] none) = false := by decide +kernel
theorem test_illformed_write : (Access.write (List.replicate 4097 none)).wf = false := by
  simp only [Access.wf, List.length_replicate]; decide
theorem test_illformed_completion : (PcieOutcome.ok (List.replicate 4097 0)).wf = false := by
  simp only [PcieOutcome.wf, List.length_replicate]; decide
theorem test_illformed_frame : (frame 1 2 9 0 8193).wf = false := by
  simp only [Frame.wf, frame, List.length_replicate]; decide
theorem test_illformed_image (k : Fin 64) (tag : BitVec 16) :
    Instr.wf (.fwLoad k tag (some (List.replicate 67108865 0))) = false := by
  simp only [Instr.wf, List.length_replicate]; decide
theorem test_illformed_records (k : Fin 64) (tag : BitVec 16) (ctr : BitVec 512) :
    Instr.wf (.restore2408 k tag ctr (List.replicate 65537 0)) = false := by
  simp only [Instr.wf, List.length_replicate]; decide
theorem test_illformed_stops (s : State) : exec (.bar4Access 0 0 (.read 0)) s = .fault .illFormed := rfl

/-- The longest payloads pass. -/
theorem test_wellformed : (txn opWrite 0 0 4 (List.replicate 512 0)).wf = true ∧ (Access.read 4096).wf = true ∧
    Instr.wf (.negotiateRoundEnd 0 1 (List.replicate 8 .nothing) none) = true := by decide +kernel
theorem test_wellformed_frame : (frame 1 2 9 0 8192).wf = true := by
  simp only [Frame.wf, frame, List.length_replicate]; decide


/-! ## Values the manual prints -/

/-- The record of the worked example of chapter 05, for an extent X0 and a number of drain tiles. -/
def exRec (x0 drain : Nat) : List W32 :=
  [0x01000100, 0, BitVec.ofNat 32 (0x111 + drain * 2 ^ 16), 0, 0, 0, BitVec.ofNat 32 x0, 0,
   0x07000000, 1, 0x00207000, 8, 0x00707200, 2, 0x08008000, 0]
/-- A table entry: PC 0, extents M_T, N_T, K_T and the trip count KH of the HBM-level k loop. -/
def exEntry (m n k kh : Byte) : List Byte := [0x00, 0x80, m, 0, n, 0, 0, k, 1, 1, kh, 1, 1, 1, 0, 0]

/-- Chapter 05, worked example: extent 50 takes bucket 56, variant 3; demand 14, and every region fits. -/
theorem test_issue_example :
    recordOk (exRec 50 7) = true ∧ bucketIdx (exRec 50 7) [[16, 32, 48, 56, 64], [], []] 0 = some 3 ∧
    ∃ v, variantOf (exRec 50 7) (exEntry 56 64 2 1) = some v ∧ accDemand (exRec 50 7) v = 14 ∧
      regionNeed (exRec 50 7) v 0 1 = 28672 ∧ regionNeed (exRec 50 7) v 1 8 = 512 ∧
      regionNeed (exRec 50 7) v 2 2 = 1792 ∧ regionFail (exRec 50 7) v = none ∧
      tide16 (0x2A3 * 64 + 20 + setupCycles (exRec 50 7)) = 0x2B0 :=
  ⟨by decide +kernel, by decide +kernel, ⟨0, [[7, 8, 64], [1, 1, 1], [1, 1, 1]]⟩, by decide +kernel⟩
/-- The same, extent 0: bucket 0, demand 9, A needs 8,192 bytes, and the setup takes 30 cycles. -/
theorem test_issue_example_zero : bucketIdx (exRec 0 7) [[16, 32, 48, 56, 64], [], []] 0 = some 0 ∧
    accDemand (exRec 0 7) ⟨0, [[2, 8, 64], [1, 1, 1], [1, 1, 1]]⟩ = 9 ∧
    regionNeed (exRec 0 7) ⟨0, [[2, 8, 64], [1, 1, 1], [1, 1, 1]]⟩ 0 1 = 8192 ∧
    zeroExtent (exRec 0 7) = true ∧ setupCycles (exRec 0 7) = 30 := by decide +kernel
/-- The same, extents 60 and 70: demand 71 with KH 2; with DRAIN 0 OUT fails with NEED 1,024; no bucket holds 70. -/
theorem test_issue_example_over : accDemand (exRec 60 7) ⟨0, [[8, 8, 32], [1, 1, 2], [1, 1, 1]]⟩ = 71 ∧
    accDemand (exRec 60 0) ⟨0, [[8, 8, 32], [1, 1, 2], [1, 1, 1]]⟩ = 64 ∧
    regionFail (exRec 60 0) ⟨0, [[8, 8, 32], [1, 1, 2], [1, 1, 1]]⟩ = some (2, 16384) ∧
    demandWord 64 2 16384 = 0x04000240 ∧
    bucketIdx (exRec 70 7) [[16, 32, 48, 56, 64], [], []] 0 = none := by decide +kernel

/-- R32 to R34, words written out field by field: OP, RD, RA, RB, RC, FMT, RND, IMM. -/
theorem test_field_words :
    decodeField 0b001000_00001_00010_00011_00000_0000_00_00000000000000000000000000000000#64 =
      some ⟨.add, 1, 2, 3, 0, 0, 0, 0⟩ ∧
    decodeField 0b000011_00010_00101_00000_00000_0000_00_00000000000000110000001111111111#64 =
      some ⟨.loop, 2, 5, 0, 0, 0, 0, 0x000303FF⟩ ∧
    decodeField 0b010100_01000_00101_00000_00000_0010_00_11111111111111111111111111111100#64 =
      some ⟨.ld, 8, 5, 0, 0, 2, 0, 0xFFFFFFFC⟩ ∧
    decodeField 0b011100_00000_00011_00000_00100_0000_00_01000000000000100000000000000110#64 =
      some ⟨.send, 0, 3, 0, 4, 0, 0, 0x40020006⟩ ∧
    decodeField 0b101000_00000_00010_00011_00100_0101_00_00000000000000000000000000000100#64 =
      some ⟨.mma, 0, 2, 3, 4, 5, 0, 4⟩ ∧
    decodeField 0b111001_00111_00110_00001_00000_0001_01_00000000000000000000000000000100#64 =
      some ⟨.cvt, 7, 6, 1, 0, 1, 1, 4⟩ ∧
    decodeField 0b010011_00000_00000_00000_00000_0000_00_00000000000000000000000000000000#64 = none := by
  decide +kernel

/-- Chapter 16: 448 ÷ 14 with MARGIN 1 gives t = 4, and 448 ÷ 30 gives 2. -/
theorem test_scale_example : exponentFor 448 1 0x41600000 = 4 ∧ exponentFor 448 1 0x41F00000 = 2 := by decide +kernel

/-- Chapter 03: a block whose largest magnitude is 3.1 has scale byte 120, and its 3.1 and 0.01 become the E4M3 codes of 384
and of 1.25. -/
theorem test_mx_example : mxBlock .e4m3 [f32 0x40466666, f32 0x3C23D70A] [.rne, .rne] = (120, [0x7C, 0x3A]) := by
  decide +kernel

/-- AES-128: the example of FIPS 197, appendix C.1. -/
theorem test_aes : aes128 (List.range 16) ((List.range 16).map (17 * ·)) =
    [0x69, 0xC4, 0xE0, 0xD8, 0x6A, 0x7B, 0x04, 0x30, 0xD8, 0xCD, 0xB7, 0x80, 0x70, 0xB4, 0xC5, 0x5A] := by decide +kernel
/-- CRC-32C of the bytes of "123456789", the check value published with the polynomial. -/
theorem test_crc : crc32c [0x31, 0x32, 0x33, 0x34, 0x35, 0x36, 0x37, 0x38, 0x39] = 0xE3069283 := by decide +kernel
/-- SHA-384 of "abc": the example published with FIPS 180-4. -/
theorem test_sha384 : sha384 [0x61, 0x62, 0x63] = beBytes
    0xCB00753F45A35E8BB5A03D699AC65007272C32AB0EDED1631A8B605A43FF5BED8086072BA1E7CC2358BAECA134C825A7 48 := by
  decide +kernel

/-! ## Cells and their programs -/

/-- Cell (0, 1) of polder 0 in cycle 70 (tide 1, slot 6), changed by `f`, its PC 3 at the word of `i`. -/
def cellAt (f : Cell → Cell) (s : State := on) : State :=
  at0 (fun p => { p.setCell c0.key (f { Cell.reset with run := true, st := .running, pc := 3, base := some 0 }) with
    cycle := 70, field := 90 }) s
def word (i : FieldIns) (f : Cell → Cell := id) : State :=
  cellAt fun c => f { c with
    prog := [(3, i.encode)], cnt := [(1, 2), (2, 1)], sems := [(1, 5)]
    g := [(1, 16), (2, 0x8000000000000001), (3, 4), (5, 0x10000 + 4 * 4095), (6, 0x3FFC0), (7, 128)] }
abbrev ins (o : FieldOp) (rd ra rb rc : BitVec 5 := 0) (fmt : BitVec 4 := 0) (imm : W32 := 0) : FieldIns :=
  ⟨o, rd, ra, rb, rc, fmt, 0, imm⟩

/-- Every instruction the statements name issues at its operands: scalar rows, all sixteen MOVS selectors, the control
rows with counts 0, 1 and 2. -/
theorem test_hyps_scalar_and_control :
    (∀ i ∈ [ins .add 1 1 2, ins .addi 3 2 (imm := 0xFFFFFFFF), ins .sub 1 1 2, ins .mul 5 2 2, ins .and 1 2 2,
      ins .or 1 1 2, ins .xor 0 1 2, ins .shli 1 2 (imm := 63), ins .shri 1 2 (imm := 63), ins .ldi 31 (imm := 0x80000000),
      ins .ldhi 2 (imm := 5)], (word i).Issues c0 i) ∧
    (∀ k < 16, (word (ins .movs 9 (imm := BitVec.ofNat 32 k))).Issues c0 (ins .movs 9 (imm := BitVec.ofNat 32 k))) ∧
    (∀ i ∈ [ins .nop, ins .jmp (imm := 0x3FF), ins .loop 1 (imm := 0x000203FF), ins .loop 1 0 (imm := 7),
      ins .brc 0 (imm := 9), ins .brc 2 (imm := 9), ins .brc 1 (imm := 9), ins .halt, ins .fence],
      (word i).Issues c0 i ∧ ((word i).cellOf c0).gather = []) ∧
    (∀ i ∈ [ins .fence], ((word i).cellOf c0).writesDone = true) ∧
    (word (ins .fence) fun c => { c with svc := [⟨0, false, 2, 0, 16, 1, 1, 7, none, []⟩] }).Issues c0 (ins .fence) ∧
    ((word (ins .fence) fun c => { c with svc := [⟨0, false, 2, 0, 16, 1, 1, 7, none, []⟩] }).cellOf c0).writesDone =
      false := by decide +kernel

/-- An instruction that starts and meets no fault; one that faults (an accumulator tile outside the file); words that are
reserved, and not legal. -/
theorem test_hyps_program_rows :
    (∀ i ∈ [ins .add 1 1 2, ins .ld 8 5 (fmt := 2), ins .st 0 5 2 (fmt := 2), ins .azero (imm := 0xFC000001)],
      let s := word i
      let r := runOf i.op (s.issueEnv c0 i) (s.issued c0 i) (s.cellOf c0).advanced
      s.Issues c0 i ∧ (s.cellOf c0).advanced.canStart (s.issueEnv c0 i).now (s.issued c0 i) = true ∧ r.fault = none) ∧
    (let i := ins .ld 8 6 (fmt := 2)
     let s := word i
     let r := runOf i.op (s.issueEnv c0 i) (s.issued c0 i) (s.cellOf c0).advanced
     s.Issues c0 i ∧ (s.cellOf c0).advanced.canStart (s.issueEnv c0 i).now (s.issued c0 i) = true ∧ r.fault.isSome = true ∧
       r.cell.st ≠ .faulted) ∧
    (let s := word (ins .add) fun c => { c with prog := [(3, 0xFFFFFFFFFFFFFFFF)] }
     s.cellUp c0 ∧ (s.cellOf c0).issuing = true ∧ decodeField (SMap.get (fun _ => 0) (s.cellOf c0).prog 3) = none) ∧
    (let i := ins .add 1 1 2 (imm := 8)
     (word i).cellUp c0 ∧ ((word i).cellOf c0).issuing = true ∧ i.legal = false ∧
       decodeField (SMap.get (fun _ => 0) ((word i).cellOf c0).prog 3) = some i) := by decide +kernel

/-- TWAIT at, before and after its slot; SWAIT with enough and with too little; what releases them, and halts and
fences. -/
theorem test_hyps_waits :
    (∀ i ∈ [ins .twait 0 0 (imm := 70), ins .twait 0 0 (imm := 71), ins .twait 0 0 (imm := 69),
      ins .swait (imm := 0x1050), ins .swait (imm := 0x1060)], (word i).Issues c0 i ∧ ((word i).cellOf c0).sync = none) ∧
    ((word (ins .swait)).cellOf c0).sem 1 = 5 ∧
    (let s := word (ins .nop)
     (s.cellOf c0).tide (s.issueEnv c0 (ins .nop)).now = 1 ∧ (s.issueEnv c0 (ins .nop)).now % 64 = 6) ∧
    (let s := cellAt fun c => { c with drain := .halt }
     s.cellUp c0 ∧ (s.cellOf c0).allDone = true ∧ ((s.cellOf c0).run1 flushAll).st ≠ .faulted) ∧
    (let s := cellAt fun c => { c with drain := .stop }
     s.cellUp c0 ∧ (s.cellOf c0).allDone = true ∧ ((s.cellOf c0).run1 flushAll).st ≠ .faulted) ∧
    (let s := cellAt fun c => { c with drain := .fence }
     s.cellUp c0 ∧ (s.cellOf c0).drain = .fence ∧ (s.cellOf c0).writesDone = true) ∧
    (let s := cellAt fun c => { c with st := .waitTide, sync := some (.twait 3 7) }
     s.cellUp c0 ∧ (s.cellOf c0).sync = some (.twait 3 7)) ∧
    (∀ n ∈ [5, 6], (cellAt fun c => { c with st := .waitSem, sync := some (.swait 1 n), sems := [(1, 5)] }).cellUp c0) := by
  decide +kernel

/-- SSIG to another cell, to itself and to an engine; WTOK with a reserved slot; AMXS; ports free and slots to come or
gone; SVRD with room. -/
theorem test_hyps_signals_and_ports :
    (∀ i ∈ [ins .ssig (imm := 0x00021010), ins .ssig (imm := 0x00011010), ins .ssig (imm := 0x3F00F018),
      ins .amxs (imm := 0x02000005)], (word i).Issues c0 i ∧ ((word i).cellOf c0).sync = none) ∧
    (let i := ins .wtok 0 1 (imm := 0x00018000)
     let s := at0 (fun p => p.onGrid fun g => { g with slots := [(slotKey 1 c0.key 6 7, 0x8000)] }) (word i)
     s.Issues c0 i ∧ ((s.pol 0).grid.nextSlot 1 c0.key 6 (fun e => e.getLsbD 15) (s.issueEnv c0 i).now).isSome = true) ∧
    (∀ i ∈ [ins .send 0 0 (imm := 0x00020006), ins .send 0 0 (imm := 0x00020005), ins .recv 0 0 (imm := 0x20020006),
      ins .recv 0 0 (imm := 0x20020005)],
      let s := word i
      s.Issues c0 i ∧ (s.cellOf c0).portQ = none ∧ (s.cellOf c0).portFree (s.issued c0 i) = true ∧
        addrOk 0 (32 * (s.issued c0 i).count) 32 4 = true ∧ (s.issued c0 i).count ≠ 0 ∧ (s.issueEnv c0 i).now % 64 = 6) ∧
    (let i := ins .svrd 0 7 (imm := 0x05501001)
     let s := word i
     s.Issues c0 i ∧ (s.cellOf c0).svcQ = none ∧ (s.cellOf c0).svc.length < 4 ∧
       addrOk 0 (8 * (s.issued c0 i).count) 8 8 = true ∧ addrOk 128 (8 * (s.issued c0 i).count) 8 8 = true ∧
       (s.issued c0 i).count ≠ 0) := by decide +kernel

/-- LD and ST at the last accumulator entry; VCLR of whole rows; AZERO of the last tile. -/
theorem test_hyps_loads_and_clears :
    (∀ i ∈ [ins .ld 8 5 (fmt := 2), ins .ld 0 5 (fmt := 2), ins .st 0 5 2 (fmt := 2)],
      let s := word i
      s.Issues c0 i ∧ (s.cellOf c0).shadow = false ∧ (s.cellOf c0).mem.busy (s.issueEnv c0 i).now = false ∧
        SMap.find? (s.cellOf c0).upset (4096 + 4095) = none ∧
        ((s.cellOf c0).getG i.ra + i.imm.signExtend 64).toNat = 0x10000 + 4 * 4095) ∧
    (let i := ins .vclr 0 7 (imm := 2)
     let s := word i
     s.Issues c0 i ∧ (s.cellOf c0).shadow = false ∧ (s.cellOf c0).mem.busy (s.issueEnv c0 i).now = false ∧
       ((s.cellOf c0).getG i.ra).toNat = 128 ∧ 128 + 128 * (s.issued c0 i).count ≤ 0x10000) ∧
    (let i := ins .azero (imm := 0xFC000001)
     let s := word i
     s.Issues c0 i ∧ (s.cellOf c0).shadow = false ∧ (s.cellOf c0).vec.busy (s.issueEnv c0 i).now = false ∧
       (s.cellOf c0).behindMma (s.issued c0 i) = false ∧ i.tile + (s.issued c0 i).count = 64) := by
  decide +kernel

/-- Busy units of each kind with their queues free, and queued instructions that can start. -/
theorem test_hyps_unit_queues :
    (let i := ins .ld 8 5 (fmt := 2)
     let s := word i fun c => { c with mem := { UnitSt.idle with free := 1000 } }
     s.Issues c0 i ∧ i.op.unit = .mem ∧ (s.cellOf c0).mem.busy (s.issueEnv c0 i).now = true ∧ (s.cellOf c0).mem.queue = none) ∧
    (let i := ins .mma 0 4 4 (imm := 4)
     let s := word i fun c => { c with arr := { UnitSt.idle with free := 1000 } }
     s.Issues c0 i ∧ i.op.unit = .array ∧ (s.cellOf c0).arr.busy (s.issueEnv c0 i).now = true ∧ (s.cellOf c0).arr.queue = none) ∧
    (let i := ins .vadd 4 0 0 (imm := 3)
     let s := word i fun c => { c with vec := { UnitSt.idle with free := 1000 } }
     s.Issues c0 i ∧ i.op.unit = .vec ∧ (s.cellOf c0).vec.busy (s.issueEnv c0 i).now = true ∧ (s.cellOf c0).vec.queue = none) := by decide +kernel
theorem test_hyps_port_queues :
    (let i := ins .send 0 0 (imm := 0x00020006)
     let s := word i fun c => { c with ports := [⟨true, 0, 0, 5, false, 0, 0, 0⟩] }
     s.Issues c0 i ∧ i.op.unit = .port ∧ (s.cellOf c0).portQ = none ∧ (s.cellOf c0).portFree (s.issued c0 i) = false) ∧
    (let i := ins .amxs (imm := 0x02000005)
     let s := word i fun c => { c with sync := some (.amxs 1 2) }
     s.Issues c0 i ∧ i.op.unit = .sync ∧ (s.cellOf c0).sync ≠ none ∧ (s.cellOf c0).syncQ = none) ∧
    (let i := ins .svrd 0 7 (imm := 0x05501001)
     let s := word i fun c => { c with svc := (List.range 4).map fun k => ⟨k, true, 2, 0, 0, 1, 0, 0, none, []⟩ }
     s.Issues c0 i ∧ i.op.unit = .svc ∧ (s.cellOf c0).svcQ = none ∧ 4 ≤ (s.cellOf c0).svc.length) := by decide +kernel
theorem test_hyps_unit_queue_starts :
    (∀ i ∈ [ins .ld 8 5 (fmt := 2), ins .vclr 0 7 (imm := 2)],
      let s := word i
      let c := s.cellOf c0
      let q := s.issued c0 i
      (word i fun c => { c with mem := { UnitSt.idle with queue := some q } }).cellUp c0 ∧
        (runOf i.op { s.cellEnv c0 with now := max (s.cellEnv c0).now 0 } q { c with mem := UnitSt.idle }).fault = none) ∧
    (let i := ins .azero (imm := 0xFC000001)
     let q := (word i).issued c0 i
     let s := word i fun c => { c with vec := { UnitSt.idle with queue := some q } }
     s.cellUp c0 ∧ (s.cellOf c0).vec.wait = none ∧ (s.cellOf c0).behindMma q = false ∧
       (runOf i.op (s.cellEnv c0) q ((word i).cellOf c0)).fault = none) ∧
    (let i := ins .azero (imm := 0xFC000001)
     let m := ins .mma 0 0 0 (imm := 0xFC000001)
     let q := (word i).issued c0 i
     let s := word i fun c => { c with vec := { UnitSt.idle with queue := some q }
                                       arr := { UnitSt.idle with queue := some ((word m).issued c0 m) } }
     s.cellUp c0 ∧ (s.cellOf c0).vec.wait = none ∧ (s.cellOf c0).behindMma q = true) ∧
    (let i := ins .svrd 0 7 (imm := 0x05501001)
     let q := (word i).issued c0 i
     let s := word i fun c => { c with svcQ := some q }
     s.cellUp c0 ∧ (s.cellOf c0).svc.length < 4 ∧ (runOf i.op (s.cellEnv c0) q ((word i).cellOf c0)).fault = none) ∧
    (let i := ins .send 0 0 (imm := 0x00020006)
     let q := (word i).issued c0 i
     let s := word i fun c => { c with portQ := some q }
     s.cellUp c0 ∧ (s.cellOf c0).portFree q = true ∧ (runOf i.op (s.cellEnv c0) q ((word i).cellOf c0)).fault = none) ∧
    (let i := ins .mma 0 0 0 (imm := 0)
     let q := (word i).issued c0 i
     let s := word i fun c => { c with arr := { UnitSt.idle with queue := some q } }
     let r := runOf i.op (s.cellEnv c0) q ((word i).cellOf c0)
     s.cellUp c0 ∧ (s.cellOf c0).vec.wait = none ∧ r.fault = none ∧ r.cell.vec.wait = none) := by decide +kernel

/-- Increments to 255 and past it; accesses answered and not; a report on its way. -/
theorem test_hyps_increments :
    (∀ s ∈ [cellAt fun c => { c with sems := [(0, 254)] }], s.mod.powered 0 = true ∧ (s.pol 0).cellDown c0.key = false ∧
      takeIncr false c0.key 0 1 (s.pol 0).grid.incrs = none ∧ takeIncr false c0.key 0 2 (s.pol 0).grid.incrs = none ∧
      (s.cellOf c0).sem 0 + 1 = 255) ∧
    (∀ a ∈ [none, some Status.done, some Status.refusedBusy],
      let s := cellAt fun c => { c with svc := [⟨3, false, 2, 0, 16, 1, 1, 7, a, []⟩] }
      s.mod.powered 0 = true ∧ (s.pol 0).cellDown c0.key = false ∧ (s.cellOf c0).sem 1 < 255 ∧
        ((s.cellOf c0).svc.find? fun b => b.place == 3).map (·.answer) = some a) ∧
    (let s := cellAt fun c => { c with sync := some (.amxs 5 9) }
     s.mod.powered 0 = true ∧ (s.pol 0).cellDown c0.key = false ∧ (s.pol 0).grid.hold.frozen = false ∧
       (s.cellOf c0).sync = some (.amxs 5 9) ∧ (s.cellOf c0).syncQ = none) := by decide +kernel

/-- A cell in reset; writes of RUN, STOP, the program store and the random-stream registers, with the cell running and
not. -/
theorem test_hyps_cell_control :
    (let s := cellAt id (at0 fun p => p.onWdn fun w => { w with ladders := [⟨.die 0, false, false, 0, 0, 0, 0⟩] })
     s.mod.powered 0 = true ∧ (s.pol 0).cellDown c0.key = true) ∧
    (∀ c ∈ [{ Cell.reset with run := true, st := .running }, Cell.reset],
      let s := cellAt fun _ => c
      s.AdmitsCell c0 ag ∧ (s.cellOf c0).run = c.run) ∧
    (let s := cellAt fun c => { c with startAt := some 16, st := .idle }
     s.cellUp c0 ∧ s.AdmitsCell c0 ag ∧ (s.cellOf c0).startAt = some 16 ∧ (s.cellOf c0).startIssue = false) ∧
    (∀ st ∈ [CellSt.running, .waitSem, .waitTide],
      let s := cellAt fun c => { c with st := st, sync := some (.twait 3 7) }
      s.AdmitsCell c0 ag ∧ (s.cellOf c0).startAt = none ∧ (s.cellOf c0).st = st ∧ (s.cellOf c0).syncQ = none) := by
  decide +kernel
theorem test_hyps_cell_stop (u : BitVec 16) (v : W32) :
    ((cellAt fun c => { c with sync := some (.twait 3 7) }).cellOf c0).sync ≠ some (.amxs u v) := by
  intro h; cases h
theorem test_hyps_random_stream : (∀ i : Fin 5, (cellAt id).Admits 0 (GRD + 0x100 + 4 * i.val) ag) ∧
    ((cellAt id).pol 0).anyRun = true ∧ (on.Admits 0 (GRD + 0x110) ag) ∧ (on.pol 0).anyRun = false := by
  simp only [admits_iff]; decide +kernel

/-! ## The grid -/

/-- Polder 0 in cycle 4,480 (tide 70, slot 0), with the identity 20, two memory regions open to every context, and
`f`. -/
def img0 : Image :=
  let r := fun (m : Image) (i base kind : Nat) => ((m.set 0 (SPW + 0x44) i (BitVec.ofNat 32 base)).set 0 (SPW + 0x4C) i 8).set 0
    (SPW + 0x50) i (BitVec.ofNat 32 kind)
  { r (r (Image.zero.set 0 (FLX0 + 0x40) 0 5) 0 0 1) 1 0 2 with gen := 1 }
def run0 (f : Polder → Polder := id) : State :=
  at0 (fun p => f { p with cycle := 70 * 64, field := 90 * 64 }) (atMod fun m => { m with active := img0, cfgNext := 2 })
def grid (f : Grid → Grid) : State := run0 fun p => p.onGrid f
/-- Global address of an own byte, and the polder with bytes at a place of tier 1 or 2, its 128 KiB around valid. -/
abbrev own (t o : Nat) : W64 := gaOf 20 t o
def poke (p : Polder) (t o : Nat) (bs : List Byte) : Polder :=
  { p with mem := ((List.range 8).foldl (fun m g => m.setValid t (o / 2048 + g) true) p.mem).putRaw t o (bs.map some) }
def le (n v : Nat) : List Byte := bytesOf (BitVec.ofNat 64 v) n

def beat0 : Beat := ⟨1, 2, 1, 0, 0x1234, 77⟩
theorem test_hyps_beats :
    (let s := grid fun g => { g with beats := [beat0] }
     s.cellUp c0 ∧ (takeFirst (fun b : Beat => b.cell == 1 && b.inp == 2 && b.circ == 1) (s.pol 0).grid.beats) =
       some (beat0, []) ∧ (s.pol 0).grid.selected 1 2 1 = []) ∧
    (let s := grid fun g => { g with beats := [beat0], weirs := [(weirKey 1 1 2, ⟨2, 1⟩)], slots := [(slotKey 0 1 1 13, 0xA400)] }
     let g := (s.pol 0).grid
     s.cellUp c0 ∧ g.selected 1 2 1 = [(1, 2)] ∧ g.nextSlot 0 1 1 (fun e => reserves e 2) 77 = some 77) ∧
    (∀ e ∈ [(7, 71), (10, 74)],
      let s := at0 (fun p => p.setCell 1 { Cell.reset with ports := [⟨true, 1, 0, 2, false, 71, 70, 4⟩], spad := [(0, 0), (1, 0)] })
        (grid fun g => { g with slots := [(slotKey 0 1 6 e.1, 0x9000)] })
      let g := (s.pol 0).grid
      s.cellUp c0 ∧ (takeFirst (fun o : PortOp => o.isSend && o.circ.val == 1) (s.cellOf c0).ports).isSome = true ∧
        g.nextSlot 0 1 6 (fun v => reserves v 1) 71 = some e.2 ∧
        (match sendData ⟨true, 1, 0, 2, false, 71, 70, 4⟩ (s.cellOf c0) with | .ok _ _ => true | .error _ _ => false) = true) := by
  decide +kernel

/-- Chapter 04: a token naming TIDE 3, SLOT 10 that reaches its weir in tide 0x51, slot 40, takes effect at slot 10 of
tide 0x53; one naming TIDE 1, SLOT 40 there is late. -/
theorem test_token_example :
    (match exec (.weirTokenArrival c0 1 0x328218) (grid fun g => { g with tokens := [⟨1, 5, 5, 1, 0x328218, 0x51 * 64 + 40⟩] }) with
      | .next t => (t.pol 0).grid.queue 1 1
      | _ => []) = [⟨0x328218, 0x53 * 64 + 10⟩] ∧
    (bitsN (0x1A0000 : BitVec 24) 20 4 + 16 - 0x51 % 16) % 16 = 0 ∧ bitsN (0x1A0000 : BitVec 24) 14 6 = 40 := by
  decide +kernel

/-- A token that moves on, one that reaches its weir's cell, one without a slot; SERVICE packets under way and arrived. -/
theorem test_hyps_tokens_and_packets :
    (let t : CtlToken := ⟨1, 2, 5, 1, 7, 77⟩
     let s := grid fun g => { g with tokens := [t] }
     let r := grid fun g => { g with tokens := [t], slots := [(slotKey 1 1 1 16, 0xA000)] }
     let u := grid fun g => { g with tokens := [⟨1, 2, 1, 1, 7, 77⟩], slots := [(slotKey 1 1 4 16, 0xA000)] }
     s.cellUp c0 ∧ (takeFirst (fun t : CtlToken => t.cell == 1 && t.inp == 2) (s.pol 0).grid.tokens) = some (t, []) ∧
       (s.pol 0).grid.tokenSlot 1 2 77 = none ∧ ((r.pol 0).grid.tokenSlot 1 2 77).map (·.2) = some 1 ∧
       ((u.pol 0).grid.tokenSlot 1 2 77).map (·.2) = some 4) ∧
    (let k : SvcPkt := ⟨1, 3, 1, 0, 0, .read 16 1⟩
     let s := grid fun g => { g with svc := [k, { k with cell := 3 }] }
     (s.pol 0).grid.svc[0]? = some k ∧ k.cell ≠ k.dest ∧ (s.pol 0).grid.svc[1]? = some { k with cell := 3 } ∧
       (s.pol 0).cellDown 3 = false) := by decide +kernel
/-- Arrived tokens: invalid, of a stale epoch, late by one slot, in time at d = 7 and at d = 0; one queued that is first
to take effect. -/
theorem test_hyps_weir_tokens :
    (∀ k ∈ [(0x304007, true, 0), (0x305218, false, 1)],
      tokenInvalid 1 1 (BitVec.ofNat 24 k.1) = k.2.1 ∧ bitsN (BitVec.ofNat 24 k.1) 12 2 = k.2.2) ∧
    (grid id).cellUp c0 ∧ ((grid id).pol 0).grid.epoch 1 = 0 ∧ ((grid id).pol 0).grid.queue 1 1 = [] ∧
    (∀ k ∈ [(0x328218, 71 * 64, false), (0x728218, 64 * 64, true), (0x028218, 64 * 64 + 9, true), (0x028218, 64 * 64 + 10, false)],
      let tok : BitVec 24 := BitVec.ofNat 24 k.1
      let d := (bitsN tok 20 4 + 16 - k.2.1 / 64 % 16) % 16
      tokenInvalid 1 1 tok = false ∧ (takeFirst (fun t : CtlToken => t.cell == 1 && t.inp == 5 && t.out == 1 && t.payload == tok)
        ((grid fun g => { g with tokens := [⟨1, 5, 5, 1, tok, k.2.1⟩] }).pol 0).grid.tokens).isSome = true ∧
        (1 ≤ d ∧ d ≤ 7 ∨ d = 0 ∧ k.2.1 % 64 < bitsN tok 14 6 ↔ k.2.2 = true)) ∧
    (let s := grid fun g => { g with queues := [(7, [⟨0x304218, 100⟩, ⟨0x304217, 80⟩])] }
     s.cellUp c0 ∧ ((s.pol 0).grid.queue 1 1)[1]? = some ⟨0x304217, 80⟩) := by decide +kernel

/-- HOLD: not wanted, wanted, pending, frozen and to resume. -/
theorem test_hyps_hold :
    (grid id).mod.powered 0 = true ∧ ((grid id).pol 0).grid.hold.frozen = false ∧
    (∀ k ∈ [(true, false), (false, true), (false, false)],
      let q := (grid fun g => { g with hold := { g.hold with asserted := k.2 } }).pol 0
      (q.wr (GRD + 0x0C) (setField (q.rd (GRD + 0x0C)) 0 1 (bit01 k.1))).holdWanted = k.1 ∧ q.grid.hold.asserted = k.2) ∧
    (let h := ((grid fun g => { g with hold := { g.hold with freezeAt := some 7000, src := 255, asserted := true } }).pol 0).grid.hold
     h.freezeAt = some 7000 ∧ h.frozen = false) ∧
    (let h := ((grid fun g => { g with hold := { g.hold with frozen := true, resumeAt := some 8000, began := 3000 } }).pol 0).grid.hold
     h.resumeAt = some 8000 ∧ h.frozen = true) := by decide +kernel
theorem test_hyps_hold_write : (grid id).Admits 0 (GRD + 0x0C) ag ∧ (grid id).Admits 0 (GRD + 0x4C) ag ∧
    (grid id).Admits 0 (GRD + 0x58) ag ∧ (grid id).Admits 0 (GRD + 0x84) ag ∧ (grid id).Admits 0 (GRD + 0x128) ag ∧
    ∀ n : Fin 4, ∀ d : Bool, (grid id).Admits 0 (GRD + 0x148 + 8 * n.val + 4 * bit01 d) ag := by
  simp only [admits_iff]; decide +kernel

/-- A reconfiguration of a two by two rectangle: busy, open, malformed, waiting over, drained, not drained. -/
def recfg (r : Recfg) (f : Polder → Polder := id) : State :=
  run0 fun p => f ((p.wr (GRD + 0x48) 0x01000100).onGrid fun g => { g with recfg := { r with rect := 0x01000100 } })
theorem test_hyps_reconfiguration :
    ((recfg Recfg.reset).pol 0).grid.recfg.busy = false ∧ Rect.malformed (((recfg Recfg.reset).pol 0).rd (GRD + 0x48)) = false ∧
    Rect.malformed (0x00010000 : W32) = true ∧
    (let s := recfg { Recfg.reset with busy := true, waiting := true }
     s.live 0 5 = true ∧ (s.pol 0).issueAhead 0x01000100 = false ∧ (s.pol 0).grid.hold.frozen = false) ∧
    (let q := (recfg { Recfg.reset with busy := true, started := 66 }).pol 0
     q.tide = q.grid.recfg.started + 4 ∧ q.drained 0x01000100 = true ∧ q.grid.recfg.waiting = false) ∧
    (let q := (recfg { Recfg.reset with busy := true, started := 70 } fun p => p.setCell 1 { Cell.reset with run := true, st := .running }).pol 0
     q.drained 0x01000100 = false ∧ q.grid.hold.frozen = false) := by decide +kernel
/-- Slot-table writes: no open rectangle, a cell in it, and a slot too near another across a seam (column 79, output 1). -/
theorem test_hyps_slot_table :
    (let q := (recfg { Recfg.reset with opened := true } fun p => p.wr (GRD + 0x54) 0x10100).pol 0
     let sel := q.sel (GRD + 0x54) ag
     sel / 256 % 256 = 1 ∧ Rect.hasKey q.grid.recfg.rect (sel % 256 * 160 + sel / 256 % 256) = true ∧
       tableExists 0 1 (sel / 2 ^ 16 % 8) = true ∧ q.grid.breaksSpacing 1 1 0 0x8000 = false) ∧
    (let q := (run0 fun p => (p.wr (GRD + 0x54) 0x314F00).onGrid fun g => { g with
        slots := [(slotKey 0 79 1 0, 0x8000)]
        recfg := { g.recfg with opened := true, rect := 0x00004F4F } }).pol 0
     let sel := q.sel (GRD + 0x54) ag
     sel / 2 ^ 19 % 2 = 0 ∧ sel / 2 ^ 16 % 8 = 1 ∧ sel / 2 ^ 20 % 64 = 3 ∧ crossesSeam (sel % 256 * 160 + sel / 256 % 256) 1 = true ∧
       (q.grid.slotAt 0 79 1 0).getLsbD 15 = true) := by decide +kernel
theorem test_hyps_spacing_holds (k o i : Nat) : ((run0.pol 0).grid.slotAt 0 k o i).getLsbD 15 = false := by
  have h : (run0.pol 0).grid.slots = [] := by decide +kernel
  rw [Grid.slotAt, h]; simp [SMap.get, SMap.find?]

/-! ## Issues and the pipeline -/

def rect4 : W32 := 0x01000100
/-- An issue record: two by two cells, extents 16, 8 and 8, one of them dynamic, variant table at tier 1. -/
def recw (start : W32 := 0) (order : W32 := 0x12060601) (mode : W32 := 0x105) : List W32 :=
  [rect4, order, mode, start, 0x10000, bits (own 1 0x10000) 32 32, 0x00080010, 8, 0x04000000, 1, 0x04004000, 1, 0x04008000,
   0x11, 0, 0]
def hdr : List Byte := le 2 8 ++ le 2 16 ++ List.replicate 44 0 ++ le 1 2 ++ List.replicate 15 0
def ent (v m : Nat) : List Byte := le 2 v ++ le 2 m ++ le 2 8 ++ le 2 8 ++ [1, 1, 1, 1, 1, 1, 0, 0]
def tab (p : Polder) (e : List Byte) : Polder := poke p 1 0x10000 (hdr ++ ent 0 8 ++ e)
def iss (ph : IssuePhase) (w := recw) (t : Nat := 80) (f : Option Status := none) : Issue :=
  ⟨w, .reg 7, ph, 1, 5, false, 4400, t, f⟩
def withIss (l : List Issue) (f : Polder → Polder := id) : State := run0 fun p => f (p.onGrid fun g => { g with issues := l })
def cellsAll (st : CellSt) (p : Polder) : Polder :=
  (Rect.keys rect4).foldl (fun p k => p.setCell k { Cell.reset with st := st, run := st != .halted }) p
def wrec (p : Polder) (l : List W32) : Polder := (List.range 16).foldl (fun p k => p.wr (GRD + 0xC0 + 4 * k) (recWord l k)) p

theorem test_hyps_issue_go :
    run0.Admits 0 (GRD + 0x84) ag ∧ (run0.pol 0).issueBusy = false ∧ (run0.pol 0).grid.issues = [] ∧ run0.mod.commit = none ∧
    (let q := (run0 fun p => wrec p recw).pol 0
     recordOk q.issueRec = true ∧ q.plotState rect4 = none) ∧
    recordOk ((run0 fun p => wrec p (recw (order := 0xFFFFFFFF))).pol 0).issueRec = false ∧
    ((withIss [iss .waiting]).pol 0).issueBusy = true := by
  simp only [admits_iff]; decide +kernel
/-- The variant of bucket 1 of N: entries that exist and do not, and a demand beyond 64 tiles. -/
def reads4 (s : State) (i : Issue) (b0 b1 b2 : Nat) (P : MemRes → MemRes → Bool) : Bool :=
  let q := s.pol 0
  let vtab : W64 := recWord i.words 5 ++ recWord i.words 4
  let h := q.memRead (s.ctxOf 0) (blockBy i.origin.ctx) (gaTier vtab) (gaOff vtab) 64
  let bk := ((List.range 3).map (buckets h.data (bitsN (recWord i.words 2) 8 2)))
  let l := bk.map (·.getD [])
  let e := h.p.memRead (s.ctxOf 0) (blockBy i.origin.ctx) (gaTier vtab) (gaOff vtab + 64 + 16 * (b0 + 8 * b1 + 64 * b2)) 16
  decide (s.live 0 5 = true ∧ q.grid.issues = [i] ∧ vtab.toNat % 64 = 0 ∧ gaTier vtab = 1 ∧ (s.ctxOf 0).isOwn q vtab = true ∧
    h.st = Status.done ∧ bk = l.map some ∧ (h.data.drop 51).all (· == 0) = true ∧ bucketIdx i.words l 0 = some b0 ∧
    bucketIdx i.words l 1 = some b1 ∧ bucketIdx i.words l 2 = some b2 ∧ e.st = Status.done ∧ e.p.grid.issues = [i]) && P h e
def big4 : Issue := iss .reading (recw (mode := 0x0008FD05))
theorem test_hyps_variant :
    reads4 (withIss [iss .reading] fun p => tab p (ent 0x5 16)) (iss .reading) 1 0 0
      (fun _ e => decide (((e.data[1]?).getD 0).toNat < 128)) = true ∧
    reads4 (withIss [iss .reading] fun p => tab p (ent 0x8005 16)) (iss .reading) 1 0 0
      (fun _ e => decide (128 ≤ ((e.data[1]?).getD 0).toNat) && (variantOf recw e.data).any fun v =>
        decide (accDemand recw v ≤ 64) && (regionFail recw v).isNone) = true ∧
    recWord recw 3 = 0 ∧ (iss .reading).rect.malformed = false ∧
    reads4 (withIss [big4] fun p => tab p (ent 0x8005 16)) big4 1 0 0
      (fun _ e => (variantOf big4.words e.data).any fun v => decide (64 < accDemand big4.words v)) = true := by
  decide +kernel
theorem test_hyps_plot :
    (let s := withIss [iss .pending (recw 80)]
     let q := s.pol 0
     s.live 0 5 = true ∧ q.grid.issues[0]? = some (iss .pending (recw 80)) ∧ q.grid.hold.frozen = false ∧ q.mayStart = true ∧
       q.scalesBusy = false ∧ q.faultedEngine (iss .pending).rect = none ∧ recWord (recw 80) 3 ≠ 0 ∧ q.cycle ≤ 64 * 80) ∧
    ((withIss [iss .pending (recw 80)] fun p => { p with wdn := { p.wdn with st := .ready } }).pol 0).mayStart = false ∧
    (let s := withIss [iss .running] (cellsAll .halted)
     let q := s.pol 0
     s.live 0 5 = true ∧ q.grid.issues[0]? = some (iss .running) ∧
       (∀ e ∈ q.grid.cells, Rect.hasKey rect4 e.1 = true → e.2.st ≠ .faulted) ∧ (∀ k ∈ Rect.keys rect4, (q.cell k).st = .halted)) ∧
    (iss .pending).variant < 65536 := by decide +kernel

def rcd (policy : Nat) : StashRec := ⟨3, policy, false, 0x8000, 0x9000, 2, 4⟩
def stg (i : Nat) (r : Rect) : Stage := ⟨recw, r, 5, false, 16, 0x20000, 100, i, [rcd 1, rcd 0]⟩
def pipe0 (ph : PipePhase) (pass : Nat := 0) (fail : Option Status := none) : PipeRun :=
  { origin := .reg 7, phase := ph, table := own 1 0x30000, fused := true, m := 8, period := 256, gateMask := 3, handSeq := 1
    leads := [5, 0, 0, 0], stages := [stg 0 rect4, stg 2 0x03020100], t0 := 160, pass := pass, entries := [], switched := []
    fail := fail }
def rawStage (r : W32) (first : Nat) : List Byte :=
  (recw.set 0 r).flatMap (fun w => bytesOf w 4) ++ le 8 0 ++ le 4 0 ++ le 2 first ++ le 1 1 ++ List.replicate 49 0
def rawRec (policy : Nat) : List Byte := le 2 3 ++ le 1 policy ++ [0] ++ List.replicate 28 0
def ptab (flag : Nat := 0) : List Byte :=
  le 1 1 ++ le 1 1 ++ le 2 8 ++ le 4 256 ++ le 2 2 ++ le 1 3 ++ le 1 flag ++ le 4 1 ++ le 16 5 ++ List.replicate 32 0 ++
    rawStage rect4 0 ++ rawRec 2
def piped (r : Option PipeRun) (f : Polder → Polder := id) (flag : Nat := 0) : State :=
  run0 fun p => { f (tab (poke (((p.onGrid fun g => { g with pipe := r }).wr (GRD + 0x120) 0x30000).wr (GRD + 0x124)
    (bits (own 1 0) 32 32)) 1 0x30000 (ptab flag)) (ent 0x8005 16)) with effLo := [(GRD + 0x120, 0x30000)] }

theorem test_hyps_pipe_go :
    run0.Admits 0 (GRD + 0x128) ag ∧ ((piped (some (pipe0 .running))).pol 0).pipeBusy = true ∧
    (∀ n : Fin 4, ∀ b : Bool, run0.Admits 0 (GRD + 0x148 + 8 * n.val + 4 * bit01 b) ag) ∧
    (let s := piped none
     let q := s.pol 0
     let tab := q.pair (GRD + 0x120)
     let x := (s.noted ag).ctxOf 0
     q.pipeBusy = false ∧ s.mod.commit = none ∧ q.grid.pipe = none ∧ tab.toNat % 64 = 0 ∧ gaTier tab = 1 ∧
       x.isOwn q tab = true ∧ (q.memRead x (blockBy 7) (gaTier tab) (gaOff tab) 64).st = Status.done) ∧
    (let q := (piped (some (pipe0 .pending))).pol 0
     q.grid.pipe ≠ none) := by
  simp only [admits_iff]; decide +kernel
theorem test_hyps_pipe_gate :
    (let r := pipe0 .gate
     let q := (piped (some r) fun p => (p.wr (GRD + 0x148) 2).wr (GRD + 0x150) 2).pol 0
     ∀ n < 4, r.gateMask.getLsbD n = true → handMeets (q.handSeq n) (q.handDone n) r.handSeq ((r.leads[n]?).getD 0) = true) ∧
    (let r := pipe0 .gate
     let q := (piped (some r)).pol 0
     ∃ n < 4, r.gateMask.getLsbD n = true ∧ handMeets (q.handSeq n) (q.handDone n) r.handSeq ((r.leads[n]?).getD 0) = false) ∧
    run0.live 0 5 = true := by decide +kernel
theorem test_hyps_pipe_table :
    (let s := piped (some (pipe0 .reading)) (flag := 1)
     let o := (s.pol 0).readTable (s.ctxOf 0) (pipe0 .reading)
     o.2.1 = Status.done ∧ o.2.2.headerOk = false) ∧
    (let s := piped (some (pipe0 .reading))
     let o := (s.pol 0).readTable (s.ctxOf 0) (pipe0 .reading)
     let t := o.2.2
     o.2.1 = Status.done ∧ t.headerOk = true ∧ (∀ j < t.stages.length, t.stageOk o.1 (s.ctxOf 0) j = true) ∧
       (∀ e ∈ t.recs, e.ok = true) ∧
       (match (Polder.checkStages (s.ctxOf 0) 7 t t.stages.length t.stages.length o.1 []).2 with
        | .ok l => l.length == 1
        | .error _ => false) = true) := by decide +kernel
def s5 : State := piped (some (pipe0 .running)) fun p =>
  [2, 3, 162, 163].foldl (fun p k => p.setCell k { Cell.reset with st := .halted }) (cellsAll .halted p)
theorem test_hyps_pipe_passes :
    (let q := (piped (some (pipe0 .pending))).pol 0
     q.grid.hold.frozen = false ∧ q.mayStart = true ∧ q.scalesBusy = false ∧
       (∀ st ∈ (pipe0 .pending).stages, q.faultedEngine st.rect = none)) ∧
    (pipe0 .running).pass + 1 < (pipe0 .running).total ∧
    (let r := pipe0 .running 3
     r.stages[0]? = some (stg 0 rect4) ∧ (stg 0 rect4).recs[0]? = some (rcd 1) ∧ r.fwd 0 (r.pass - 1) = some 2 ∧ r.entries = []) ∧
    (pipe0 .running 0 (some 9)).fail = some 9 ∧
    (∀ st ∈ (pipe0 .running).stages, (s5.pol 0).plotCode st.rect none = some Status.done) := by decide +kernel

/-! ## Engines -/

/-- Descriptor words: type, address, bytes a row, rows, further bits. -/
def db (ty addr len rows : Nat) (extra : Nat := 0) : BitVec 512 :=
  BitVec.ofNat 512 (ty + addr * 2 ^ 64 + len * 2 ^ 128 + rows * 2 ^ 160 + (if ty = 15 then 0 else 0xFFFF * 2 ^ 256) + extra)
def mkD (n : Nat) (b : BitVec 512) (pos : DescPos := .queued) (landed : Nat := 0) : Desc :=
  { num := n, index := BitVec.ofNat 32 n, bits := b, pos := pos, ctx := 7, asked := landed, landed := landed, sent0 := 0
    sent1 := 0, done := 0, pend := 0, waited := false, signalled := false, epoch := 0, pin := none, walked := false, since := 0 }
/-- Polder 0 with the access tables of die 0 written, an engine, and `f`. -/
def accs (p : Polder) : Polder :=
  (List.range 2).foldl (fun p c => (List.range 4).foldl (fun p k => p.wr (HBC c + 0x44) 0xFC00 (1 + k)) p) p
def es (e : EngId) (v : Eng) (f : Polder → Polder := id) : State := run0 fun p => f ((accs p).setEng e.key v)
def ring (p : Polder) (e : EngId) (bs : List Byte := []) : Polder :=
  poke ((((p.wr (ENGP e.key + 0x40) 0x8000).wr (ENGP e.key + 0x44) (bits (own 1 0x8000) 32 32)).wr (ENGP e.key + 0x48) 8).wr
    (ENGP e.key + 0x50) 3) 1 0x8000 bs
def ei : EngId := ⟨0, 0, false, 1⟩
def eo : EngId := ⟨0, 0, true, 1⟩
def adr : Nat := (own 1 0x20000).toNat
def far : Nat := (gaOf 99 1 0x20000).toNat
def arm : Eng := { Eng.reset with st := .armed, ctx := 7 }
def eRun (f : Eng → Eng := id) : Eng := f { Eng.reset with st := .running, ctx := 7, base := some 60 }

theorem test_hyps_engine_arm :
    (es ei Eng.reset).Admits 0 (ENGP ei.key + 0x50) ag ∧ (es ei Eng.reset).Admits 0 (ENGP ei.key + 0x0C) ag ∧
    (let p := (es ei Eng.reset).pol 0
     (p.eng ei.key).st = .idle ∧ p.accessOk (ei.key / 16) = true ∧ p.probedEngine ei.key = false) ∧
    (run0.pol 0).accessOk (ei.key / 16) = false ∧ (es ei arm).engUp ei ∧
    (∀ die : Fin 4, ∀ ctrl : Fin 2, run0.Admits 0 (HBC (2 * die.val + ctrl.val) + 0x44) ag) ∧
    ((∀ k < 16, ((run0.pol 0).eng k).st = .idle) ∧ (∃ k < 16, (((es ei arm).pol 0).eng k).st ≠ .idle)) := by
  simp only [admits_iff]; decide +kernel
theorem test_hyps_engine_fetch :
    (let s := es ei arm fun p => ring p ei
     let p := s.pol 0
     let v := p.eng ei.key
     let n := min 8 (min (p.rd (ENGP ei.key + 0x50) - v.head).toNat (256 - v.descs.length))
     v.works = true ∧ v.burst = none ∧ v.reqs.length < 64 ∧ n = 3 ∧
       (∀ k < n, p.ringOk (s.ctxOf 0) ei.key (v.head + BitVec.ofNat 32 k) = true)) ∧
    (let s := es ei arm fun p => (ring p ei).wr (ENGP ei.key + 0x44) 0
     ∃ k < 3, (s.pol 0).ringOk (s.ctxOf 0) ei.key (BitVec.ofNat 32 k) = false) ∧
    ({ eRun with burst := some (0, 2), ending := true }.works = false) ∧
    ({ eRun with stopping := true }.quiet = true) ∧
    ({ eRun with ending := true }.quiet = true ∧ { eRun with ending := true }.buf = []) := by decide +kernel
theorem test_hyps_engine_take :
    (∀ n < 4,
      let b := [(db 1 adr 512 1, true), (db 1 adr 500 1, false), (db 15 64 3 1, true)].getD n (db 0 0 0 0, true)
      let s := es ei { arm with past := [(0, db 1 adr 512 1)], descs := [mkD 1 b.1] }
      let v := (s.pol 0).eng ei.key
      v.works = true ∧ v.rep = none ∧ v.descs.find? (fun d => d.pos = .queued) = some (mkD 1 b.1) ∧
        (∀ c ∈ v.descs, c.pos = .queued ∨ c.type = 0 ∨ c.asked = c.total) ∧
        (mkD 1 b.1).ok ((s.ctxOf 0).isOwn (s.pol 0) (mkD 1 b.1).addr) false = b.2) ∧
    (mkD 1 (db 15 64 3 1)).type = 15 ∧ (mkD 1 (db 1 adr 512 1)).type = 1 ∧ (mkD 1 (db 1 adr 512 1)).conv = 0 ∧
    takeIncr true ei.key 3 5 (run0.pol 0).grid.incrs = none ∧ Eng.reset.sem 3 + 5 ≤ 255 ∧
      255 < (Eng.reset.setSem 3 254).sem 3 + 5 := by decide +kernel

def rq (t : Nat) (a : W64) (ans : Option ReadReply := none) (retry := false) : EngReq :=
  ⟨0, 0, 512, t, a, 512, retry, false, if t = 4 then some 9 else none, ans⟩
def rr (st : Status) (n : Nat) : ReadReply := ⟨st, false, List.replicate n 3⟩
def fd (b := db 1 adr 512 1) : Desc := mkD 0 b .fetching
def piped6 (p : Polder) : Polder := p.onGrid fun g => { g with pipe := some { pipe0 .running with stages := [] } }
theorem test_hyps_intake_requests :
    (let s := es ei (eRun fun v => { v with descs := [fd (db 1 adr 512 1 (2 ^ 274))] })
     (s.pol 0).handOpen (fd (db 1 adr 512 1 (2 ^ 274))) = true ∧ (fd (db 1 adr 512 1 (2 ^ 274))).handEn = true) ∧
    (let s := es ei (eRun fun v => { v with descs := [fd (db 1 adr 512 1 (2 ^ 274))] }) piped6
     let v := (s.pol 0).eng ei.key
     s.engUp ei ∧ v.works = true ∧ v.fetching = some (fd (db 1 adr 512 1 (2 ^ 274))) ∧
       (fd (db 1 adr 512 1 (2 ^ 274))).asked = 0 ∧ (s.pol 0).handOpen (fd (db 1 adr 512 1 (2 ^ 274))) = false) ∧
    (∀ r ∈ [rq 1 0x20000, rq 4 (gaOf 99 1 0x20000) (some (rr Status.done 512)), rq 4 (gaOf 99 1 0x20000) (some (rr Status.refusedBusy 0))],
      let v := eRun fun v => { v with descs := [fd (db 1 far 512 1)], reqs := [r] }
      v.works = true ∧ v.probing = false ∧ v.reqs[0]? = some r ∧ r.retry = false ∧
        v.descs.find? (fun d => d.num == r.desc) = some (fd (db 1 far 512 1)) ∧ r.len = r.out ∧ (fd (db 1 far 512 1)).conv = 0) ∧
    (rr Status.done 512).data.length = 512 ∧
    { (eRun fun v => { v with stopping := true }) with reqs := [rq 1 0x20000] }.works = false ∧
    (let r := rq 4 (gaOf 99 1 0x20000) none true
     let s := es ei (eRun fun v => { v with descs := [fd (db 1 far 512 1)], reqs := [r] })
     (match ((s.pol 0).sendReq (s.ctxOf 0) ei.key { r with retry := false } (.fabric r.addr)).2 with
       | .ok _ => true
       | .error _ => false) = true) := by decide +kernel
def inj (p : Polder) : Polder := (List.range 32).foldl (fun p k => p.wr (ENGP 1 + 0x100 + 4 * k) 0x80018001) p
def ready6 (d : Desc) (f : Eng → Eng := id) : State :=
  es ei (eRun fun v => f { v with descs := [d], buf := [⟨0, 0, List.replicate 512 7⟩] }) inj
theorem test_hyps_intake_streams :
    (let s := ready6 (mkD 0 (db 1 adr 512 1) .fetching 512)
     let v := (s.pol 0).eng ei.key
     v.runs = true ∧ (s.pol 0).grid.hold.frozen = false ∧ v.outHold = false ∧ (s.pol 0).missing ei.key = false ∧ v.holdReq = false) ∧
    (eRun fun v => { v with outHold := true }).outHold = true ∧
    (let d := { mkD 0 (db 1 adr 512 1) .executing 512 with sent0 := 16 }
     let v := eRun fun v => { v with descs := [d] }
     v.stopping = false ∧ v.descs.find? (v.retirable false) = some d) ∧
    (let s := es ei (eRun fun v => { v with descs := [fd] }) fun p => p.wr (HBC 0 + 0x44) 0x8400 (1 + p.field % 64)
     let p := s.pol 0
     s.live 0 0 = true ∧ p.grantOf 0 = some 1 ∧ (match p.nextSource (s.ctxOf 0) fd with
       | (.own 1 o, _) => o / 2 ^ 36 == 0
       | _ => false) = true ∧ p.handOpen fd = true) := by decide +kernel
theorem test_hyps_intake_beats :
    ∀ c ∈ [(true, 0, 99999), (false, 30, 0)],
      let d := { mkD 0 (db 1 adr 512 1 (2 ^ 32 * c.2.1)) .fetching 512 with since := c.2.2 }
      let p := (ready6 d).pol 0
      let v := p.eng ei.key
      v.descs.find? (fun (d : Desc) => d.pos ≠ .queued && d.type != 0 &&
        d.emissions.any fun m => m.1 == d.circ && m.2.2 < d.beats) = some d ∧ d.sent0 < d.beats ∧ (v.beat d false 0).isSome = true ∧
        (p.dueOf ei.key v d d.circ 0).any (fun due => if c.1 then (v.firstBeat d d.circ due).isNone
          else decide (d.waitEn = false ∧ d.since ≤ due ∧ SMap.get (fun _ => 0) v.last d.circ ≤ due)) = true := by decide +kernel

def od (b := db 8 adr 512 1) (landed : Nat := 0) : Desc := mkD 0 b .executing landed
def chunks (l : Nat) : List Chunk := (List.range (l / 32)).map fun k => ⟨0, 32 * k, List.replicate 32 9⟩
def tx (ans : Option (Status × Bool)) (retry := false) (slot : Option Nat := some 0) : EngTxn :=
  ⟨3, 0, outTxn (od (db 9 far 512 1)) (gaOf 99 1 0x20000) 7 [1, 2], slot, retry, ans⟩
def edge0 (p : Polder) : Polder := p.onGrid fun g => { g with edge := [⟨eo.key, 0, 5⟩] }
theorem test_hyps_outfall_beats :
    (let s := es eo (eRun id) edge0
     s.engUp eo ∧ eo.out = true ∧ takeFirst (fun b : EdgeBeat => b.eng == eo.key) (s.pol 0).grid.edge = some (⟨eo.key, 0, 5⟩, []) ∧
       (eRun id).runs = true ∧ (eRun id).descs = []) ∧
    (∀ d ∈ [od (landed := 32)], d.pos = .executing ∧ d.type ≠ 0 ∧ d.circ = 0 ∧ d.landed < d.total ∧ d.landed ≠ 0) ∧
    (let d := od (db 8 adr 512 1 (32 + 2 ^ 356 * 4 + 2 ^ 352 * 3)) 512
     d.waitEn = true ∧ d.waited = false ∧ d.waitN ≤ (eRun fun v => { v with sems := [(3, 9)] }).sem d.waitSem) := by
  decide +kernel
theorem test_hyps_outfall_pieces :
    (let s := es eo (eRun fun v => { v with descs := [od (landed := 512)], buf := chunks 512 })
     (match (s.pol 0).nextPiece (s.ctxOf 0) eo.key (fun d => d.type != 0x9) with
       | some (_, .own t _, _) => t == 1
       | _ => false) = true) ∧
    (let s := es eo (eRun fun v => { v with descs := [od (db 9 far 512 1) 512], buf := chunks 512 })
     (match (s.pol 0).nextPiece (s.ctxOf 0) eo.key (fun d => d.type == 0x9) with
       | some (d, .fabric _, _) => !d.sigEn && !d.map
       | _ => false) = true) ∧
    (∀ a ∈ [(Status.done, false), (Status.refusedBusy, false), (Status.windowClosed, false)],
      takeFirst (fun (q : EngTxn) => q.tag == 3 && !q.retry && q.answer == some a) [tx (some a)] = some (tx (some a), []) ∧
        (tx (some a)).slot ≠ none) ∧
    takeFirst (fun (q : EngTxn) => q.tag == 3 && q.retry) [tx none true] = some (tx none true, []) ∧
    takeFirst (fun (q : EngTxn) => q.tag == 3 && q.retry) [tx none true none] = some (tx none true none, []) ∧
    (tx none true none).slot = none := by decide +kernel

/-! ## The cache manager, ranges and the server's window -/

/-- A region-table entry: index, base, size, kind word. -/
def reg (m : Image) (i base kind : Nat) : Image :=
  (((m.set 0 (SPW + 0x44) i (BitVec.ofNat 32 base)).set 0 (SPW + 0x4C) i 8).set 0 (SPW + 0x50) i (BitVec.ofNat 32 kind)).set 0
    (SPW + 0x54) i 0xFFFF
/-- Regions of tiers 1 and 2 (plain, then pools of pages, then a bitmap region and a spill region), and quotas of context 7. -/
def img8 : Image :=
  let m := reg (reg (reg (reg (reg (reg (Image.zero.set 0 (FLX0 + 0x40) 0 5) 0 0 1) 1 0 2) 2 0x1000000 0x101) 3 0x1000000 0x202) 4
    0x2000000 0x10001) 5 0x2000000 0x102
  let n := (List.range 16).foldl (fun m s => m.set 0 (SPW + 0x68) s (if s = 0 then 7 else 0xFFFF)) m
  { (List.range 3).foldl (fun m t => (m.set 0 (SPW + 0x70) (quotaIdx 0 (t + 1)) 0x1000).set 0 (SPW + 0x6C) (quotaIdx 0 (t + 1)) 0x800)
      (n.set 0 (GAU + 0x40) 0 0x10) with gen := 1 }
def ks (f : Polder → Polder := id) : State :=
  at0 (fun p => f { p with cycle := 70 * 64, field := 90 * 64 }) (atMod fun m => { m with active := img8, cfgNext := 2 })
/-- An edit: operation, log of the page size, tier, head, source head of a FORK, offset, count. -/
def ed (op : Nat) (logSz : Nat := 0) (tier : Nat := 0) (seq : Nat := 0x40) (src : Nat := 0) (off : Nat := 0) (count : Nat := 0) : KvEdit :=
  let a := own 1 seq
  let b : W64 := if op = 3 then own 1 src else 0
  ⟨[BitVec.ofNat 32 (op + 256 * logSz + 2 ^ 13 * tier), a.setWidth 32, bits a 32 32, b.setWidth 32, bits b 32 32, BitVec.ofNat 32 off,
    0, BitVec.ofNat 32 count], .reg 7⟩
def ks1 (e : KvEdit) (f : Polder → Polder := id) : State :=
  ks fun p => f ((p.wr (SPWKV + 0x74) 0x100).onMem fun m => { m with edits := [e] })
def pte (i : Nat) (t : Nat := 1) : Pte := ⟨own t (0x1000000 + 4096 * i), 12, false, t != 1, false, i⟩
def ref (i : Nat) (t : Nat := 1) : Nat × KvRef := (i, ⟨1, 5, t, 0x1000000 + 4096 * i, 4096, 7⟩)
/-- A live head at 0x40 with an image of two pages, the second in tier `t`. -/
def headed (t : Nat := 1) (p : Polder) : Polder := p.onMem fun m => { m with
  heads := [(0x40, ⟨0x5000, 3, .live, 7⟩)], images := [⟨0x5000, 0x40, 3, 0, [pte 0, pte 1 t], 0, true⟩], refs := [ref 0, ref 1 t]
  allocs := [⟨1, 0x1000000, 4096, 7⟩, ⟨t, 0x1000000 + 4096, 4096, 7⟩] }
/-- The edit at the head of the queue has a well-formed record and a head; how its operation ends. -/
def edits8 (s : State) (e : KvEdit) (op : Nat) (f : EditCtx → Polder → KvTry Polder) (ok : Bool) : Bool :=
  let q := s.pol 0
  let r := editRec e.words
  (match q.headAt (s.ctxOf 0) r.seq with
    | .ok k => (q.editWaits r k).isEmpty && (match f ⟨s.ctxOf 0, r, 7, k⟩ q with | .ok _ => ok | .error _ => !ok)
    | .error _ => false) && decide (s.live 0 4 = true ∧ q.mem.edits = [e] ∧ r.ok = true ∧ r.op = op)

theorem test_hyps_edits :
    edits8 (ks1 (ed 1 (count := 4))) (ed 1 (count := 4)) 1 editCreate true = true ∧
    edits8 (ks1 (ed 1 (count := 3)) headed) (ed 1 (count := 3)) 1 editCreate false = true ∧
    edits8 (ks1 (ed 2 12 1) headed) (ed 2 12 1) 2 editAppend true = true ∧
    edits8 (ks1 (ed 3 (seq := 0x80) (src := 0x40) (off := 4096)) headed) (ed 3 (seq := 0x80) (src := 0x40) (off := 4096)) 3 editFork
      true = true ∧
    edits8 (ks1 (ed 4 (count := 2)) headed) (ed 4 (count := 2)) 4 editPrepare true = true ∧
    edits8 (ks1 (ed 5 (off := 4096)) headed) (ed 5 (off := 4096)) 5 editTruncate true = true ∧
    edits8 (ks1 (ed 6) headed) (ed 6) 6 editDestroy true = true ∧
    edits8 (ks1 (ed 7 (count := 2)) (headed 2)) (ed 7 (count := 2)) 7 editPrefetch true = true ∧
    edits8 (ks1 (ed 8 (count := 2)) headed) (ed 8 (count := 2)) 8 editResident true = true := by decide +kernel
def spilled (p : Polder) : Polder := (headed 3 p).onMem fun m => { m with
  images := [⟨0x5000, 0x40, 3, 0, [pte 0, { pte 1 3 with shared := true }], 0, true⟩] }
theorem test_hyps_edit_waits : ∀ e ∈ [ed 4 (count := 2), ed 7 (count := 2), ed 8 0 4 (count := 2)],
    (match ((ks1 e spilled).pol 0).headAt (ks.ctxOf 0) (editRec e.words).seq with
      | .ok k => decide (((ks1 e spilled).pol 0).editWaits (editRec e.words) k = [1])
      | .error _ => false) = true := by decide +kernel
theorem test_hyps_pins :
    (let s := ks fun p => (headed 1 p).setEng 1 { Eng.reset with st := .running, descs :=
        [{ mkD 0 (db 3 adr 512 1) .fetching with pin := some 0x5000, walked := true }] }
     (s.pol 0).mem.images.length = 1 ∧ ((s.pol 0).landedWalk 0x5000).isSome = true) ∧
    (∀ t ∈ [2, 3],
      let s := ks fun p => (headed t p).onMem fun m => { m with prefetch := [⟨0x40, [1]⟩] }
      (s.pol 0).mem.awaited [1] = if t = 3 then [1] else []) ∧
    (match ((ks (headed 2)).pol 0).bringBack (ks.ctxOf 0) 1 with | .ok _ => true | .error _ => false) = true ∧
    (let s := ks fun p => (headed 1 p).onMem fun m => { m with tier3 := [⟨0, 3, .page 0, false, [], [], 0⟩] }
     (PcieOutcome.ok [1, 2, 3]).wf = true ∧ (s.pol 0).mem.tier3.length = 1) ∧ ks.mod.powered 0 = true := by decide +kernel
/-- A range of tier `t`. -/
def rg (t o n : Nat) (p : Polder) : Polder :=
  { ((p.wr (SPW + 0x8C) (BitVec.ofNat 32 o)).wr (SPW + 0x90) (bits (own t o) 32 32)).wr (SPW + 0x94) (BitVec.ofNat 32 n) with
    effLo := [(SPW + 0x8C, BitVec.ofNat 32 o)] }
theorem test_hyps_range :
    ks.Admits 0 (SPW + 0x98) ag ∧ (ks.pol 0).rangeBusy = false ∧ ks.mod.commit = none ∧
    (let v := fun (s : State) (op : Nat) => ((s.pol 0).wr (SPW + 0x98) (fld 2 op)).rangeRegion ((s.noted ag).ctxOf 0) op
     (v ks 0).isNone = true ∧ (v (ks (rg 1 0x2000000 0x400)) 0).any (·.tier == 1) = true ∧
     (v (ks (rg 2 0x1000000 0x800)) 1).isSome = true ∧ (v (ks (rg 2 0x1000000 0x800)) 2).isSome = true) ∧
    (let r : RangeOp := ⟨0, 1, 0x2000000, 0x2000, 0⟩
     let s := ks fun p => p.onMem fun m => { m with range := some r }
     (s.pol 0).rangeBusy = true ∧ (s.pol 0).mem.copied r = true) ∧
    (let r : RangeOp := ⟨1, 3, 0x1000000, 0x2000, 0⟩
     let s := ks fun p => p.onMem fun m => { m with range := some r, frames := [⟨3, 8, 0x1200000, .filling, [1], 5, 7, 0, []⟩] }
     (s.pol 0).mem.copied r = false) := by
  simp only [admits_iff]; decide +kernel
theorem test_hyps_window :
    (Access.read 64).wf = true ∧ (Access.write [some 1, none, some 3]).wf = true ∧
    ks.mod.denied .keeperAgent .memory false = false ∧ ks.mod.denied .keeperAgent .memory true = false ∧
    ks.mod.serverShut .keeperAgent = false ∧ ks.live 0 4 = true ∧ (atMod fun m => { m with rails := [] }).live 0 4 = false ∧
    (∀ b : Bool, (atMod fun m => { m with sensed := { m.sensed with protMap := BitVec.allOnes _ } }).mod.denied .keeperAgent .memory b =
      true) ∧ Mem.reset.wf = true := by decide +kernel

/-! ## Pumps and updates -/

def g1 (o : Nat) : List Byte := bytesOf (own 1 o) 8
/-- An update table of one shard in one chunk, with its hyperparameters. -/
def updHead : List Byte :=
  le 4 1 ++ le 1 1 ++ le 1 4 ++ le 1 1 ++ le 1 0 ++ le 4 9 ++ le 4 2 ++ le 4 1 ++ le 4 0x3F800000 ++ g1 0x100000 ++ le 4 2 ++ le 4 2 ++
    g1 0x110000 ++ g1 0x120000 ++ g1 0x120040 ++ g1 0x120080 ++ g1 0x130000 ++ g1 0x130040 ++ le 4 1 ++ le 4 1 ++ g1 0x130080 ++
    le 8 0 ++ le 4 0 ++ le 2 7 ++ List.replicate 10 0
def updHyper : List Byte := le 4 0x3A83126F ++ le 4 0x3F666666 ++ le 4 0x3F7FBE77 ++ le 4 0x322BCC77 ++ List.replicate 16 0
def shard (i : Nat) : List Byte :=
  g1 (0x200000 + 0x10000 * i) ++ g1 (0x201000 + 0x10000 * i) ++ g1 (0x202000 + 0x10000 * i) ++ le 8 0 ++ g1 (0x100000 + 1024 * i) ++
    List.replicate 24 0 ++ le 4 2 ++ le 4 i ++ le 1 2 ++ le 1 0 ++ le 1 0 ++ le 1 1 ++ le 2 (3 + i) ++ List.replicate 50 0
def updTab (p : Polder) : Polder :=
  [(0x20000, updHead ++ updHyper ++ shard 0), (0x130000, le 2 5), (0x130040, g1 0x120000), (0x130080, g1 0x140000),
    (0x110000, []), (0x100000, le 8 5), (0x200000, le 8 5)].foldl (fun p e => poke p 1 e.1 e.2)
      { (p.wr (PMP + 0x40) 0x20000).wr (PMP + 0x44) (bits (own 1 0) 32 32) with effLo := [(PMP + 0x40, 0x20000)] }
def readsTab (f : Polder → Polder) : Option UpdTable :=
  match EStateM.run (readUpdTable (ks.ctxOf 0) 0 (own 1 0x20000)) ((ks f).pol 0) with
  | .ok t _ => some t
  | .error _ _ => none
theorem test_hyps_pump_arm :
    ks.Admits 0 (PMP + 0x40 + 8) ag ∧ ks.mod.commit = none ∧ Chan.reset.st = .idle ∧
    ((ks updTab).pol 0).pair (PMP + 0x40) &&& 0xFFFFFFFFFFFFFFC0#64 = own 1 0x20000 ∧
    (readsTab updTab).isSome = true ∧ (readsTab id).isNone = true ∧
    { Chan.reset with st := .open_ }.st ≠ .idle ∧ { Chan.reset with st := .open_ }.st ≠ .late := by
  simp only [admits_iff]; decide +kernel
/-- A table as data: two shards of two blocks, its norm cell at 0x120000. -/
def shard9 (i : Nat) : Shard :=
  ⟨own 1 (0x200000 + 0x10000 * i), own 1 (0x201000 + 0x10000 * i), own 1 (0x202000 + 0x10000 * i), 0, own 1 (0x100000 + 1024 * i), 0, 0, 0,
   2, i, 2, 0, 0, 1, BitVec.ofNat 16 (3 + i), 0⟩
def tab9 : UpdTable :=
  ⟨false, false, true, false, 1, 0, 9, 2, 1, 0x3F800000, own 1 0x100000, 2, 2, own 1 0x110000, own 1 0x120000, own 1 0x120040,
   own 1 0x120080, [5], [own 1 0x120000], 1, [own 1 0x140000], 0, 0, 7, [], [shard9 0, shard9 1], []⟩
def ch9 (v : Chan) (f : Polder → Polder := id) : State := ks fun p => f (p.setChan 0 { v with tab := some tab9 })
def seqcell (total seq : Nat) (p : Polder) : Polder := poke p 1 0x120000 (List.replicate 16 0 ++ le 4 total ++ le 4 seq)
theorem test_hyps_pump_close :
    (ch9 Chan.reset).live 0 4 = true ∧ ({ Chan.reset with first := some 80, st := .open_ }.first.isSome = true) ∧
    ({ Chan.reset with lost := true, st := .open_ }.lost = true ∧ { Chan.reset with lost := true, st := .open_ }.lostMember = false) ∧
    (let s := ch9 { Chan.reset with st := .closing }
     ((s.pol 0).chan 0).tab = some tab9 ∧ (SMap.get (fun _ => Win.reset) (s.pol 0).flx.wins 60).writes = []) ∧
    (∀ seq ∈ [9, 8],
      let s := ch9 { Chan.reset with st := .summing } (seqcell 0x40800000 seq)
      let r := ((s.pol 0).rootTotal (s.ctxOf 0) 0 false).pumpRead (s.ctxOf 0) tab9.norm 24
      r.st = Status.done ∧ decide (BitVec.ofNat 32 (leN r.data 20 4) = tab9.seq) = decide (seq = 9)) := by decide +kernel
/-- A total of 4.0 is finite and its root is not zero; the totals 0 and infinity are the other cases. -/
theorem test_hyps_decision :
    ((ch9 Chan.reset).pol 0 |>.takeActions (ks.ctxOf 0) tab9).2 = [] ∧ (f32 0x40800000).isFinite = true ∧
    (f64 (toF64 (f32 0x40800000).sqrt)).isZero = false ∧ tab9.clipMax ≠ 0 ∧ (f64 (toF64 (f32 0).sqrt)).isZero = true ∧
    (f32 0x7F800000).isFinite = false := by decide +kernel
theorem test_hyps_update :
    (let s := ch9 { Chan.reset with st := .updating }
     let v := (s.pol 0).chan 0
     tab9.shards[0]? = some (shard9 0) ∧ v.skipped = false ∧ v.held = false ∧ v.isNext tab9 0 (shard9 0) = true ∧
       v.handed tab9 0 = true ∧ v.skips.contains (shard9 0).tensor = false ∧ v.isNext tab9 1 (shard9 1) = false ∧
       (s.pol 0).updateOver 0 tab9 = false ∧ v.snapAt < tab9.image) ∧
    ({ Chan.reset with shards := [0] }.isNext tab9 0 (shard9 0) = false) ∧
    ({ Chan.reset with skips := [3] }.skips.contains (shard9 0).tensor = true) ∧
    ((ch9 { Chan.reset with st := .updating, shards := [0, 1] }).pol 0).updateOver 0 tab9 = true ∧
    { Chan.reset with snap := .sending }.snap = .sending := by decide +kernel

/-! ## Ports and flits -/

/-- Polder 0 with port `i` in a state, its CTRL register `en`. -/
def pt (i : Nat) (v : Port) (en : W32 := 1) (f : Polder → Polder := id) : State :=
  ks fun p => f ((p.wr (FLP i + 0x0C) en).setPort i v)
def rec10 (kind k : Nat) : LaneRx := LaneRx.record (BitVec.ofNat 128 (kind + 2 ^ 16 * 3 + 2 ^ 24 * k + 2 ^ 64 * 77))
def up10 : Port := { Port.reset with st := .up, width := 3, lanes := 0xFF }
theorem test_hyps_ports :
    (let s := pt 1 { Port.reset with st := .laneCheck }
     s.live 0 5 = true ∧ (s.pol 0).portSt 1 = .laneCheck ∧ cabled 1 = true ∧ ((s.pol 0).port 1).idle = false) ∧
    (let s := pt 1 { Port.reset with st := .negotiate }
     (s.pol 0).portSt 1 = .negotiate ∧
       (peerCheck (s.ctxOf 0) 1 ((s.pol 0).portCtl 1 3) ((List.range 8).map (rec10 1))).1 = 0 ∧
       (peerCheck (s.ctxOf 0) 1 ((s.pol 0).portCtl 1 3) ((List.range 8).map (rec10 2))).1 ≠ 0) ∧
    (∀ n ∈ [1, 2],
      let s := pt 1 { up10 with st := .train, returns := n }
      (s.pol 0).portSt 1 = .train ∧ (0 &&& ((s.pol 0).port 1).rxUsed) = 0 ∧ (0x10 &&& ((s.pol 0).port 1).rxUsed) ≠ 0) ∧
    ((pt 1 { up10 with st := .align }).pol 0).portSt 1 = .align ∧ ((pt 1 { up10 with st := .wait }).pol 0).portSt 1 = .wait ∧
    ((pt 1 up10).pol 0).portUp 1 = true ∧
    (let s := pt 5 { Port.reset with st := .laneCheck }
     (s.pol 0).portSt 5 = .laneCheck ∧ cabled 5 = false ∧ (s.pol 0).portCtl 5 2 = false ∧
       (widthOf ((~~~(0x10 : BitVec 8)) &&& 0xFF)).isSome = true) ∧
    { up10 with idle := true }.idle = true := by decide +kernel
theorem test_hyps_port_control :
    (pt 1 up10).Admits 0 (FLP 1 + 0x0C) ag ∧ ((pt 1 up10).pol 0).portCtl 1 0 = true ∧
    ((pt 1 Port.reset 0).pol 0).portCtl 1 0 = false := by
  simp only [admits_iff]; decide +kernel
/-- A flit to destination 300 with three bytes: type 1, and the same with the reserved type 5 (CRC and parity written out). -/
def flit10 (bad : Bool) : BitVec 2048 := if bad then BitVec.ofNat 2048 (0x82a5eb8d00000004 * 2 ^ 1984 + 0x70707000000000306312c5000fff000500000) else
  BitVec.ofNat 2048 (0x2d3f811100000005 * 2 ^ 1984 + 0x70707000000000306312c1000fff000500000)
def crcFrom : List Byte → W32 → W32
  | [], c => c
  | b :: l, c => if c.toNat = 0 then crcFrom l (crcByte c b) else crcFrom l (crcByte c b)
theorem crcFrom_eq : ∀ l c, crcFrom l c = l.foldl crcByte c
  | [], _ => rfl
  | b :: l, c => by simp [crcFrom, crcFrom_eq l]
theorem flit10_crc (bad : Bool) : crcOk (flit10 bad) = true := by
  rw [crcOk, crc32c, ← crcFrom_eq]; cases bad <;> decide +kernel
def item10 : TxItem := .txn 0 99 false 3 false (Txn.bytes (readTxn (gaOf 99 1 0x20000) 64 7))
theorem test_hyps_flits :
    ((ks.pol 0).portUp 1 = false ∧ ks.live 0 5 = true) ∧
    (let s := pt 1 up10
     let h := linkHdr (flitWord (flit10 false) 0)
     (s.pol 0).portUp 1 = true ∧ h.ok = true ∧ h.ak = 0 ∧ h.type = 1 ∧ h.seq = up10.expect ∧
       parityOk (flit10 false) = true ∧ ((s.ctxOf 0).module? (s.pol 0)).isSome = true ∧
       (routeOf (flitWord (flit10 false) 1)).dest ≠ (s.ctxOf 0).ownId (s.pol 0)) ∧
    (linkHdr (flitWord (flit10 true) 0)).ok = false ∧
    ({ up10 with replay := [(0, 0, 5), (1, 1, 6)], resend := 1 }.replay[1]? = some (1, 1, 6)) ∧
    (let s := pt 1 { up10 with queue := [item10] }
     ((s.pol 0).nextFlit (s.ctxOf 0) 1).isSome = true ∧ up10.resend = 0 ∧ up10.replay.length < 512) ∧
    ((pt 1 up10).pol 0 |>.nextFlit (ks.ctxOf 0) 1).isNone = true ∧ up10.unacked = 0 ∧ 0 < { up10 with unacked := 2 }.unacked := by
  decide +kernel
theorem test_hyps_parse :
    (let h : LinkHdr := ⟨1, 7, 0xFFF, 3, 3, 4095, 3, 2 ^ 18 - 1⟩
     h.type < 16 ∧ h.ak < 4 ∧ h.cls < 4 ∧ h.credits < 4096 ∧ h.cclass < 4 ∧ h.low < 2 ^ 18) ∧
    (let r : Route := ⟨4095, 4095, 2, 255, 0⟩
     r.dest < 4096 ∧ r.src < 4096 ∧ r.used < 256 ∧ r.start < 256 ∧ [1, 2].length = r.used ∧ r.used ≤ 232) ∧
    (let t := readTxn (gaOf 99 1 0x20000) 64 7
     t.data.length = dataLen t.op.toNat t.len.toNat) := by decide +kernel

/-! ## The fabric -/

/-- Memory at 0x20000 of tiers 1 and 2; a window onto the first 4 KiB of tier 1. -/
def fabBase (f : Polder → Polder := id) : State :=
  ks fun p => f (poke (poke p 1 0x20000 (List.replicate 64 9)) 2 0x20000 (List.replicate 64 8))
def fabWin (p : Polder) : Polder := p.onFlx fun g => { g with wins := [(3, ⟨own 1 0x20000, 1, 7, .open_, [], []⟩)] }
def deny11 (s : State) : State := atMod (fun m => { m with sensed := { m.sensed with protMap := BitVec.allOnes _ } }) s
def reqs11 (t o : Nat) : List Txn :=
  [txn opRead 0 (own t o) (if t = 4 then 4 else 64) [],
   txn opWrite 0 (own t o) (if t = 4 then 4 else 64) (List.replicate (if t = 4 then 4 else 64) 1), txn opReduce 1 (own t o) 4 [0, 0, 0x80, 0x3F],
   txn opAtomic 0 (own t o) 0 [], txn opAtomic 1 (own t o) 0 (List.replicate 8 0)]
theorem test_hyps_fabric_map :
    (∀ t ∈ reqs11 1 0x20000, (fabBase fabWin).Passes 0 2 t false ∧ (fabBase fabWin).Passes 0 2 t true ∧
      Txn.known t = true ∧ mboxOk 2 t = false) ∧
    (∀ t ∈ reqs11 4 (GRD + 0x44), (fabBase fabWin).Passes 0 2 t false ∧ (fabBase fabWin).Passes 0 2 t true) := by
  simp only [passes_iff]; decide +kernel
theorem test_hyps_fabric_meets :
    (∀ t ∈ reqs11 1 0x20000, (fabBase fabWin).fabMeets 0 2 t = none) ∧
    (∀ t ∈ (reqs11 1 0x20003).take 1 ++ (reqs11 1 0x9000000).drop 1, ((fabBase fabWin).fabMeets 0 2 t).any (· != Status.resetAbort) = true) ∧
    (∀ t ∈ [txn opRead 0 (own 4 (GRD + 0x44)) 4 [], txn opWrite 0 (own 4 (GRD + 0x44)) 4 [1, 2, 3, 4],
        txn opAtomic 0 (own 4 (GRD + 0x44)) 0 [], txn opAtomic 1 (own 4 (GRD + 0x44)) 0 (List.replicate 8 0)],
      (fabBase fabWin).fabMeets 0 2 t = none) ∧
    (∀ t ∈ reqs11 1 0x20000, t.wf = true ∧ t.src.toNat ≠ (ks.ctxOf 0).ownId (ks.pol 0) ∧
      (fabClass t.addr).any (fun c => (deny11 ks).mod.denied (portRequester 2) c true && (deny11 ks).mod.denied (portRequester 2) c false) =
        true) := by decide +kernel
def cpl (tinc : BitVec 4 := 0) (rinc : BitVec 4 := 0) : Txn :=
  { txn 0x81 0 (own 1 0) 64 (List.replicate 64 2) 99 20 with tinc := tinc, rinc := rinc }
def fen (k : BitVec 4) (src : Nat := 77) : Txn := txn opFence k (own 1 0) 0 [] src
def out11 : Txn := txn opRead 0 (gaOf 99 1 0x20000) 64 [] 20 99
def flx (f : Flx → Flx) (g : Polder → Polder := id) : State := fabBase fun p => g (p.onFlx f)
def known11 (g : Flx) : Flx := { g with reqs := [⟨out11, .engine 1, false⟩], views := [(99, ⟨0, true, none, false⟩)] }
theorem test_hyps_requests :
    (out11.wf = true ∧ Txn.isCpl out11 = false ∧ Txn.known out11 = true) ∧
    (∀ c ∈ [(cpl, true), (cpl 3 0, false), (cpl 0 3, false)],
      let s := flx known11
      let q := s.pol 0
      c.1.wf = true ∧ Txn.isCpl c.1 = true ∧ q.reqOf c.1.tag = some ⟨out11, .engine 1, false⟩ ∧
        q.fenceWaits ⟨out11, .engine 1, false⟩ = false ∧ (q.view 99).known = true ∧
        decide (c.1.tinc = (q.view 99).inc ∧ c.1.rinc = q.wdn.polderInc) = c.2) ∧
    (let el : Txn := { out11 with cls := .elastic }
     let s := flx (fun g => { g with reqs := [⟨el, .keeper, false⟩] }) fun p =>
       (p.wr (FLP 1 + 0x0C) 1).setPort 1 { up10 with queue := [.txn 1 99 false 5 false [1]] }
     (s.pol 0).reqOf 5 = some ⟨el, .keeper, false⟩ ∧ el.cls = .elastic ∧
       ((s.pol 0).ports.any fun e => e.2.queue.any fun i => i.unsent 5) = true) ∧
    ((ks.pol 0).ports.any fun e => e.2.queue.any fun i => i.unsent 5) = false := by decide +kernel
theorem test_hyps_fences :
    (∀ t ∈ [fen 7, { fen 7 with chk := true, tinc := 3 }], t.wf = true ∧ t.op = opFence ∧ Txn.known t = true ∧
      ((ks.ctxOf 0).module? (ks.pol 0)).isSome = true ∧ t.src.toNat ≠ (ks.ctxOf 0).ownId (ks.pol 0)) ∧
    (ks.pol 0).staleInc { fen 7 with chk := true, tinc := 3 } = true ∧ (ks.pol 0).staleInc (fen 7) = false ∧
    (ks.pol 0).fenceHeld (fen 7) = false ∧
    ((flx fun g => { g with inbound := [(2, txn opWrite 0 (own 1 0x20000) 4 [1, 2, 3, 4])] }).pol 0).fenceHeld (fen 7) = true := by
  decide +kernel

def wop (op : Byte) (md : BitVec 4) (o : Nat) : WinFrom :=
  .fabric 2 { txn op md (own 1 0x3000) 0 [] with opnd := BitVec.ofNat 64 o }
/-- The window registers select window 3 with a base in tier 1, one block of 4 KiB and the mask 7. -/
def wreg (base : Nat) (p : Polder) : Polder :=
  { (((p.wr (FLX1 + 0x5C) 3).wr (FLX1 + 0x60) (BitVec.ofNat 32 base) 4).wr (FLX1 + 0x64) (bits (own 1 0) 32 32) 4).wr (FLX1 + 0x68)
      0x70000001 4 with effLo := [(FLX1 + 0x60 + 2 ^ 26 * 4, BitVec.ofNat 32 base)] }
def hit : WinWrite := ⟨txn opWrite 0 (own 1 0) 4 [1, 2, 3, 4], false, [], false⟩
def win12 (st : WinSt) (l : List WinWrite) (p : Polder) : Polder :=
  wreg 0x3000 (p.onFlx fun g => { g with wins := [(3, ⟨own 1 0, 1, 7, st, l, []⟩)] })
theorem test_hyps_windows :
    (∀ o ∈ [.regPath, wop opOpen 7 0x2000000003], o.wf = true ∧ winRefused o opOpen ((ks.ctxOf 0).module? (ks.pol 0)) = false) ∧
    (∀ o ∈ [.regPath, wop opClose 0 3], o.wf = true ∧ winRefused o opClose ((ks.ctxOf 0).module? (ks.pol 0)) = false) ∧
    (∀ base ∈ [0x3000, 0x9000000],
      let s := fabBase (wreg base)
      let q := s.pol 0
      let b := q.pair (FLX1 + 0x60) 4
      let z := q.rd (FLX1 + 0x68) 4
      s.mod.commit = none ∧ q.rdN (FLX1 + 0x5C) % 64 = 3 ∧ (s.ctxOf 0).roleBound q 3 = false ∧ (q.win 3).st = .closed ∧
        b.toNat % 4096 = 0 ∧ bitsN z 0 28 ≠ 0 ∧ bits z 28 3 ≠ 0 ∧ q.winOverlaps 3 b 4096 = false ∧
        (s.ctxOf 0).inRegion q b 4096 = decide (base = 0x3000)) ∧
    (∀ l ∈ [[], [hit]], (((fabBase (win12 .open_ l)).pol 0).win 3).st = .open_ ∧
      (((fabBase (win12 .open_ l)).pol 0).win 3).writes = l ∧ (((fabBase (win12 .open_ l)).pol 0).win 3).closers = []) := by
  decide +kernel

/-- Lists of polders: heartbeat entries for 99 and 77, a notice entry for 99. -/
def listed12 (f : Polder → Polder := id) : State :=
  atMod (fun m => { m with active := [(FLX1 + 0x4C, 0, 0x8063), (FLX1 + 0x4C, 1, 0x804D), (FLX1 + 0x58, 0, 0x8063),
    (FLX2 + 0x5C, 0, 16)].foldl (fun i e => i.set 0 e.1 e.2.1 e.2.2) m.active }) (fabBase f)
def ntc (k : BitVec 4) (o : Nat) : Txn := { txn opNotice k (own 0 0) 0 [] with opnd := BitVec.ofNat 64 o }
theorem test_hyps_peers :
    ((listed12.ctxOf 0).module? (listed12.pol 0)).isSome = true ∧
    (let t := txn opHeartbeat 1 (own 0 0) 0 [] 99 20
     t.wf = true ∧ t.op = opHeartbeat ∧ Txn.known t = true) ∧
    (∀ b : Bool,
      let s := listed12 fun p => p.setHbStat 0 { p.hbStat 0 with lost := b }
      (s.ctxOf 0).listEntry (s.pol 0) hbList 0 = some 99 ∧ ((s.pol 0).hbStat 0).lost = b) ∧
    (∀ e ∈ [(1, 0x1063, false), (1, 0x3063, true), (2, 0x1063, false), (3, 5, false), (4, 0x1063, false), (5, 1, false)],
      let t := ntc (BitVec.ofNat 4 e.1) e.2.1
      let q := (listed12 fun p => p.setView 99 ⟨1, true, some 3, false⟩).pol 0
      t.wf = true ∧ t.op = opNotice ∧ t.mod.toNat = e.1 ∧
        (e.1 = 1 → decide (((q.queueNotice t).view (Txn.subject t)).lost = some (Txn.subjectInc t)) = e.2.2)) := by decide +kernel
theorem test_hyps_notice_send : ks.Admits 0 (FLX0 + 0x0C) ag ∧ ks.Admits 0 (FLX2 + 0x4C) ag ∧ ks.Admits 0 (TWN + 0x0C) ag ∧
    ks.Admits 0 (TWN + 0x94) ag ∧ ks.Admits 0 (GAU + 0x0C) ag ∧ ks.Admits 0 (WDN + 0x44) ag ∧ ks.Admits 0 (WDN + 0x0C) ag ∧
    ks.Admits 0 (WDN + 0x94) ag := by
  simp only [admits_iff]; decide +kernel
/-- A shard-map table of `n` entries at 0x40000, and slot 0's registers naming it. -/
def mapAt (n : Nat) (p : Polder) : Polder :=
  let p := poke p 1 0x40000 (le 1 1 ++ le 1 0 ++ le 2 n ++ le 4 0 ++ le 8 4 ++ List.replicate 48 0 ++ le 8 0 ++ le 8 4 ++
    bytesOf (gaOf 99 1 0) 8 ++ bytesOf (gaOf 99 1 0x10000) 8)
  { (p.wr (FLX2 + 0x44) 0x40000 1).wr (FLX2 + 0x48) (bits (own 1 0) 32 32) 1 with effLo := [(FLX2 + 0x44 + 2 ^ 26, 0x40000)] }
def map12 : ShardMap := ⟨0, 4, []⟩
theorem test_hyps_maps :
    (∀ n ∈ [1, 0],
      let s := listed12 (mapAt n)
      let q := s.pol 0
      let a := q.pair (FLX2 + 0x44) 1 &&& 0xFFFFFFFFFFFFFFC0#64
      q.sel (FLX2 + 0x40) ag % 8 = 0 ∧ (match (q.readMap ((s.noted ag).ctxOf 0) 0 a 7).2 with
        | .ok _ => true
        | .error _ => false) = decide (n = 1)) ∧
    (∀ e ∈ [(some map12, true), (none, false)],
      let q := (listed12 fun p => p.setMapSlot 0 ⟨some map12, some map12, e.1, some (.reg 7), []⟩).pol 0
      (q.mapSlot 0).wait = some (.reg 7) ∧ (q.mapSlot 0).prev.isSome = true ∧ q.canActivate 0 = e.2) ∧
    listed12.mod.commit = none ∧ ((listed12.pol 0).mapSlot 0).wait = none ∧ ((listed12.pol 0).mapSlot 0).prev = none := by
  decide +kernel

/-! ## The Twin and the Gauge -/

def gau12 (f : Polder → Polder := id) : State :=
  atMod (fun m => { m with active := [(GAU + 0x40, 0, 0x1F), (GAU + 0x44, 0, 0x00021F01), (GAU + 0x50, 0, 5), (GAU + 0x50, 1, 6),
    (GAU + 0x70, 0, 3)].foldl (fun i e => i.set 0 e.1 e.2.1 e.2.2) m.active }) (fabBase f)
/-- A polder whose twin is up on port 7, with its ring at 0x50000. -/
def mirror12 (p : Polder) : Polder :=
  let p := { ((p.wr (TWN + 0x44) 0x50000).wr (TWN + 0x48) (bits (own 1 0) 32 32)).wr (TWN + 0x4C) 7 with effLo := [(TWN + 0x44, 0x50000)] }
  ((((p.wr (FLP 7 + 0x0C) 1).setPort 7 { Port.reset with st := .up }).wr (TWN + 0x0C) 1).onTwin fun v =>
    { v with up := true, peer := some 99 })
def record12 : BitVec 512 := mirrorRecord 1 20 9 4 []
theorem test_hyps_twin :
    ((gau12.pol 0).mirrors = false ∧ ((gau12 mirror12).pol 0).mirrors = true) ∧
    (let t := txn opWrite 0 (own 4 0x3100) 64 (List.replicate 64 2)
     let q := (gau12 mirror12).pol 0
     t.wf = true ∧ t.op = opWrite ∧ gaTier t.addr = 4 ∧ mboxOk 7 t = true ∧ mboxOk 2 t = false ∧
       gau12.mod.denied (portRequester 7) .datapath true = false ∧ (q.takeInbound 7 t).staleInc t = false ∧
       (q.takeInbound 7 { t with chk := true, tinc := 3 }).staleInc { t with chk := true, tinc := 3 } = true ∧
       (q.placeRecord ((gau12 mirror12).ctxOf 0) t).2 = Status.done) ∧
    (∀ b : Bool, ((gau12 fun p => (mirror12 p).onTwin fun v => { v with records := [record12], onWire := b }).pol 0).twin.onWire = b) := by
  decide +kernel
def xreg (src dst len : Nat) (p : Polder) : Polder :=
  { ((((p.wr (TWN + 0x80) 0).wr (TWN + 0x84) (BitVec.ofNat 32 (src / 2 ^ 32))).wr (TWN + 0x88) 0x1000).wr (TWN + 0x8C)
      (BitVec.ofNat 32 (dst / 2 ^ 32))).wr (TWN + 0x90) (BitVec.ofNat 32 len) with effLo := [(TWN + 0x80, 0), (TWN + 0x88, 0x1000)] }
theorem test_hyps_transfer :
    (∀ e ∈ [(20, true), (99, false)],
      let s := gau12 (xreg (gaOf e.1 1 0).toNat (own 1 0).toNat 0)
      let x := (s.noted ag).ctxOf 0
      let r := ((s.pol 0).wr (TWN + 0x94) (setField ((s.pol 0).rd (TWN + 0x94)) 2 2 0)).wr (TWN + 0x98) 0
      (s.pol 0).twin.xf = none ∧ r.rdN (TWN + 0x90) = 0 ∧
        x.isOwn (s.pol 0) (r.pair (TWN + 0x80) &&& 0xFFFFFFFFFFFFFFC0#64) = e.2) ∧
    (let v : Xfer := ⟨false, 0, own 1 0, own 1 0x1000, 64, 32, 0, some Status.done, 7⟩
     ((gau12 fun p => p.onTwin fun w => { w with xf := some v }).pol 0).twin.xf = some v ∧ v.code = some Status.done) := by
  decide +kernel
def step12 (l : List Outcome') (p : Polder) : Polder :=
  (p.onGauge fun g => { g with outcomes := l, k := 5, clean := 3 }).onTwin fun v => { v with stepWait := true, step := 41 }
theorem test_hyps_step :
    (let q := (gau12 (step12 [⟨true, false, 5⟩])).pol 0
     q.twin.stepWait = true ∧ q.reducing = false ∧ q.grid.rngHeld = [] ∧ q.mirrors = false) ∧ (gau12.pol 0).twin.stepWait = false ∧
    ((∃ o ∈ [Outcome'.mk true false 5], o.nonfinite = true ∧ o.k.toNat = 5) ∧ 1 ≤ 5 ∧ 5 ≤ 31) ∧
    ((∀ o ∈ [Outcome'.mk false false 5], o.nonfinite = false) ∧ (∃ o ∈ [Outcome'.mk false false 5], o.skipStep = false)) ∧
    (∀ o ∈ [Outcome'.mk false true 5], o.nonfinite = false ∧ o.skipStep = true) ∧
    (lossDecision [⟨true, false, 5⟩] 5 3 1 31 2).isSome = true := by decide +kernel
def sum12 (t : BitVec 16) : RatioSum := ⟨0, t, 0x3FF0000000000000, 0x4010000000000000, 1⟩
def held12 (t : BitVec 16) (p : Polder) : Polder :=
  (p.setChan 0 { Chan.reset with st := .updating, tab := some { tab9 with shards := [{ shard9 0 with tensor := t }] } }).onGauge fun g =>
    { g with ratios := [sum12 t] }
theorem test_hyps_gauge :
    (∀ n < 2, let e := [(5, true)].getD n (9, false)
      let s := gau12 fun p => p.onGauge fun g => { g with inbox := [⟨3, e.1, 0x40400000⟩] }
      (s.pol 0).gauge.inbox = [⟨3, e.1, 0x40400000⟩] ∧ ((s.ctxOf 0).scaleEntry (s.pol 0) e.1).isSome = e.2) ∧
    (gau12.pol 0).gauge.inbox = [] ∧ (gau12.pol 0).ratioReady 0 = none ∧
    (∀ n < 2, let e := [(3, true)].getD n (9, false)
      let s := gau12 (held12 e.1)
      (s.pol 0).ratioReady 0 = some e.1 ∧ ((s.ctxOf 0).layerEntry (s.pol 0) e.1).isSome = e.2) ∧
    (∀ n < 4, ((gau12.pol 0).chan n).held = false) ∧
    (let q := (gau12 fun p => p.setChan 0 { Chan.reset with tab := some tab9, held := true }).pol 0
     (q.chan 0).tab = some tab9 ∧ (q.chan 0).held = true ∧ (∀ n < 4, n ≠ 0 → (q.chan n).held = false)) ∧
    (let s := gau12 fun p => { (p.wr (GAU + 0x8C) 0x60000).wr (GAU + 0x90) (bits (own 1 0) 32 32) with effLo := [(GAU + 0x8C, 0x60000)] }
     ((s.pol 0).imgAt ((s.noted ag).ctxOf 0)).isSome = true ∧ (s.pol 0).anyRun = false) ∧
    ((gau12 fun p => p.setCell 3 { Cell.reset with st := .running, run := true }).pol 0).anyRun = true := by decide +kernel

/-! ## The Warden -/

def rect13 : W32 := 0x03000100
def issued13 (p : Polder) : Polder := p.onGrid fun g => { g with issues := [⟨[rect13], .reg 7, .running, 1, 5, false, 4400, 80, none⟩] }
def wdn (f : Warden → Warden) (g : Polder → Polder := id) : State := ks fun p => g (p.onWdn f)
def eng13 (f : Eng → Eng) (p : Polder) : Polder := p.setEng 1 (eRun fun v => f { v with users := [(7, 1), (9, 2)] })
def ereq13 (ans : Option ReadReply) : EngReq := ⟨0, 0, 512, 4, gaOf 99 1 0, 512, false, false, some 9, ans⟩
theorem test_hyps_watchdogs :
    ks.wdnLive 0 = true ∧
    (let q := (ks fun p => issued13 (p.setCell 1 { Cell.reset with st := .waitSem, run := true })).pol 0
     (q.cell 1).st = .waitSem ∧ q.cellDown 1 = false) ∧
    (ks.pol 0).haltCause = none ∧
    ((ks fun p => issued13 (p.setCell 1 { Cell.reset with st := .faulted })).pol 0).haltCause.isSome = true ∧
    (let q := (ks (eng13 fun v => { v with reqs := [ereq13 none] })).pol 0
     (q.eng 1).reqs ≠ [] ∧ q.engDown 1 = false ∧ (q.eng 1).probing = false) ∧
    (let q := (ks fun p => p.onGrid fun g => { g with hold := { g.hold with frozen := true, src := 1 } }).pol 0
     q.grid.hold.frozen = true ∧ q.grid.hold.src ≠ 0xFF ∧ q.engDown q.grid.hold.src = false) ∧
    (ks.pol 0).dieDown 5 = false ∧
    (let q := (ks fun p => p.wr (FLP 1 + 0x0C) 1).pol 0
     cabled 1 = true ∧ q.portCtl 1 0 = true ∧ q.portUp 1 = false) ∧
    (let q := fun (n : W32) => (ks fun p => p.wr (WDN + 0x40) n).pol 0
     ((q 5).rd (WDN + 0x40)).getLsbD 8 = false ∧ ((q 0x100).rd (WDN + 0x40)).getLsbD 8 = true ∧ (q 0x100).ceiling = 0) := by
  decide +kernel
def lad (d : Dom) (waiting : Bool := false) : Ladder := ⟨d, waiting, false, 9, 3, 5, 0⟩
theorem test_hyps_resets :
    (∀ b : Bool, ((wdn fun w => { w with ladders := [lad (.engine 1) b] }).pol 0).wdn.ladders[0]? = some (lad (.engine 1) b)) ∧
    ((wdn fun w => { w with ladders := [lad (.engine 1)] }).pol 0).canComplete (.engine 1) = true ∧
    ((wdn (fun w => { w with ladders := [lad (.engine 1)] }) (eng13 fun v => { v with reqs := [ereq13 none] })).pol 0).canComplete
      (.engine 1) = false ∧
    (ks.pol 0).wdn.st ≠ .failed ∧
    (let s := wdn fun w => { w with st := .failed }
     (s.pol 0).wdn.st = .failed ∧ s.mod.offBy.getLsbD 0 = false ∧ s.mod.power = .on ∧ s.mod.denied .keeperAgent .health true = false ∧
       s.mod.serverShut .keeperAgent = false) ∧
    Rect.malformed rect13 = false := by decide +kernel
theorem test_hyps_recovery :
    (∀ ph ∈ [1, 5, 6, 7], ∀ die ∈ [none, some 1], ∀ fails ∈ [0, 1],
      (wdn fun w => { w with recovs := [⟨die, ph, fails, 2⟩] }).mod.keeper = .ready ∧
        ((wdn fun w => { w with recovs := [⟨die, ph, fails, 2⟩] }).pol 0).wdn.recovs = [⟨die, ph, fails, 2⟩]) ∧
    (atMod fun m => { m with keeper := .booting }).mod.keeper ≠ .ready ∧
    ((ks fun p => p.wr (WDN + 0x40) 2).pol 0).ceiling < 5 ∧ 5 ≤ ((ks fun p => p.wr (WDN + 0x40) 5).pol 0).ceiling ∧
    ((wdn fun w => { w with st := .ready }).pol 0).wdn.st = .ready ∧ (ks.pol 0).wdn.st ≠ .ready := by decide +kernel
def probe13 (st : Nat) (armed : Bool) (at_ : Nat := 0) (stuck : Bool := false) : Probe :=
  ⟨st, 1, [⟨7, [db 1 adr 512 1]⟩, ⟨9, []⟩], at_, false, armed, stuck⟩
theorem test_hyps_probe :
    (let q := (wdn fun w => { w with probe := probe13 0 true }).pol 0
     q.wdn.probe.armed = true ∧ q.wdn.probe.st ≠ 1 ∧ q.engDown q.wdn.probe.eng = false ∧ q.wdn.st ≠ .resetting ∧
       q.wdn.st ≠ .recovering) ∧ (ks.pol 0).wdn.probe.armed = false ∧
    (∀ n ∈ [0, 1],
      let q := (wdn fun w => { w with probe := probe13 1 true n }).pol 0
      q.wdn.probe.st = 1 ∧ ((q.eng 1).reqs.all fun r => r.answer.isSome) = true ∧ q.wdn.probe.suspects.length = 2) ∧
    (let q := (wdn (fun w => { w with probe := probe13 1 true }) (eng13 fun v => { v with reqs := [ereq13 none] })).pol 0
     ((q.eng q.wdn.probe.eng).reqs.all fun r => r.answer.isSome) = false) ∧
    (probe13 2 false).stuck = false ∧ (probe13 2 false 0 true).stuck = true := by decide +kernel

/-! ## Commands, firmware and configuration -/

/-- Slot 3 of the keeper queue: enabled, sizes 5 and 5, context 7, quotas 4 and 8. -/
def slot14 (v : Slot) (f : Module → Module := id) : State :=
  atMod (fun m => f ({ m.wr (KQ + 0x5C) 0x10505 4 with active := (m.active.set 4 (KQ + 0x44) 3 7).set 4 (KQ + 0x48) 3 0x00080004 }.setSlot 3
    { v with sqTail := 2 })) ks
/-- A queue entry with tag 0x77: opcode, target, generation and payload. -/
def entry (op : Nat) (target : Nat := 0) (gen : Nat := 0) (pay : Nat := 0) : BitVec 1024 :=
  BitVec.ofNat 1024 (op + 0x77 * 65536 + target * 2 ^ 32 + gen * 2 ^ 64 + pay * 2 ^ 512)
def cmd (e : BitVec 1024) (ph : CmdPhase := .dispatched) : Cmd := ⟨entryTag e, e, 7, ph, false, 2⟩
def cmd14 (c : Cmd) (f : Module → Module := id) : State := slot14 { Slot.reset with cmds := [c] } f
theorem test_hyps_queues :
    (let s := slot14 Slot.reset
     let m := s.mod
     m.power = .on ∧ m.keeper = .ready ∧ (m.kq 0x5C 3).getLsbD 16 = true ∧ m.slotCtx 3 = 7 ∧
       (m.slot 3).sqHead.toNat % m.sqSize 3 ≠ (m.slot 3).sqTail.toNat % m.sqSize 3 ∧ m.cqFull 3 = false ∧
       (m.slot 3).out + 1 ≤ bitsN (m.cfg (KQ + 0x48) 3) 0 12 ∧ (m.slot 3).out + 1 ≤ bitsN (m.cfg (KQ + 0x48) 3) 16 12 ∧
       m.outstanding < 2048) ∧
    (∀ b : Bool,
      let m := (slot14 { Slot.reset with cqTail := 31, stalled := b }).mod
      m.cqFull 3 = true ∧ (m.slot 3).stalled = b) ∧
    (∀ n ∈ [4, 8],
      let m := (slot14 { Slot.reset with cmds := List.replicate n (cmd (entry 0) .running) }).mod
      m.cqFull 3 = false ∧ bitsN (m.cfg (KQ + 0x48) 3) 0 12 < (m.slot 3).out + 1 ∧
        decide ((m.slot 3).out + 1 ≤ bitsN (m.cfg (KQ + 0x48) 3) 16 12) = decide (n = 4)) := by decide +kernel
def ready14 (e : BitVec 1024) : Bool :=
  let m := (cmd14 (cmd e .ready)).mod
  decide (m.power = .on ∧ m.keeper = .ready ∧ (m.slot 3).find 0x77 = some (cmd e .ready) ∧ m.mayDispatch 3 (cmd e .ready) = true)
theorem test_hyps_dispatch :
    [entry 0x99, entry 0x10 0 5, entry 0x10, entry 1, entry 0].all ready14 = true ∧
    (cmd14 (cmd (entry 0) .running)).mod.mayDispatch 3 (cmd (entry 0) .running) = false ∧
    (entryOk (entry 0x99) = false ∧ entryOk (entry 0x10) = true ∧ entryTarget (entry 0x10) = some 0 ∧
      entryGen (entry 0x10 0 5) = 5 ∧ ks.mod.active.gen ≠ 5 ∧ startOp 0x10 = true ∧ startOp 1 = false) ∧
    ((ks.pol 0).quarantined 7 = false ∧ ((ks fun p => p.onWdn fun w => { w with quar := [(0, ⟨7, true⟩)] }).pol 0).quarantined 7 = true) ∧
    (ks.targetDown 0 0x10 = false ∧ (atMod (fun m => { m with rails := [] }) ks).targetDown 0 0x10 = true) ∧
    ((ks.pol 0).heldCtx.contains 7 = false ∧ ({ ks.pol 0 with heldCtx := [7] }).heldCtx.contains 7 = true) ∧
    (ks.pol 0).wdn.st = .running ∧ (cmd14 (cmd (entry 0) .ready) fun m => { m with keeper := .noImage }).mod.keeper = .noImage := by
  decide +kernel
/-- The opcodes of the commands' statement, each dispatched at polder 0, and those of the module at target 0x80. -/
def runs14 (op : Nat) : Bool := decide ((cmd14 (cmd (entry op))).RunsAt 3 0x77 op (cmd (entry op)) 0)
def runsMod14 (op : Nat) : Bool := decide ((cmd14 (cmd (entry op 0x80))).Runs 3 0x77 op (cmd (entry op 0x80)))
theorem test_hyps_opcodes :
    [0x01, 0x02, 0x10, 0x11, 0x12, 0x13, 0x14, 0x15, 0x16, 0x20].all runs14 = true ∧
    [0x00, 0x30, 0x31, 0x32, 0x33, 0x40, 0x41, 0x50].all runsMod14 = true ∧
    (2 ^ 26 ≤ payload (entry 1 0 0 (2 ^ 26)) 0 4 ∧ payload (entry 1) 0 4 < 2 ^ 26) ∧
    (restoreOk (BitVec.ofNat 512 (0x2408 + 3 * 2 ^ 16)) [BitVec.ofNat 128 (2 ^ 64)] = true ∧ restoreOk 0 [] = false) := by
  decide +kernel

/-- A firmware image of 512 bytes signed, outside this model, with the key whose digest is `fwKey15`. -/
def fwImage15 : List Byte := bytesOf (BitVec.ofNat 2112 0x38af10f0fe3e36cfbd7eb1f5b3a49f63311bfce2f4d16b9246d11b959d404efc7cb469f8c97569fe352dba6cadad0b26fee18a62766e24ae6e36b5b09b32ed464b44d1a22718aebe7423591215e3361caf37b364362fac0ba11487ac5255ac64000000000000000ab9bf0ba61947b9a3edff81daff6f57faf8d6963d1dcac83a0119ff125ce8708cf5f714a6c61686f28878ef3c43cd6716a8340343e215e16226a0f15e44de8a52a9d5fac8fb712787194ee7e402a978e1b7de91a850d618de75b2ce15807143045bb99848f1d21ad5fb656fe7bfde4e27dae1f663bfc70c4c4307be1411b7fd216ae3b1b17e32d94c3896ac51a760b03800000000000000020000000156465753) 264 ++ List.replicate 248 0
def fwKey15 : BitVec 384 := 0xba91cb3a4e314f0c4c4fcb606da8491b20ddc59a21df35cdfd6f6607cc8c9520a3f6b6d883ce8ff1f8fa2e9f7253badd
/-- The image verifies under its key (P-384, SHA-384); one of other bytes does not. -/
theorem test_firmware_verifies : ({ Fuses.standard with fwKey := fwKey15 }.fwReason fwImage15) = 0 := by decide +kernel
theorem test_hyps_firmware :
    (let s := cmd14 (cmd (entry 0x40 0x80 0 (512 * 2 ^ 128)))
     let c := cmd (entry 0x40 0x80 0 (512 * 2 ^ 128))
     s.Runs 3 0x77 0x40 c ∧ payload c.entry 16 4 = 512 ∧ decide (payload c.entry 0 1 % 2 = 1) = false ∧ s.mod.running = true) ∧
    ((cmd14 (cmd (entry 0x40)) fun m => { m with running := false }).mod.running = false) ∧
    (∀ b ∈ [fwImage15, List.replicate 512 0], b.length = 512 ∧ fwField b 12 4 = 0) ∧ Fuses.standard.fwReason (List.replicate 512 0) ≠ 0 ∧
    (let s := cmd14 (cmd (entry 1) (.held true)) fun m => { m with kreset := true }
     (s.mod.slot 3).find 0x77 = some (cmd (entry 1) (.held true)) ∧ s.mod.kreset = true) := by decide +kernel
/-- Flash with a good image in neither, one or both slots. -/
def flash (a b : Bool) (m : Module) : Module :=
  { m with fuses := { m.fuses with fwKey := fwKey15 }
           images := (if a then [(0, ⟨fwImage15⟩)] else []) ++ (if b then [(1, ⟨fwImage15⟩)] else []) }
theorem test_hyps_flash (b : Bool) : (atMod (flash true b) ks).mod.slotOk false = true :=
  congrArg (· == 0) test_firmware_verifies
theorem test_hyps_keeper :
    (ks.mod.keeper = .ready ∧ ks.mod.power = .on) ∧
    ((atMod (flash true false) ks).mod.slotOk true = false) ∧ (ks.mod.slotOk true = false ∧ ks.mod.slotOk false = false) ∧
    (atMod (fun m => { m with keeper := .booting }) ks).mod.bootOther = false ∧
    (atMod (fun m => { m with bootOther := true }) ks).mod.bootOther = true ∧
    ((ks.pol 0).hostHold = false ∧ (ks.pol 0).workDone = true ∧ (ks.pol 0).stepHold = false ∧ ks.live 0 5 = true) := by decide +kernel
theorem test_hyps_module_writes : ks.AdmitsMod (KQ + 0x0C) ag ∧ ks.AdmitsMod (CFGM + 0x50) ag ∧ ks.AdmitsMod (FUS + 0x8C) ⟨.debug, 7⟩ ∧
    ks.AdmitsMod (FUS + 0x8C) fw ∧ ks.AdmitsMod (SEC + 0x0C) fw ∧ ks.Admits 0 (GAU + 0x44) ag := by
  simp only [admits_iff, admitsMod_iff]; decide +kernel
/-- An image whose every polder passes the checks, and one that does not. -/
def img15 : Image :=
  [0, 1, 2, 3].foldl (fun m k => [(GAU + 0x44, 0x00011810), (GAU + 0x68, 0x4011), (GAU + 0x80, 0x10000), (GAU + 0x84, 0x07003040),
    (INL + 0x5C, 0x10000)].foldl (fun m e => m.set k e.1 0 e.2) m) (Image.zero.set 0 (FLX0 + 0x40) 0 5)
theorem test_hyps_configuration :
    (ks.mod.staged = none ∧ ks.mod.commit = none ∧ ks.mod.previous = none ∧ ks.mod.cfgNext ≠ 0xFFFFFFFF) ∧
    (((atMod (fun m => { m with staged := some img15, sealed := true }) ks).checkImage img15).2 = none) ∧
    (((atMod (fun m => { m with staged := some img8, sealed := true }) ks).checkImage img8).2.isSome = true) := by decide +kernel
theorem test_hyps_commit :
    (let s := atMod (fun m => { m with staged := some img15, commit := some ⟨false, none⟩ }) ks
     s.mod.keeper = .ready ∧ ((List.finRange 4).all s.drained) = true) ∧
    ((List.finRange 4).all (ks fun p => (headed 1 p).onMem fun m => { m with edits := [ed 1] }).drained) = false ∧
    (polPage (GAU + 0x44)).any (fun g => (regAt g.blk (GAU + 0x44)).any fun r =>
      r.acc == .rws && !(ks.pol 0).deadTier g ((GAU + 0x44) % 0x1000) ag) = true ∧
    rwsLow (GAU + 0x44) = false ∧ rwsLow (GAU + 0x40) = false := by decide +kernel
theorem test_hyps_fuses :
    ks.mod.fuses.fieldLock = false ∧ ks.mod.blow = none ∧ (atMod (fun m => { m with blow := some (0, 5) })).mod.blow = some (0, 5) ∧
    ks.mod.fallback = false ∧
    (∀ n ∈ [0, 3],
      let m := (atMod fun m => { m with images := [(1, ⟨List.replicate 8 0 ++ le 4 n ++ List.replicate 600 0⟩)] }).mod
      m.svn? m.running = some n ∧ n ≤ 64 ∧ decide (n ≤ m.fuses.arbCount) = decide (n = 0)) := by decide +kernel

/-! ## The Inlet -/

/-- Stream 2 is IN with a 64 KiB ring at 0x20000 of tier 1, stream 3 is OUT; both sessions are 9 and the port is up. -/
def img16 (m : Image) : Image :=
  [(INL + 0x80, 2, 0x00070302), (INL + 0x80, 3, 1), (INL + 0xA0, 2, 0x20000), (INL + 0xA4, 2, (own 1 0).toNat / 2 ^ 32), (INL + 0xA8, 2, 16),
    (INL + 0xAC, 2, 0x00020001), (INL + 0x5C, 0, 0x00010002)].foldl (fun m e => m.set 0 e.1 e.2.1 (BitVec.ofNat 32 e.2.2)) m
def inlet (f : Polder → Polder := id) : State := atMod (fun m => { m with active := img16 m.active }) (ks f)
def out16 (o : Nat) : OutFrame := ⟨o, List.replicate 64 1, false, false, 3⟩
def inletUp (v : Stream → Stream := id) (i : Inlet → Inlet := id) (p : Polder) : Polder :=
  (((p.onInlet fun n => i { n with up := true }).setStream 2 (v { Stream.reset with session := 9 })).setStream 3
    { Stream.reset with session := 9, next := 200, limit := 400, flying := [out16 0, out16 64, out16 128], delivered := 64 })
def staged16 (o n : Nat) : Staged := ⟨2, 9, o, List.replicate n 3, true, false⟩
theorem test_hyps_inlet_data :
    (let s := inlet (inletUp)
     let q := s.pol 0
     let x := s.ctxOf 0
     s.live 0 5 = true ∧ q.inlet.up = true ∧ (frame 1 2 9 0 64).srcIp = x.peerIp q 2 ∧ x.strOut q 2 = false ∧ x.strOut q 3 = true ∧
       (frame 1 2 9 0 64).session = (q.stream 2).session ∧ (q.stream 2).expect = 0 ∧ 64 ≤ x.creditEnd q 2 ∧
       4 * ((q.stream 2).used + 64) ≤ 3125 * bitsN (x.cfg q (INL + 0xAC) 2) 16 9 ∧ 64 ≤ x.stagingFree q 2 ∧ (inlet.pol 0).inlet.up = false) ∧
    (let s := inlet (inletUp fun v => { v with used := 1600 })
     3125 * bitsN (s.ctxOf 0 |>.cfg (s.pol 0) (INL + 0xAC) 2) 16 9 < 4 * (((s.pol 0).stream 2).used + 64)) ∧
    (frame 1 2 9 0 64).wf = true ∧ (frame 2 3 9 100 0 500).payload = [] ∧ (frame 1 2 9 0 64).payload.length = 64 ∧
    ((frame 1 2 9 64 64).offset.toNat ≠ 0 ∧ (frame 1 2 8 0 64).session ≠ 9) := by decide +kernel
/-- A stream without a staging share has no room. -/
theorem test_hyps_inlet_busy :
    (let s := atMod (fun m => { m with active := m.active.set 0 (INL + 0x80) 2 0x00070002 }) (inlet (inletUp))
     64 ≤ (s.ctxOf 0).creditEnd (s.pol 0) 2 ∧ (s.ctxOf 0).stagingFree (s.pol 0) 2 < 64) := by decide +kernel
theorem test_hyps_inlet_deliver :
    (inlet.pol 0).inlet.staging = [] ∧ inlet.live 0 4 = true ∧
    (let s := inlet fun p => inletUp id (fun i => { i with staging := [staged16 0 64] }) (poke p 1 0x20000 [])
     (s.pol 0).inlet.nextStaged = some (staged16 0 64) ∧
       (Polder.writeRings (s.ctxOf 0) 2 (ringPieces ((s.ctxOf 0).ringBytes (s.pol 0) 2) 0 (List.replicate 64 3)) (s.pol 0)).2 = true) ∧
    (let s := atMod (fun m => { m with active := m.active.set 0 (INL + 0xA4) 2 0 }) (inlet fun p =>
       inletUp id (fun i => { i with staging := [staged16 0 64] }) p)
     (Polder.writeRings (s.ctxOf 0) 2 (ringPieces ((s.ctxOf 0).ringBytes (s.pol 0) 2) 0 (List.replicate 64 3)) (s.pol 0)).2 = false) := by
  decide +kernel
theorem test_hyps_inlet_writes : inlet.Admits 0 (INL + 0x84) ag ∧ inlet.Admits 0 (INL + 0xB4) ag ∧
    (let s := inlet fun p => (inletUp id id p).wr (INL + 0x7C) 2
     let x := (s.noted ag).ctxOf 0
     (s.pol 0).sel (INL + 0x7C) ag = 2 ∧ x.strOut (s.pol 0) 2 = false ∧
       s.mod.denied .inlet (ringClass (x.ringBase (s.pol 0) 2)) true = false ∧
       (deny11 s).mod.denied .inlet (ringClass (x.ringBase (s.pol 0) 2)) true = true) := by
  simp only [admits_iff]; decide +kernel
theorem test_hyps_inlet_sends :
    (let s := inlet (inletUp)
     let q := s.pol 0
     let x := s.ctxOf 0
     q.outOpen x 3 = true ∧ q.inlet.paused.getLsbD (x.strPrio q 3) = false ∧ q.outOpen x 2 = false ∧ x.pfcOn q 1 = true ∧
       x.strPrio q 2 = 1 ∧ 2 * (65536 * bitsN (x.cfg q (INL + 0x5C)) 16 8) ≤ x.stagingFree q 2) ∧
    ((inlet (inletUp id fun i => { i with xoff := 2 })).pol 0).inlet.xoff.getLsbD 1 = true ∧
    (((inlet fun p => p.wr (INL + 0x0C) 1).pol 0).rd (INL + 0x0C)).getLsbD 0 = true := by decide +kernel

/-! ## Supply, power and temperature -/

theorem test_hyps_supply :
    (∀ e ∈ [(.off, false), (.tripped, false), (.charging, true), (.modReset, true), (.on, true)],
      (atMod fun m => { m with power := e.1 }).mod.power = e.1 ∧ (atMod fun m => { m with power := e.1 }).mod.power.up = e.2) ∧
    (atMod (fun m => { flash true false m with power := .modReset }) ks).mod.power = .modReset ∧ ks.mod.blow = none ∧
    ks.mod.perst.getLsbD 0 = true ∧ (atMod fun m => { m with perst := 1 }).mod.perst ≠ 3 := by decide +kernel
theorem test_hyps_rails :
    (let s := atMod (fun m => { m with rails := [] }) ks
     s.mayPower 0 = true ∧ (∀ r, s.mayPower r = true → 0 ≤ r)) ∧ ks.mayPower 0 = false ∧
    (ks.mod.offBy.getLsbD 0 = false ∧ (atMod fun m => { m with offBy := 1 }).mod.offBy.getLsbD 0 = true) ∧
    (ks.mod.powered 0 = true ∧ (ks.pol 0).afterTrip = false ∧
      ((wdn fun w => { w with ladders := [⟨.power, false, false, 9, 3, 5, 1⟩] }).pol 0).afterTrip = true) ∧
    ks.wdnLive 0 = true ∧ (ks.pol 0).gauge.crit = false := by decide +kernel
theorem test_hyps_critical : ks.AdmitsMod (PWR + 0x50) fw ∧
    (let s := atMod (fun m => { m with active := m.active.set 0 (GAU + 0x40) 0 0x30 }) (ks fun p =>
       p.onGauge fun g => { g with bin := 7, crit := true })
     (s.pol 0).gauge.crit = true ∧ (s.cfg 0 (GAU + 0x40)).getLsbD 5 = true) := by
  simp only [admitsMod_iff]; decide +kernel

/-! ## Registers -/

/-- A page's name, and what a requester meets there. -/
def gate16 (s : State) (off : Nat) (w : Who) (write : Bool) : Option Gate := (polPage off).map fun g => s.polGate 0 g.blk.cls off w write
theorem test_hyps_register_gates :
    gate16 ks (SPW + 0x44) ag false = some .open ∧ gate16 ks (SPW + 0x44) ⟨.debug, 0⟩ false = some .open ∧
    gate16 (atMod (fun m => { m with rails := [] }) ks) (SPW + 0x44) ag false = some .down ∧
    gate16 (deny11 ks) (SPW + 0x44) ag false = some .denied ∧
    (modPage (CFGM + 0x54)).any (fun g => decide (ks.modGate g.blk.cls ag false = .open)) = true ∧ ks.cellGate c0 ag false = .open := by
  decide +kernel
def reg16 (off : Nat) (P : Page → RegInfo → Bool) : Bool := (polPage off).any fun g => (g.blk.find (off % 0x1000)).any (P g)
theorem test_hyps_register_kinds :
    reg16 (SPW + 0x44) (fun _ r => r.acc == .rws) = true ∧ reg16 (INL + 0xC4) (fun _ r => r.acc == .rc || r.acc == .ro) = true ∧
    reg16 (GRD + 0x44) (fun g r => r.acc == .rw && g.blk.isSel 0x44 || r.acc == .ro || r.acc == .rw) = true ∧
    reg16 (WDN + 0x40) (fun g r => r.acc == .rw && !g.blk.isSel 0x40 && ((ks.noted ag).writeAct 0 g 0x40 0 ag 5).isNone) = true ∧
    reg16 (WDN + 0x90) (fun g r => r.acc == .rw && g.blk.isSel 0x90) = true ∧
    reg16 (TWN + 0x80) (fun g _ => pairLow g.blk 0x80) = true ∧ reg16 (TWN + 0x84) (fun _ _ => true) = true ∧
    (List.range 1024).any (fun k => reg16 (FLX0 + 4 * k) fun g r => r.acc == .rc && 16 ≤ k && !capturesHigh g.blk (4 * k) &&
      !highHalf g.blk (4 * k)) = true := by decide +kernel
theorem test_hyps_actions : ∀ o ∈ [GRD + 0x4C, GRD + 0x58, GRD + 0x84, GRD + 0x128, FLX2 + 0x4C, PMP + 0x48, WDN + 0x0C, GRD + 0x0C],
    (polPage o).any (fun g => decide (ks.polGate 0 g.blk.cls o ag true = .open)) = true := by decide +kernel

/-! ## The whole machine -/

theorem test_hyps_image_numbers : State.reset.mod.GensBelow ∧ ∃ t, step { on with pending := [.perstRelease 0] } = .next t := by
  refine ⟨?_, _, rfl⟩
  simp [Module.GensBelow, Module.gens, State.reset, Module.reset]
theorem test_hyps_settled : (on.pol 0).gauge.queue = [] ∧ (on.pol 0).ended = [] ∧ (on.pol 0).gauge.imgWait = false ∧ on.pending = [] := by
  decide +kernel
theorem test_hyps_well_formed : (Instr.perstRelease 0).wf = true ∧ Instr.wf (.bar4Access 0 0 (.read 0)) = false ∧
    ¬ Instr.within (.cellReset c0) 1 := by
  refine ⟨rfl, rfl, ?_⟩
  exact fun h => absurd h (show ¬ (Instr.polder? (.cellReset c0) = none ∨ Instr.polder? (.cellReset c0) = some 1) by decide +kernel)

end Sys2Proof.Tests
end

/-! PROOFS. Field-program words: the opcode's number, the fields at their bits, and what a legal word leaves zero
(R32, R34, R36). -/

namespace Sys2Proof.Machine

@[simp] theorem FieldOp.ofCode_code (o : FieldOp) : FieldOp.ofCode o.code = some o := by cases o <;> rfl

theorem FieldOp.code_lt (o : FieldOp) : o.code < 2 ^ 6 := by cases o <;> decide

theorem FieldOp.code_of_ofCode {n : Nat} {o : FieldOp} (h : FieldOp.ofCode n = some o) : o.code = n := by
  unfold FieldOp.ofCode at h
  split at h <;> cases h <;> rfl

/-- The numbers of R34 name their opcodes and no others. -/
theorem FieldOp.ofCode_eq_some_iff {n : Nat} {o : FieldOp} : FieldOp.ofCode n = some o ↔ o.code = n :=
  ⟨FieldOp.code_of_ofCode, fun h => h ▸ o.ofCode_code⟩

/-- The fields `i` stand in the word `w` at the bits of R32. -/
structure FieldIns.StandsIn (i : FieldIns) (w : W64) : Prop where
  op : i.op.code = bitsN w 58 6
  rd : i.rd = bits w 53 5
  ra : i.ra = bits w 48 5
  rb : i.rb = bits w 43 5
  rc : i.rc = bits w 38 5
  fmt : i.fmt = bits w 34 4
  rnd : i.rnd = bits w 32 2
  imm : i.imm = bits w 0 32

theorem decodeField_eq_some_iff {w : W64} {i : FieldIns} : decodeField w = some i ↔ i.StandsIn w := by
  unfold decodeField
  rw [Option.map_eq_some_iff]
  constructor
  · rintro ⟨o, ho, rfl⟩
    exact ⟨FieldOp.ofCode_eq_some_iff.1 ho, rfl, rfl, rfl, rfl, rfl, rfl, rfl⟩
  · intro h
    refine ⟨i.op, FieldOp.ofCode_eq_some_iff.2 h.op, ?_⟩
    rw [← h.rd, ← h.ra, ← h.rb, ← h.rc, ← h.fmt, ← h.rnd, ← h.imm]

/-- Each field is found by passing the fields below it and dropping those above it. -/
theorem FieldIns.standsIn_encode (i : FieldIns) : i.StandsIn i.encode := by
  have hop : (BitVec.ofNat 6 i.op.code).toNat = i.op.code := Nat.mod_eq_of_lt i.op.code_lt
  constructor <;>
    simp only [FieldIns.encode, bits, bitsN, BitVec.extractLsb'_append_eq_of_le, BitVec.extractLsb'_append_eq_right,
      BitVec.extractLsb'_eq_self, hop, Nat.reduceLeDiff, Nat.reduceSub]

/-- Neighbouring fields join, so the eight fields make up the word. -/
theorem FieldIns.StandsIn.encode_eq {i : FieldIns} {w : W64} (h : i.StandsIn w) : i.encode = w := by
  have hop : BitVec.ofNat 6 i.op.code = bits w 58 6 := by rw [h.op, BitVec.ofNat_toNat, BitVec.setWidth_eq]
  unfold FieldIns.encode
  rw [hop, h.rd, h.ra, h.rb, h.rc, h.fmt, h.rnd, h.imm]
  iterate 7 rw [BitVec.extractLsb'_append_extractLsb'_eq_extractLsb' (by rfl)]
  exact BitVec.extractLsb'_eq_self

theorem FieldIns.reservedZero_iff (i : FieldIns) : i.reservedZero = true ↔
    i.rd &&& ~~~i.op.form.rd = 0 ∧ (i.op.form.ra = false → i.ra = 0) ∧ (i.op.form.rb = false → i.rb = 0) ∧
    (i.op.form.rc = false → i.rc = 0) ∧ (i.op.form.fmt = false → i.fmt = 0) ∧ (i.op.form.rnd = false → i.rnd = 0) ∧
    i.imm &&& ~~~i.op.form.imm = 0 := by
  simp only [FieldIns.reservedZero, Bool.and_eq_true, Bool.or_eq_true_iff, beq_iff_eq, and_assoc,
    or_iff_not_imp_left, Bool.not_eq_true]

theorem FieldIns.legal_iff (i : FieldIns) : i.legal = true ↔
    i.reservedZero = true ∧ i.fmtOk = true ∧ i.dfmtOk = true ∧ i.rnd ≠ 3 ∧ i.namesOk = true := by
  simp only [FieldIns.legal, Bool.and_eq_true, bne_iff_ne, and_assoc]

/-- Settles O7: decoding answers exactly the fields that stand in the word, and those determine it. -/
theorem fieldWordsReadBack : Obligations.FieldWordsReadBack := by
  unfold Obligations.FieldWordsReadBack
  refine ⟨fun i => decodeField_eq_some_iff.2 i.standsIn_encode, fun w i hw => ?_, fun i hi => ?_⟩
  · have h := decodeField_eq_some_iff.1 hw
    exact ⟨h.encode_eq, h.op, h.rd, h.ra, h.rb, h.rc, h.fmt, h.rnd, h.imm⟩
  · obtain ⟨hzero, -, -, hrnd, -⟩ := i.legal_iff.1 hi
    exact ⟨hrnd, i.reservedZero_iff.1 hzero⟩

end Sys2Proof.Machine

/-! PROOFS. Slot tables: what a write leaves in them, which writes are refused, and the spacing of the seam-facing
outputs of the data net (R97, R101, R129). -/

namespace Sys2Proof.Machine

/-- Two slots of a tide lie less than four apart, modulo 64 (R97). -/
def SlotsNear (i j : Nat) : Prop := (i + 64 - j) % 64 < 4 ∨ (j + 64 - i) % 64 < 4

/-- The valid slots of every seam-facing output of the data net lie at least four apart (R97). -/
def Grid.Spaced (g : Grid) : Prop :=
  ∀ k o i j, k < 40960 → o < 4 → crossesSeam k o = true → i < 64 → j < 64 → i ≠ j →
    (g.slotAt 0 k o i).getLsbD 15 = true → (g.slotAt 0 k o j).getLsbD 15 = true → ¬ SlotsNear i j

theorem SlotsNear.symm {i j : Nat} (h : SlotsNear i j) : SlotsNear j i := Or.symm h

/-- The six offsets that `Grid.breaksSpacing` looks at are those of the other slots near a slot. -/
theorem SlotsNear.exists_offset {slot i : Nat} (hs : slot < 64) (hi : i < 64) (hne : i ≠ slot)
    (h : SlotsNear slot i) : ∃ d ∈ ([1, 2, 3, 61, 62, 63] : List Nat), (slot + d) % 64 = i := by
  refine ⟨(i + 64 - slot) % 64, ?_, by omega⟩
  unfold SlotsNear at h
  simp only [List.mem_cons, List.not_mem_nil, or_false]
  omega

/-- Tables and slots of cells of one net have keys of their own, and the data net's are its alone (R101, R108). -/
theorem slotKey_eq_data_iff {net cell table slot k o i : Nat} (hcell : cell < 40960) (htable : table < 8)
    (hslot : slot < 64) (hk : k < 40960) (ho : o < 8) (hi : i < 64) :
    slotKey 0 k o i = slotKey net cell table slot ↔ net = 0 ∧ k = cell ∧ o = table ∧ i = slot := by
  unfold slotKey
  omega

/-- An entry of the data net after a write of a slot-table entry. -/
theorem Grid.slotAt_set (g : Grid) (e : BitVec 16) {net cell table slot k o i : Nat} (hcell : cell < 40960)
    (htable : table < 8) (hslot : slot < 64) (hk : k < 40960) (ho : o < 8) (hi : i < 64) :
    Grid.slotAt { g with slots := SMap.set (fun _ => 0) g.slots (slotKey net cell table slot) e } 0 k o i =
      if net = 0 ∧ k = cell ∧ o = table ∧ i = slot then e else g.slotAt 0 k o i := by
  unfold Grid.slotAt
  simp only [SMap.get_set, slotKey_eq_data_iff hcell htable hslot hk ho hi]

theorem Grid.breaksSpacing_iff (g : Grid) (cell table slot : Nat) (e : BitVec 16) :
    g.breaksSpacing cell table slot e = true ↔
      e.getLsbD 15 = true ∧ table < 4 ∧ crossesSeam cell table = true ∧
        ∃ d ∈ ([1, 2, 3, 61, 62, 63] : List Nat), (g.slotAt 0 cell table ((slot + d) % 64)).getLsbD 15 = true := by
  simp only [Grid.breaksSpacing, Bool.and_eq_true, decide_eq_true_eq, List.any_eq_true, and_assoc]

/-- A valid entry near another of the same seam-facing output breaks the spacing. -/
theorem Grid.breaksSpacing_of_near (g : Grid) {cell table slot i : Nat} {e : BitVec 16} (he : e.getLsbD 15 = true)
    (ht : table < 4) (hx : crossesSeam cell table = true) (hs : slot < 64) (hi : i < 64) (hne : i ≠ slot)
    (hv : (g.slotAt 0 cell table i).getLsbD 15 = true) (hn : SlotsNear slot i) :
    g.breaksSpacing cell table slot e = true := by
  obtain ⟨d, hd, rfl⟩ := hn.exists_offset hs hi hne
  exact (g.breaksSpacing_iff cell table slot e).2 ⟨he, ht, hx, d, hd, hv⟩

/-- A write that does not break the spacing keeps it, in whatever net and table it lands. -/
theorem Grid.Spaced.set {g : Grid} (hg : g.Spaced) {net cell table slot : Nat} {e : BitVec 16} (hcell : cell < 40960)
    (htable : table < 8) (hslot : slot < 64) (hok : net = 0 → g.breaksSpacing cell table slot e = false) :
    Grid.Spaced { g with slots := SMap.set (fun _ => 0) g.slots (slotKey net cell table slot) e } := by
  intro k o i j hk ho hx hi hj hne hvi hvj hn
  rw [g.slotAt_set e hcell htable hslot hk (by omega) hi] at hvi
  rw [g.slotAt_set e hcell htable hslot hk (by omega) hj] at hvj
  split at hvi <;> split at hvj
  case isTrue.isTrue hwi hwj =>
    obtain ⟨-, -, -, rfl⟩ := hwi
    obtain ⟨-, -, -, rfl⟩ := hwj
    exact hne rfl
  case isTrue.isFalse hwi hwj =>
    obtain ⟨hnet, rfl, rfl, rfl⟩ := hwi
    exact absurd (g.breaksSpacing_of_near hvi ho hx hi hj hne.symm hvj hn) (by simp [hok hnet])
  case isFalse.isTrue hwi hwj =>
    obtain ⟨hnet, rfl, rfl, rfl⟩ := hwj
    exact absurd (g.breaksSpacing_of_near hvj ho hx hj hi hne hvi hn.symm) (by simp [hok hnet])
  case isFalse.isFalse => exact hg k o i j hk ho hx hi hj hne hvi hvj hn

/-- The valid bit is among the bits of the written word that an entry keeps (R101). -/
theorem tableEntry_valid (v : W32) (net : Nat) :
    (bits v 0 16 &&& (if net = 0 then 0xFC00 else 0xF000 : BitVec 16)).getLsbD 15 = v.getLsbD 15 := by
  split <;> simp [bits]

theorem Polder.writeTable_of_breaksSpacing (q : Polder) (sel : Nat) (v : W32) (hnet : sel / 2 ^ 19 % 2 = 0)
    (h : q.grid.breaksSpacing (sel % 256 * 160 + sel / 256 % 256) (sel / 2 ^ 16 % 8) (sel / 2 ^ 20 % 64)
      (bits v 0 16 &&& 0xFC00) = true) :
    q.writeTable sel v = q.raise GRD 9 := by
  unfold Polder.writeTable
  simp only [hnet, ↓reduceIte, h, beq_self_eq_true, Bool.and_self, Bool.or_true]

/-- A write of a slot table is refused, or it stores an entry of a cell of the grid that keeps the spacing (R129). -/
theorem Polder.writeTable_cases (q : Polder) (sel : Nat) (v : W32) :
    q.writeTable sel v = q.raise GRD 9 ∨
    ∃ net cell table slot e, cell < 40960 ∧ table < 8 ∧ slot < 64 ∧
      (net = 0 → q.grid.breaksSpacing cell table slot e = false) ∧
      q.writeTable sel v = q.onGrid fun g =>
        { g with slots := SMap.set (fun _ => 0) g.slots (slotKey net cell table slot) e } := by
  unfold Polder.writeTable
  dsimp only
  generalize (bits v 0 16 &&& if sel / 2 ^ 19 % 2 = 0 then 0xFC00 else 0xF000 : BitVec 16) = e
  split
  case isTrue => exact .inl rfl
  case isFalse hok =>
    simp only [Bool.or_eq_true, Bool.and_eq_true, Bool.not_eq_true', beq_iff_eq, not_or, not_and, Bool.not_eq_false,
      Bool.not_eq_true, decide_eq_true_eq] at hok
    obtain ⟨⟨⟨⟨-, hcol⟩, -⟩, -⟩, hspace⟩ := hok
    exact .inr ⟨_, _, _, _, _, by omega, by omega, by omega, hspace, rfl⟩

theorem Polder.writeTable_keeps_spaced (q : Polder) (sel : Nat) (v : W32) (hq : q.grid.Spaced) :
    (q.writeTable sel v).grid.Spaced := by
  obtain h | ⟨net, cell, table, slot, e, hcell, htable, hslot, hok, h⟩ := q.writeTable_cases sel v
  · rw [h, Polder.raise_grid]
    exact hq
  · rw [h, Polder.onGrid_grid]
    exact hq.set hcell htable hslot hok

/-- An admitted write gives the polder the tables that `Polder.writeTable` leaves. -/
theorem exec_slotTableWrite {p : Pid} {s : State} {w : Who} (v : W32) (h : s.Admits p (GRD + 0x58) w) :
    s.GivesW w (.slotTableWrite p w v) p ((s.pol p).writeTable ((s.pol p).sel (GRD + 0x54) w) v) :=
  congrArg Host.Outcome.next (s.writePage_eq p (GRD + 0x58) w _ h)

theorem State.pol_settle_grid (s : State) (p : Pid) (b : Bool) (q : Polder) : ((s.settle p b q).pol p).grid = q.grid := by
  unfold State.settle State.pol
  dsimp only
  rw [Quad.get_set_same]

/-- Settles O8: a near valid entry is among the slots that the check reads, so the write is refused; a write that
passes the check lands no valid entry near another. -/
theorem slotTableWritesKeepTheSpacing : Obligations.SlotTableWritesKeepTheSpacing := by
  unfold Obligations.SlotTableWritesKeepTheSpacing
  intro p s w v h
  refine ⟨fun i hnet hout hx hv hi hne hvi hn => ?_, fun hq => ⟨_, exec_slotTableWrite v h, ?_⟩⟩
  · have hv' := (tableEntry_valid v 0).trans hv
    rw [← (s.pol p).writeTable_of_breaksSpacing _ v hnet
      ((s.pol p).grid.breaksSpacing_of_near hv' hout hx (by omega) hi hne hvi hn)]
    exact exec_slotTableWrite v h
  · rw [State.pol_settle_grid]
    exact (s.pol p).writeTable_keeps_spaced _ v hq

end Sys2Proof.Machine

/-! PROOFS. Event bits of the pages: what a write of a header location reaches, and what EVENT and EVENT_FORCE do to
the registers of a page (R507, R510 to R512). -/

namespace Sys2Proof.Machine

/-- Locations of one page have one entry in the directory (R521). -/
theorem polPage_congr {a b : Nat} (h : a / 0x1000 = b / 0x1000) : polPage a = polPage b := by
  have lt (n : Nat) : a < 0x1000 * n ↔ b < 0x1000 * n := by omega
  have le (n : Nat) : 0x1000 * n ≤ a ↔ 0x1000 * n ≤ b := by omega
  have sub (n : Nat) : (a - 0x1000 * n) / 0x1000 = (b - 0x1000 * n) / 0x1000 := by
    rw [Nat.sub_mul_div, Nat.sub_mul_div, h]
  have hdie : (a - 0x1000000) / 0x400000 = (b - 0x1000000) / 0x400000 := by omega
  have hrow : (a - 0x1000000) % 0x400000 / 0x1000 = (b - 0x1000000) % 0x400000 / 0x1000 := by omega
  simp only [polPage, h, hdie, hrow, show a < 0x5000 ↔ b < 0x5000 from lt 5,
    show 0x1000000 ≤ a ↔ 0x1000000 ≤ b from le 0x1000, show a < 0x2000000 ↔ b < 0x2000000 from lt 0x2000,
    show 0x2000000 ≤ a ↔ 0x2000000 ≤ b from le 0x2000, show a < 0x2800000 ↔ b < 0x2800000 from lt 0x2800,
    show 0x2800000 ≤ a ↔ 0x2800000 ≤ b from le 0x2800, show a < 0x4000000 ↔ b < 0x4000000 from lt 0x4000,
    show (a - 0x2000000) / 0x1000 = (b - 0x2000000) / 0x1000 from sub 0x2000,
    show (a - 0x2800000) / 0x1000 = (b - 0x2800000) / 0x1000 from sub 0x2800]

theorem modPage_congr {a b : Nat} (h : a / 0x1000 = b / 0x1000) : modPage a = modPage b := by
  have hlo : a < 0x10000000 ↔ b < 0x10000000 := by omega
  have hhi : 0x10007000 ≤ a ↔ 0x10007000 ≤ b := by omega
  have hi : (a - 0x10000000) / 0x1000 = (b - 0x10000000) / 0x1000 := by omega
  simp only [modPage, hlo, hhi, hi]

theorem pageDie_congr {a b : Nat} (h : a / 0x1000 = b / 0x1000) : pageDie a = pageDie b := by
  have hlo : 0x1000000 ≤ a ↔ 0x1000000 ≤ b := by omega
  have hhi : a < 0x2000000 ↔ b < 0x2000000 := by omega
  have hmem : 0x2800000 ≤ a ↔ 0x2800000 ≤ b := by omega
  have hdie : (a - 0x1000000) / 0x400000 = (b - 0x1000000) / 0x400000 := by omega
  simp only [pageDie, hlo, hhi, hmem, hdie]

theorem Polder.pageDown_congr (p : Polder) {a b : Nat} (h : a / 0x1000 = b / 0x1000) : p.pageDown a = p.pageDown b := by
  simp only [Polder.pageDown, h, pageDie_congr h, polPage_congr h]

/-- Locations of one page meet one gate. -/
theorem State.polGate_congr (s : State) (q : Pid) (cls : PageClass) (w : Who) (write : Bool) {a b : Nat}
    (h : a / 0x1000 = b / 0x1000) : s.polGate q cls a w write = s.polGate q cls b w write := by
  simp only [State.polGate, h, Polder.pageDown_congr _ h]

/-- Every row of the directory gives its page the base of the location (R521). -/
theorem polPage_base {off : Nat} {g : Page} (h : polPage off = some g) : g.base = off / 0x1000 * 0x1000 := by
  unfold polPage at h
  dsimp only at h
  repeat' split at h
  all_goals grind

theorem modPage_base {off : Nat} {g : Page} (h : modPage off = some g) : g.base = off / 0x1000 * 0x1000 := by
  unfold modPage at h
  split at h
  case isTrue => exact absurd h (by simp)
  case isFalse hoff =>
    obtain ⟨b, -, rfl⟩ := Option.map_eq_some_iff.1 h
    simp only [Bool.or_eq_true, decide_eq_true_eq, not_or] at hoff
    dsimp only
    omega

/-- The register tables list no header location (R505). -/
theorem Blk.find_header (b : Blk) {o : Nat} (h : o < 0x40) : b.find o = none := by
  have hall : b.regs.all (fun r => decide (0x40 ≤ r.off)) = true := by cases b <;> rfl
  refine List.find?_eq_none.2 fun r hr hoff => ?_
  have := of_decide_eq_true (List.all_eq_true.1 hall r hr)
  rw [eq_of_beq hoff] at this
  omega

theorem State.putReg_header (s : State) (q : Pid) (g : Page) {o : Nat} (w : Who) (v : W32) (ho : o < 0x40)
    (hctrl : o ≠ 0x0C) : s.putReg q g o w v = s.onPol q fun _ p => p.writeHeader g o v := by
  rw [State.putReg, if_neg hctrl, if_pos ho]

theorem State.putModReg_header (s : State) (g : Page) {o : Nat} (w : Who) (v : W32) (ho : o < 0x40)
    (hctrl : o ≠ 0x0C) : s.putModReg g o w v = s.onMod fun m => m.writeHeader g o v := by
  rw [State.putModReg, if_neg hctrl, if_pos ho]

theorem State.putCellReg_header (s : State) (c : CellId) {o : Nat} (w : Who) (v : W32) (ho : o < 0x40)
    (hctrl : o ≠ 0x0C) :
    s.putCellReg c o w v = s.onPol c.p fun _ p => p.setCell c.key ((s.cellOf c).writeHeader o v) := by
  rw [State.putCellReg, if_neg hctrl, if_pos ho, State.cellOf]

/-- An admitted write of a header location of a polder's page (R505 to R512). -/
theorem State.headerWrite_polder {s : State} {q : Pid} {off : BitVec 26} {w : Who} {g : Page} {o : Nat} (v : W32)
    (hg : polPage off.toNat = some g) (hon : s.mod.power = .on)
    (hgate : s.polGate q g.blk.cls (g.base + 0x14) w true = .open) (ho : o < 0x40) (halign : o % 4 = 0)
    (hctrl : o ≠ 0x0C) :
    s.headerWrite (.page (.polder q off)) o w v =
      (s.noted w).settle q (s.pol q).summary ((s.pol q).writeHeader g o v) := by
  have hbase := polPage_base hg
  have hoff := off.isLt
  have hloc : (BitVec.ofNat 26 (off.toNat / 0x1000 * 0x1000 + o)).toNat = g.base + o := by
    rw [BitVec.toNat_ofNat, hbase]
    omega
  have hpage : polPage (g.base + o) = some g := (polPage_congr (by omega)).trans hg
  have hopen : s.polGate q g.blk.cls (g.base + o) w true = .open :=
    (s.polGate_congr q _ w true (by omega)).trans hgate
  have hlow : (g.base + o) % 0x1000 = o := by omega
  have hword : (g.base + o) % 4 = 0 := by omega
  have hplain : regAt g.blk (g.base + o) = none := by rw [regAt, hlow, g.blk.find_header ho]
  have hreset : g.base + o ≠ 0x44 := by omega
  simp [State.headerWrite, inPage, State.regWrite, hloc, hpage, hopen, hon, hword, State.polWrite, hplain, hlow,
    hreset, State.throughPol_eq _ _ _ _ _ hon, State.putReg_header _ _ _ _ _ ho hctrl, State.onPol_eq]

/-- An admitted write of a header location of a module page (R505 to R512). -/
theorem State.headerWrite_module {s : State} {off : BitVec 32} {w : Who} {g : Page} {o : Nat} (v : W32)
    (hg : modPage off.toNat = some g) (hon : s.mod.power = .on) (hgate : s.modGate g.blk.cls w true = .open)
    (ho : o < 0x40) (halign : o % 4 = 0) (hctrl : o ≠ 0x0C) :
    s.headerWrite (.page (.module off)) o w v = (s.noted w).onMod fun m => m.writeHeader g o v := by
  have hbase := modPage_base hg
  have hoff := off.isLt
  have hloc : (BitVec.ofNat 32 (off.toNat / 0x1000 * 0x1000 + o)).toNat = g.base + o := by
    rw [BitVec.toNat_ofNat, hbase]
    omega
  have hpage : modPage (g.base + o) = some g := (modPage_congr (by omega)).trans hg
  have hlow : (g.base + o) % 0x1000 = o := by omega
  have hword : (g.base + o) % 4 = 0 := by omega
  have hplain : regAt g.blk (g.base + o) = none := by rw [regAt, hlow, g.blk.find_header ho]
  simp [State.headerWrite, inPage, State.regWrite, hloc, hpage, hgate, hon, hword, hplain, hlow,
    State.putModReg_header _ _ _ _ ho hctrl, State.noted]

/-- An admitted write of a header location of a cell's page (R65, R505 to R512). -/
theorem State.headerWrite_cell {s : State} {c : CellId} {w : Who} {o : Nat} (v : W32) (h : s.AdmitsCell c w)
    (ho : o < 0x40) (halign : o % 4 = 0) (hctrl : o ≠ 0x0C) :
    s.headerWrite (.cell c) o w v =
      (s.noted w).settle c.p (s.pol c.p).summary ((s.pol c.p).setCell c.key ((s.cellOf c).writeHeader o v)) := by
  obtain ⟨hon, hgate⟩ := h
  have hword : (0x1F000 + o) % 4 = 0 := by omega
  have hwin : ¬ 0x1F000 + o < 0x1F000 := by omega
  simp [State.headerWrite, State.cellWrite, hon, hgate, hword, hwin, State.throughPol_eq _ _ _ _ _ hon,
    State.putCellReg_header _ _ _ _ ho hctrl, State.onPol_eq, State.cellOf]

/-! Registers of a page in which bits of EVENT are set and counted. -/

/-- Hardware or EVENT_FORCE sets an EVENT bit of the page at `b`, and EVENT_COUNT advances (R511). -/
def raiseRegs (d : Nat → W32) (b : Nat) (m : SMap W32) (bit : Nat) : SMap W32 :=
  let m := SMap.set d m (b + 0x14) (SMap.get d m (b + 0x14) ||| BitVec.ofNat 32 (2 ^ bit))
  SMap.set d m (b + 0x20) (addField (SMap.get d m (b + 0x20)) 0 16 1)

/-- EVENT of the page at `b` has gained the bits `ev`, EVENT_COUNT has advanced by `n` up to its largest value, and
the other registers are as they were (R511, R512). -/
def EventsForced (b : Nat) (ev : W32) (n : Nat) (old new : Nat → W32) : Prop :=
  new (b + 0x14) = old (b + 0x14) ||| ev ∧
  bitsN (new (b + 0x20)) 0 16 = min 0xFFFF (bitsN (old (b + 0x20)) 0 16 + n) ∧
  ∀ o, o ≠ b + 0x14 → o ≠ b + 0x20 → new o = old o

theorem EventsForced.refl (b : Nat) (f : Nat → W32) : EventsForced b 0 0 f f :=
  ⟨BitVec.or_zero.symm, (Nat.min_eq_right (Nat.le_of_lt_succ (BitVec.isLt _))).symm, fun _ _ _ => rfl⟩

theorem EventsForced.trans {b n k : Nat} {ev ew : W32} {f g h : Nat → W32} (hfg : EventsForced b ev n f g)
    (hgh : EventsForced b ew k g h) : EventsForced b (ev ||| ew) (n + k) f h := by
  obtain ⟨hev, hn, hother⟩ := hfg
  obtain ⟨hew, hk, hother'⟩ := hgh
  refine ⟨by rw [hew, hev, BitVec.or_assoc], by omega, fun o h1 h2 => (hother' o h1 h2).trans (hother o h1 h2)⟩

/-- The low field of a register, replaced, reads the new value. -/
theorem bits_setField (x : W32) (n : Nat) : bits (setField x 0 16 n) 0 16 = BitVec.ofNat 16 n := by
  refine BitVec.eq_of_getLsbD_eq fun j hj => ?_
  have hj' : j < 32 := by omega
  have hmask : (2 ^ 16 - 1).testBit j = true := by simp only [Nat.testBit_two_pow_sub_one, hj, decide_true]
  simp only [bits, setField, BitVec.getLsbD_extractLsb', BitVec.getLsbD_or, BitVec.getLsbD_and, BitVec.getLsbD_not,
    BitVec.getLsbD_ofNat, Nat.shiftLeft_zero, Nat.zero_add, Nat.testBit_mod_two_pow, hmask, hj, hj', decide_true,
    Bool.true_and, Bool.not_true, Bool.and_false, Bool.false_or]

/-- A count in the low 16 bits of a register (R518). -/
theorem bitsN_addField (x : W32) (n : Nat) : bitsN (addField x 0 16 n) 0 16 = min 0xFFFF (bitsN x 0 16 + n) := by
  have h := congrArg BitVec.toNat (bits_setField x (satAdd 16 (bitsN x 0 16) n))
  rw [BitVec.toNat_ofNat, satAdd, Nat.mod_eq_of_lt (by omega)] at h
  exact h

theorem eventsForced_raiseRegs (d : Nat → W32) (b : Nat) (m : SMap W32) (bit : Nat) :
    EventsForced b (BitVec.ofNat 32 (2 ^ bit)) 1 (SMap.get d m) (SMap.get d (raiseRegs d b m bit)) := by
  unfold raiseRegs
  refine ⟨?_, ?_, fun o hevent hcount => ?_⟩
  · rw [SMap.get_set_ne _ _ _ (by omega), SMap.get_set_same]
  · rw [SMap.get_set_same, SMap.get_set_ne _ _ _ (by omega), bitsN_addField]
  · rw [SMap.get_set_ne _ _ _ hcount, SMap.get_set_ne _ _ _ hevent]

/-- The word in which the listed bits are set. -/
def wordOfBits (l : List Nat) : W32 := l.foldr (fun i u => BitVec.ofNat 32 (2 ^ i) ||| u) 0

theorem eventsForced_foldl (d : Nat → W32) (b : Nat) (l : List Nat) (m : SMap W32) :
    EventsForced b (wordOfBits l) l.length (SMap.get d m) (SMap.get d (l.foldl (raiseRegs d b) m)) := by
  induction l generalizing m with
  | nil => exact .refl b _
  | cons i l ih =>
    rw [List.length_cons, Nat.add_comm]
    exact (eventsForced_raiseRegs d b m i).trans (ih _)

theorem getLsbD_wordOfBits (l : List Nat) {j : Nat} (hj : j < 32) : (wordOfBits l).getLsbD j = decide (j ∈ l) := by
  induction l with
  | nil => simp [wordOfBits]
  | cons i l ih =>
    have hcons : wordOfBits (i :: l) = BitVec.ofNat 32 (2 ^ i) ||| wordOfBits l := rfl
    rw [hcons, BitVec.getLsbD_or, ih, BitVec.getLsbD_ofNat, Nat.testBit_two_pow]
    simp [hj, eq_comm]

/-- The bits set in a word make up the word. -/
theorem wordOfBits_setBits (v : W32) : wordOfBits (setBits v) = v := by
  refine BitVec.eq_of_getLsbD_eq fun j hj => ?_
  rw [getLsbD_wordOfBits _ hj]
  simp [setBits, hj]

/-- EVENT_FORCE of a page's registers: each bit of `ev` is set and counted (R512). -/
theorem eventsForced_setBits (d : Nat → W32) (b : Nat) (ev : W32) (m : SMap W32) :
    EventsForced b ev (setBits ev).length (SMap.get d m) (SMap.get d ((setBits ev).foldl (raiseRegs d b) m)) := by
  have h := eventsForced_foldl d b (setBits ev) m
  rwa [wordOfBits_setBits] at h

/-! EVENT and EVENT_FORCE of the three kinds of page. -/

theorem Polder.writeHeader_event (p : Polder) (g : Page) (v : W32) : p.writeHeader g 0x14 v =
    p.wr (g.base + 0x14) (p.rd (g.base + 0x14) &&& ~~~(v &&& g.blk.events)) := rfl

theorem Module.writeHeader_event (m : Module) (g : Page) (v : W32) : m.writeHeader g 0x14 v =
    m.wr (g.base + 0x14) (m.rd (g.base + 0x14) &&& ~~~(v &&& g.blk.events)) := rfl

theorem Cell.writeHeader_event (c : Cell) (v : W32) : c.writeHeader 0x14 v =
    c.wr 0x14 (c.rd 0x14 &&& ~~~(v &&& Blk.events .cel)) := rfl

theorem Polder.foldl_raise (p : Polder) (page : Nat) (l : List Nat) : l.foldl (fun (p : Polder) i => p.raise page i) p =
    { p with regs := l.foldl (raiseRegs polDefault page) p.regs } :=
  List.foldl_hom (init := p.regs) (l := l) (g₁ := raiseRegs polDefault page) (g₂ := fun p i => p.raise page i)
    (fun r => { p with regs := r }) fun _ _ => rfl

theorem Module.foldl_raise (m : Module) (page : Nat) (l : List Nat) : l.foldl (fun (m : Module) i => m.raise page i) m =
    { m with regs := l.foldl (raiseRegs modDefault page) m.regs } :=
  List.foldl_hom (init := m.regs) (l := l) (g₁ := raiseRegs modDefault page) (g₂ := fun m i => m.raise page i)
    (fun r => { m with regs := r }) fun _ _ => rfl

theorem Cell.foldl_raise (c : Cell) (l : List Nat) : l.foldl (fun (c : Cell) i => c.raise i) c =
    { c with regs := l.foldl (raiseRegs celDefault 0) c.regs } :=
  List.foldl_hom (init := c.regs) (l := l) (g₁ := raiseRegs celDefault 0) (g₂ := fun c i => c.raise i)
    (fun r => { c with regs := r }) fun _ _ => rfl

theorem Polder.writeHeader_force (p : Polder) (g : Page) (v : W32) : p.writeHeader g 0x1C v =
    { p with regs := (setBits (v &&& g.blk.events)).foldl (raiseRegs polDefault g.base) p.regs } :=
  p.foldl_raise g.base _

theorem Module.writeHeader_force (m : Module) (g : Page) (v : W32) : m.writeHeader g 0x1C v =
    { m with regs := (setBits (v &&& g.blk.events)).foldl (raiseRegs modDefault g.base) m.regs } :=
  m.foldl_raise g.base _

theorem Cell.writeHeader_force (c : Cell) (v : W32) : c.writeHeader 0x1C v =
    { c with regs := (setBits (v &&& Blk.events .cel)).foldl (raiseRegs celDefault 0) c.regs } :=
  c.foldl_raise _

theorem exec_eventW1c (a : PageAddr) (w : Who) (v : W32) (s : State) :
    exec (.eventW1c a w v) s = .next (s.headerWrite a 0x14 w v) := rfl

theorem exec_eventForce (a : PageAddr) (w : Who) (v : W32) (s : State) :
    exec (.eventForce a w v) s = .next (s.headerWrite a 0x1C w v) := rfl

/-- Settles O59: the write reaches the header of its page, where EVENT loses the bits written, and EVENT_FORCE raises
the bits one after another, each of which is set in EVENT and counted once. -/
theorem eventBitsAreClearedAndForced : Obligations.EventBitsAreClearedAndForced := by
  unfold Obligations.EventBitsAreClearedAndForced
  refine fun s w v => ⟨fun q off g hg hon hgate => ?_, fun off g hg hon hgate => ?_, fun c hc => ?_⟩
  · have hw (o : Nat) := State.headerWrite_polder (s := s) (o := o) v hg hon hgate
    refine ⟨?_, _, ?_, eventsForced_setBits polDefault g.base _ _⟩
    · rw [State.GivesW, exec_eventW1c, hw 0x14 (by decide) rfl (by decide), Polder.writeHeader_event]
    · rw [State.GivesW, exec_eventForce, hw 0x1C (by decide) rfl (by decide), Polder.writeHeader_force]
  · have hw (o : Nat) := State.headerWrite_module (s := s) (o := o) v hg hon hgate
    refine ⟨?_, _, ?_, eventsForced_setBits modDefault g.base _ _⟩
    · rw [exec_eventW1c, hw 0x14 (by decide) rfl (by decide)]
      rfl
    · rw [exec_eventForce, hw 0x1C (by decide) rfl (by decide), State.onMod, Module.writeHeader_force]
      rfl
  · have hw (o : Nat) := State.headerWrite_cell (s := s) (o := o) v hc
    refine ⟨?_, _, ?_, eventsForced_setBits celDefault 0 _ _⟩
    · rw [State.GivesW, exec_eventW1c, hw 0x14 (by decide) rfl (by decide), Cell.writeHeader_event]
    · rw [State.GivesW, exec_eventForce, hw 0x1C (by decide) rfl (by decide), Cell.writeHeader_force]

end Sys2Proof.Machine

/-! PROOFS. The rules of the whole machine: which polders a command can change, what every step keeps of the fuses and
the images, and which commands are answered (R14, R17, R440, R441, R460). -/

namespace Sys2Proof.Machine

namespace State.Leads

/-- A row that changes its own polder only. -/
theorem Row.own {i : Instr} {p : Pid} {s : State} {r : Host.Outcome State Fault Refusal} (h : Row (· = p) s r)
    (hp : Instr.polder? i = some p) : Row (Instr.within i) s r :=
  fun t ht => (h t ht).mono fun _ hq => .inr (hp.trans (congrArg some hq.symm))

/-- A row of the keeper die or the module. -/
theorem Row.any {i : Instr} {s : State} {r : Host.Outcome State Fault Refusal} (h : Row (fun _ => True) s r)
    (hp : Instr.polder? i = none) : Row (Instr.within i) s r :=
  fun t ht => (h t ht).mono fun _ _ => .inl hp

/-- A row that names a location changes the polder it lies in. -/
theorem Row.register {i : Instr} {a : RegAddr} {s : State} {r : Host.Outcome State Fault Refusal}
    (h : Row (reaches a) s r) (hp : Instr.polder? i = RegAddr.polder? a) : Row (Instr.within i) s r :=
  match a with
  | .polder _ _ => h.own hp
  | .module _ => h.any hp

theorem Row.page {i : Instr} {a : PageAddr} {s : State} {r : Host.Outcome State Fault Refusal}
    (h : Row (pageReaches a) s r) (hp : Instr.polder? i = PageAddr.polder? a) : Row (Instr.within i) s r :=
  match a with
  | .page _ => h.register hp
  | .cell _ => h.own hp

end State.Leads

open State.Leads in
/-- Every command leads where it may: each row by its own law. -/
theorem exec_leads : ∀ (i : Instr) (s : State), State.Leads.Row (Instr.within i) s (exec i s)
  | .halt c, s => (leads_halt c s).own rfl
  | .cellHaltComplete c, s => (leads_cellHaltComplete c s).own rfl
  | .nop c, s => (leads_nop c s).own rfl
  | .jmp c, s => (leads_jmp c s).own rfl
  | .loop c, s => (leads_loop c s).own rfl
  | .brc c, s => (leads_brc c s).own rfl
  | .fence c, s => (leads_fence c s).own rfl
  | .fenceRelease c, s => (leads_fenceRelease c s).own rfl
  | .twait c, s => (leads_twait c s).own rfl
  | .twaitRelease c, s => (leads_twaitRelease c s).own rfl
  | .movs c, s => (leads_movs c s).own rfl
  | .add c, s => (leads_add c s).own rfl
  | .addi c, s => (leads_addi c s).own rfl
  | .sub c, s => (leads_sub c s).own rfl
  | .mul c, s => (leads_mul c s).own rfl
  | .and c, s => (leads_and c s).own rfl
  | .or c, s => (leads_or c s).own rfl
  | .xor c, s => (leads_xor c s).own rfl
  | .shli c, s => (leads_shli c s).own rfl
  | .shri c, s => (leads_shri c s).own rfl
  | .ldi c, s => (leads_ldi c s).own rfl
  | .ldhi c, s => (leads_ldhi c s).own rfl
  | .ld c, s => (leads_ld c s).own rfl
  | .st c, s => (leads_st c s).own rfl
  | .copy c, s => (leads_copy c s).own rfl
  | .vclr c, s => (leads_vclr c s).own rfl
  | .svrd c, s => (leads_svrd c s).own rfl
  | .svwr c, s => (leads_svwr c s).own rfl
  | .serviceAccessComplete c i, s => (leads_serviceAccessComplete c i s).own rfl
  | .send c, s => (leads_send c s).own rfl
  | .recv c, s => (leads_recv c s).own rfl
  | .portQueueStart c, s => (leads_portQueueStart c s).own rfl
  | .swait c, s => (leads_swait c s).own rfl
  | .swaitRelease c, s => (leads_swaitRelease c s).own rfl
  | .ssig c, s => (leads_ssig c s).own rfl
  | .semIncrement c sem n, s => (leads_semIncrement c sem n s).own rfl
  | .engineSemIncrement e sem n, s => (leads_engineSemIncrement e sem n s).own rfl
  | .wtok c, s => (leads_wtok c s).own rfl
  | .amxs c, s => (leads_amxs c s).own rfl
  | .amxsComplete c, s => (leads_amxsComplete c s).own rfl
  | .mma c, s => (leads_mma c s).own rfl
  | .arrayQueueStart c, s => (leads_arrayQueueStart c s).own rfl
  | .azero c, s => (leads_azero c s).own rfl
  | .aacc c, s => (leads_aacc c s).own rfl
  | .ascale c, s => (leads_ascale c s).own rfl
  | .acvt c, s => (leads_acvt c s).own rfl
  | .vadd c, s => (leads_vadd c s).own rfl
  | .vsub c, s => (leads_vsub c s).own rfl
  | .vmul c, s => (leads_vmul c s).own rfl
  | .vfma c, s => (leads_vfma c s).own rfl
  | .vmax c, s => (leads_vmax c s).own rfl
  | .vmin c, s => (leads_vmin c s).own rfl
  | .vscl c, s => (leads_vscl c s).own rfl
  | .vrsum c, s => (leads_vrsum c s).own rfl
  | .vrmax c, s => (leads_vrmax c s).own rfl
  | .cvt c, s => (leads_cvt c s).own rfl
  | .fload c, s => (leads_fload c s).own rfl
  | .feval c, s => (leads_feval c s).own rfl
  | .fbwd c, s => (leads_fbwd c s).own rfl
  | .cellReset c, s => (leads_cellReset c s).own rfl
  | .celRunWrite c w, s => (leads_celRunWrite c w s).own rfl
  | .cellStart c, s => (leads_cellStart c s).own rfl
  | .celStop c w, s => (leads_celStop c w s).own rfl
  | .programStoreWrite c w pc hi v, s => (leads_programStoreWrite c w pc hi v s).own rfl
  | .rngRegisterWrite p w i v, s => (leads_rngRegisterWrite p w i v s).own rfl
  | .tideWrap p, s => (leads_tideWrap p s).own rfl
  | .beatHop c port circ, s => (leads_beatHop c port circ s).own rfl
  | .controlTokenHop c input, s => (leads_controlTokenHop c input s).own rfl
  | .servicePacketHop p i, s => (leads_servicePacketHop p i s).own rfl
  | .weirTokenArrival c out tok, s => (leads_weirTokenArrival c out tok s).own rfl
  | .tokenTakesEffect c out i, s => (leads_tokenTakesEffect c out i s).own rfl
  | .holdFreeze p, s => (leads_holdFreeze p s).own rfl
  | .holdResume p, s => (leads_holdResume p s).own rfl
  | .debugHoldWrite p w on, s => (leads_debugHoldWrite p w on s).own rfl
  | .recfgGo p w, s => (leads_recfgGo p w s).own rfl
  | .recfgWaitEnd p, s => (leads_recfgWaitEnd p s).own rfl
  | .recfgDone p, s => (leads_recfgDone p s).own rfl
  | .notDrained p, s => (leads_notDrained p s).own rfl
  | .recfgRelease p w, s => (leads_recfgRelease p w s).own rfl
  | .slotTableWrite p w v, s => (leads_slotTableWrite p w v s).own rfl
  | .issueGo p w, s => (leads_issueGo p w s).own rfl
  | .variantTableReadDone p, s => (leads_variantTableReadDone p s).own rfl
  | .plotStart p i, s => (leads_plotStart p i s).own rfl
  | .startTideMissed p i, s => (leads_startTideMissed p i s).own rfl
  | .issueComplete p i, s => (leads_issueComplete p i s).own rfl
  | .pipeGo p w, s => (leads_pipeGo p w s).own rfl
  | .pipeGateOpen p, s => (leads_pipeGateOpen p s).own rfl
  | .pipeTableReadDone p, s => (leads_pipeTableReadDone p s).own rfl
  | .passBegin p, s => (leads_passBegin p s).own rfl
  | .stashCopyOut p stage rec, s => (leads_stashCopyOut p stage rec s).own rfl
  | .stashReturn p stage rec, s => (leads_stashReturn p stage rec s).own rfl
  | .pipeRunComplete p, s => (leads_pipeRunComplete p s).own rfl
  | .handoffRegisterWrite p w n isDone v, s => (leads_handoffRegisterWrite p w n isDone v s).own rfl
  | .ringTailWrite e w v, s => (leads_ringTailWrite e w v s).own rfl
  | .descBurstFetch e, s => (leads_descBurstFetch e s).own rfl
  | .descBurstLanded e, s => (leads_descBurstLanded e s).own rfl
  | .descEnterFetching e, s => (leads_descEnterFetching e s).own rfl
  | .engineArm e w, s => (leads_engineArm e w s).own rfl
  | .engineStop e w, s => (leads_engineStop e w s).own rfl
  | .engineStopped e, s => (leads_engineStopped e s).own rfl
  | .engineIdle e, s => (leads_engineIdle e s).own rfl
  | .intakeRequestIssue e, s => (leads_intakeRequestIssue e s).own rfl
  | .handGateWaitEnd e, s => (leads_handGateWaitEnd e s).own rfl
  | .intakeDataLanded e i r, s => (leads_intakeDataLanded e i r s).own rfl
  | .intakeRetryTimer e i, s => (leads_intakeRetryTimer e i s).own rfl
  | .intakeBeatEmit e circ, s => (leads_intakeBeatEmit e circ s).own rfl
  | .intakeHoldRequest e, s => (leads_intakeHoldRequest e s).own rfl
  | .descRetire e, s => (leads_descRetire e s).own rfl
  | .outfallBeatTake e, s => (leads_outfallBeatTake e s).own rfl
  | .outfallWaitRelease e, s => (leads_outfallWaitRelease e s).own rfl
  | .outfallWrite e, s => (leads_outfallWrite e s).own rfl
  | .reduceWriteSend e, s => (leads_reduceWriteSend e s).own rfl
  | .reduceWriteCompletion e tag status deferred, s => (leads_reduceWriteCompletion e tag status deferred s).own rfl
  | .outfallReissueTimer e tag, s => (leads_outfallReissueTimer e tag s).own rfl
  | .hbmAccessGrant p die ctrl, s => (leads_hbmAccessGrant p die ctrl s).own rfl
  | .accessTableWrite p die ctrl w v, s => (leads_accessTableWrite p die ctrl w v s).own rfl
  | .kvCreate p, s => (leads_kvCreate p s).own rfl
  | .kvAppend p, s => (leads_kvAppend p s).own rfl
  | .kvFork p, s => (leads_kvFork p s).own rfl
  | .kvPrepareWrite p, s => (leads_kvPrepareWrite p s).own rfl
  | .kvTruncate p, s => (leads_kvTruncate p s).own rfl
  | .kvDestroy p, s => (leads_kvDestroy p s).own rfl
  | .kvPrefetch p, s => (leads_kvPrefetch p s).own rfl
  | .kvResident p, s => (leads_kvResident p s).own rfl
  | .kvPinRelease p i, s => (leads_kvPinRelease p i s).own rfl
  | .kvPrefetchPageDone p, s => (leads_kvPrefetchPageDone p s).own rfl
  | .rangeClear p w, s => (leads_rangeClear p w s).own rfl
  | .rangeFetch p w, s => (leads_rangeFetch p w s).own rfl
  | .rangeEvict p w, s => (leads_rangeEvict p w s).own rfl
  | .rangeReservedOp p w, s => (leads_rangeReservedOp p w s).own rfl
  | .rangeDone p, s => (leads_rangeDone p s).own rfl
  | .bwWindowExpiry p, s => (leads_bwWindowExpiry p s).own rfl
  | .bar4Access p off a, s => (leads_bar4Access p off a s).own rfl
  | .tier3Completion p i o, s => (leads_tier3Completion p i o s).own rfl
  | .pumpArm p ch w, s => (leads_pumpArm p ch w s).own rfl
  | .pumpClose p ch w, s => (leads_pumpClose p ch w s).own rfl
  | .pumpDeadlineExpiry p ch, s => (leads_pumpDeadlineExpiry p ch s).own rfl
  | .pumpGraceExpiry p ch, s => (leads_pumpGraceExpiry p ch s).own rfl
  | .reductionDrained p ch, s => (leads_reductionDrained p ch s).own rfl
  | .normTotalReady p ch, s => (leads_normTotalReady p ch s).own rfl
  | .pumpShardComplete p ch shard, s => (leads_pumpShardComplete p ch shard s).own rfl
  | .pumpUpdateComplete p ch, s => (leads_pumpUpdateComplete p ch s).own rfl
  | .snapshotHandoffWaitEnd p ch, s => (leads_snapshotHandoffWaitEnd p ch s).own rfl
  | .snapshotAbort p ch, s => (leads_snapshotAbort p ch s).own rfl
  | .portEnableWrite p port w v, s => (leads_portEnableWrite p port w v s).own rfl
  | .laneCheckDone p port shorted, s => (leads_laneCheckDone p port shorted s).own rfl
  | .negotiateRoundEnd p port lanes peer, s => (leads_negotiateRoundEnd p port lanes peer s).own rfl
  | .trainDone p port failed inverted, s => (leads_trainDone p port failed inverted s).own rfl
  | .alignDone p port, s => (leads_alignDone p port s).own rfl
  | .waitExpiry p port, s => (leads_waitExpiry p port s).own rfl
  | .retrain p port w, s => (leads_retrain p port w s).own rfl
  | .laneLost p port, s => (leads_laneLost p port s).own rfl
  | .downIdleEnd p port, s => (leads_downIdleEnd p port s).own rfl
  | .inPackageBringup p port failed peer, s => (leads_inPackageBringup p port failed peer s).own rfl
  | .flitReceive p port flit, s => (leads_flitReceive p port flit s).own rfl
  | .flitTransmit p port, s => (leads_flitTransmit p port s).own rfl
  | .ackTimer p port, s => (leads_ackTimer p port s).own rfl
  | .txnRequestIssue p t, s => (leads_txnRequestIssue p t s).own rfl
  | .elasticWaitExpiry p tag, s => (leads_elasticWaitExpiry p tag s).own rfl
  | .fabricRead p port t, s => (leads_fabricRead p port t s).own rfl
  | .fabricWrite p port t, s => (leads_fabricWrite p port t s).own rfl
  | .fabricReduceWrite p port t, s => (leads_fabricReduceWrite p port t s).own rfl
  | .fabricFetchAdd p port t, s => (leads_fabricFetchAdd p port t s).own rfl
  | .fabricCompareSwap p port t, s => (leads_fabricCompareSwap p port t s).own rfl
  | .windowOpen p o, s => (leads_windowOpen p o s).own rfl
  | .windowClose p o, s => (leads_windowClose p o s).own rfl
  | .windowWriteVisible p i, s => (leads_windowWriteVisible p i s).own rfl
  | .fabricFence p port t, s => (leads_fabricFence p port t s).own rfl
  | .txnCompletion p t, s => (leads_txnCompletion p t s).own rfl
  | .requestTimeout p tag, s => (leads_requestTimeout p tag s).own rfl
  | .heartbeatTimer p, s => (leads_heartbeatTimer p s).own rfl
  | .heartbeatRx p t, s => (leads_heartbeatRx p t s).own rfl
  | .peerLossTimeout p entry, s => (leads_peerLossTimeout p entry s).own rfl
  | .noticePeerLost p t, s => (leads_noticePeerLost p t s).own rfl
  | .noticePeerUp p t, s => (leads_noticePeerUp p t s).own rfl
  | .noticeRouteChange p t, s => (leads_noticeRouteChange p t s).own rfl
  | .noticeDrain p t, s => (leads_noticeDrain p t s).own rfl
  | .noticeUser p t, s => (leads_noticeUser p t s).own rfl
  | .noticeSend p w, s => (leads_noticeSend p w s).own rfl
  | .noticePop p w, s => (leads_noticePop p w s).own rfl
  | .flitForward p port flit, s => (leads_flitForward p port flit s).own rfl
  | .flxMapStage p w, s => (leads_flxMapStage p w s).own rfl
  | .flxMapActivate p w, s => (leads_flxMapActivate p w s).own rfl
  | .mapActivation p slot, s => (leads_mapActivation p slot s).own rfl
  | .flxMapRetire p w, s => (leads_flxMapRetire p w s).own rfl
  | .flxMapDrop p w, s => (leads_flxMapDrop p w s).own rfl
  | .mirrorRecordRx p port t, s => (leads_mirrorRecordRx p port t s).own rfl
  | .mirrorRecordCompletion p status, s => (leads_mirrorRecordCompletion p status s).own rfl
  | .twnPost p w, s => (leads_twnPost p w s).own rfl
  | .stepEnd p w, s => (leads_stepEnd p w s).own rfl
  | .stepBoundary p, s => (leads_stepBoundary p s).own rfl
  | .scalesWritten p, s => (leads_scalesWritten p s).own rfl
  | .xfCopy p w, s => (leads_xfCopy p w s).own rfl
  | .xfZero p w, s => (leads_xfZero p w s).own rfl
  | .xfComplete p status, s => (leads_xfComplete p status s).own rfl
  | .semWaitWatchdog c, s => (leads_semWaitWatchdog c s).own rfl
  | .plotHalt p, s => (leads_plotHalt p s).own rfl
  | .engWaitWatchdog e, s => (leads_engWaitWatchdog e s).own rfl
  | .holdOverrun p, s => (leads_holdOverrun p s).own rfl
  | .noResponseWatchdog p b, s => (leads_noResponseWatchdog p b s).own rfl
  | .internalLinkLost p j, s => (leads_internalLinkLost p j s).own rfl
  | .linkStuck p port, s => (leads_linkStuck p port s).own rfl
  | .resetReqPlot p w, s => (leads_resetReqPlot p w s).own rfl
  | .resetReqEngine p w target, s => (leads_resetReqEngine p w target s).own rfl
  | .resetReqDie p w target, s => (leads_resetReqDie p w target s).own rfl
  | .resetReqPolder p w, s => (leads_resetReqPolder p w s).own rfl
  | .resetReqPowerCycle p w, s => (leads_resetReqPowerCycle p w s).own rfl
  | .resetHoldoffEnd p i, s => (leads_resetHoldoffEnd p i s).own rfl
  | .resetComplete p i, s => (leads_resetComplete p i s).own rfl
  | .ladderTimeout p i, s => (leads_ladderTimeout p i s).own rfl
  | .recoveryPhaseDone p, s => (leads_recoveryPhaseDone p s).own rfl
  | .recoveryPhaseTimeout p, s => (leads_recoveryPhaseTimeout p s).own rfl
  | .wardenResume p w, s => (leads_wardenResume p w s).own rfl
  | .wardenGuardTimeout p, s => (leads_wardenGuardTimeout p s).own rfl
  | .probeStart p, s => (leads_probeStart p s).own rfl
  | .probeBatchDone p, s => (leads_probeBatchDone p s).own rfl
  | .probeTimeout p, s => (leads_probeTimeout p s).own rfl
  | .quarantineRelease p w, s => (leads_quarantineRelease p w s).own rfl
  | .amaxReport p, s => (leads_amaxReport p s).own rfl
  | .pumpRatioReport p ch, s => (leads_pumpRatioReport p ch s).own rfl
  | .gaugeRelease p w, s => (leads_gaugeRelease p w s).own rfl
  | .thermalSample p temps, s => (leads_thermalSample p temps s).own rfl
  | .thermalCritTimeout p, s => (leads_thermalCritTimeout p s).own rfl
  | .imgSave p w, s => (leads_imgSave p w s).own rfl
  | .imgLoad p w, s => (leads_imgLoad p w s).own rfl
  | .sqTailDoorbell slot v, s => (leads_sqTailDoorbell slot v s).any rfl
  | .cqHeadDoorbell slot v, s => (leads_cqHeadDoorbell slot v s).any rfl
  | .commandFetch slot entry, s => (leads_commandFetch slot entry s).any rfl
  | .commandDispatch slot tag, s => (leads_commandDispatch slot tag s).any rfl
  | .cmdNop slot tag, s => (leads_cmdNop slot tag s).any rfl
  | .regRead slot tag, s => (leads_regRead slot tag s).any rfl
  | .regWrite slot tag, s => (leads_regWrite slot tag s).any rfl
  | .plotIssue slot tag, s => (leads_plotIssue slot tag s).any rfl
  | .pipeStart slot tag, s => (leads_pipeStart slot tag s).any rfl
  | .kvEdit slot tag, s => (leads_kvEdit slot tag s).any rfl
  | .updateArm slot tag, s => (leads_updateArm slot tag s).any rfl
  | .mapStage slot tag, s => (leads_mapStage slot tag s).any rfl
  | .mapActivate slot tag, s => (leads_mapActivate slot tag s).any rfl
  | .restore2408 slot tag counter queue, s => (leads_restore2408 slot tag counter queue s).any rfl
  | .journalRead slot tag, s => (leads_journalRead slot tag s).any rfl
  | .cfgStage slot tag, s => (leads_cfgStage slot tag s).any rfl
  | .cfgCommit slot tag, s => (leads_cfgCommit slot tag s).any rfl
  | .cfgDiscard slot tag, s => (leads_cfgDiscard slot tag s).any rfl
  | .cfgRollback slot tag, s => (leads_cfgRollback slot tag s).any rfl
  | .cfgCtrlStage w, s => (leads_cfgCtrlStage w s).any rfl
  | .cfgCtrlCommit w, s => (leads_cfgCtrlCommit w s).any rfl
  | .cfgCtrlDiscard w, s => (leads_cfgCtrlDiscard w s).any rfl
  | .cfgCtrlRollback w, s => (leads_cfgCtrlRollback w s).any rfl
  | .commitSwap, s => (leads_commitSwap s).any rfl
  | .commitDrainTimeout, s => (leads_commitDrainTimeout s).any rfl
  | .rwsWrite a w v, s => (leads_rwsWrite a w v s).register rfl
  | .fwLoad slot tag data, s => (leads_fwLoad slot tag data s).any rfl
  | .fwActivate slot tag, s => (leads_fwActivate slot tag s).any rfl
  | .attest slot tag ok, s => (leads_attest slot tag ok s).any rfl
  | .kreset w, s => (leads_kreset w s).any rfl
  | .keeperWatchdog, s => (leads_keeperWatchdog s).any rfl
  | .hostHoldPoint p, s => (leads_hostHoldPoint p s).own rfl
  | .keeperReady, s => (leads_keeperReady s).any rfl
  | .keeperBootTimeout, s => (leads_keeperBootTimeout s).any rfl
  | .heldCommandTimeout slot tag, s => (leads_heldCommandTimeout slot tag s).any rfl
  | .inletDataFrame p f, s => (leads_inletDataFrame p f s).own rfl
  | .inletCreditFrame p f, s => (leads_inletCreditFrame p f s).own rfl
  | .inletNackFrame p f, s => (leads_inletNackFrame p f s).own rfl
  | .inletPfcFrame p enable pause, s => (leads_inletPfcFrame p enable pause s).own rfl
  | .inletFrameDrop p cause, s => (leads_inletFrameDrop p cause s).own rfl
  | .inletFrameDelivered p, s => (leads_inletFrameDelivered p s).own rfl
  | .inletSessionWrite p w v, s => (leads_inletSessionWrite p w v s).own rfl
  | .inletConsumedWrite p w v, s => (leads_inletConsumedWrite p w v s).own rfl
  | .inletCreditTimer p stream, s => (leads_inletCreditTimer p stream s).own rfl
  | .inletPfcSend p prio, s => (leads_inletPfcSend p prio s).own rfl
  | .inletSnapshotSend p stream, s => (leads_inletSnapshotSend p stream s).own rfl
  | .inletBringup p laneFault strelham, s => (leads_inletBringup p laneFault strelham s).own rfl
  | .fuseBlowProtMap w i, s => (leads_fuseBlowProtMap w i s).any rfl
  | .fuseBlowDebugLock w, s => (leads_fuseBlowDebugLock w s).any rfl
  | .fuseBlowFieldLock w, s => (leads_fuseBlowFieldLock w s).any rfl
  | .fuseBlowDone, s => (leads_fuseBlowDone s).any rfl
  | .arbAdvance w, s => (leads_arbAdvance w s).any rfl
  | .debugAccess a v, s => (leads_debugAccess a v s).register rfl
  | .pllLockLoss (.polder q), s => (leads_internalLinkLost q .pll s).own rfl
  | .pllLockLoss .keeper, s => (leads_pllLockLoss .keeper s).any rfl
  | .pllLockLoss .mgmt, s => (leads_pllLockLoss .mgmt s).any rfl
  | .inputRise, s => (leads_inputRise s).any rfl
  | .hotswapChargeDone, s => (leads_hotswapChargeDone s).any rfl
  | .vinDip, s => (leads_vinDip s).any rfl
  | .vinLoss, s => (leads_vinLoss s).any rfl
  | .inputOvercurrent, s => (leads_inputOvercurrent s).any rfl
  | .railFault p, s => (leads_railFault p s).own rfl
  | .keeperGroupFault, s => (leads_keeperGroupFault s).any rfl
  | .polderOff p w, s => (leads_polderOff p w s).own rfl
  | .polderOn p w, s => (leads_polderOn p w s).own rfl
  | .modResetAssert, s => (leads_modResetAssert s).any rfl
  | .modResetRelease, s => (leads_modResetRelease s).any rfl
  | .polderPowerOnSequence p, s => (leads_polderPowerOnSequence p s).own rfl
  | .perstAssert port, s => (leads_perstAssert port s).any rfl
  | .perstRelease port, s => (leads_perstRelease port s).any rfl
  | .eventW1c a w v, s => (leads_eventW1c a w v s).page rfl
  | .eventForce a w v, s => (leads_eventForce a w v s).page rfl
  | .rcRegisterRead a w, s => (leads_rcRegisterRead a w s).page rfl
  | .errCodeRead a w, s => (leads_errCodeRead a w s).page rfl
  | .loHiPairWrite a w lo hi, s => (leads_loHiPairWrite a w lo hi s).register rfl
  | .registerWrite a w v, s => (leads_registerWrite a w v s).page rfl
  | .unitQueueStart c u, s => (leads_unitQueueStart c u s).own rfl
  | .bar2Access c w addr v, s => (leads_bar2Access c w addr v s).own rfl
  | .alignTimeout p port, s => (leads_alignTimeout p port s).own rfl

/-- A cycle in which nothing is commanded. -/
theorem State.Leads.tick (s : State) : State.Leads (fun _ => True) s s.tick := by
  unfold State.tick
  refine .fold _ _ (fun t q => ?_) ⟨rfl, .refl _, fun h => h, fun _ h => absurd trivial h⟩
  unfold State.loadTick
  exact .ite (.onPol _ trivial (.refl _ t)) (.refl _ t)

/-- Every step keeps blown fuses, and image numbers below the next. -/
theorem step_keeps {s t : State} (h : step s = .next t) : s.mod.Keeps t.mod := by
  unfold step at h
  split at h
  · cases h
    exact ⟨(State.Leads.tick s).fuses, (State.Leads.tick s).gens⟩
  · have hl := exec_leads _ _ _ h
    exact ⟨hl.fuses, hl.gens⟩

/-- Settles O4: each row's law of what it leads to, at the polder the row names. -/
theorem commandsLeaveOtherPoldersAlone : Obligations.CommandsLeaveOtherPoldersAlone := by
  unfold Obligations.CommandsLeaveOtherPoldersAlone
  intro i s t h
  have hl := exec_leads i s t h
  exact ⟨hl.pending, hl.pols⟩

/-- Settles O5: every row and every idle cycle keep what the laws follow of the module. -/
theorem stepsKeepFusesAndImageNumbers : Obligations.StepsKeepFusesAndImageNumbers := by
  unfold Obligations.StepsKeepFusesAndImageNumbers
  exact ⟨fun _ _ h => (step_keeps h).fuses, fun _ _ g h => (step_keeps h).gens g⟩

/-- The answer of a command whose payload check is `b`. -/
structure Answers (b : Bool) (r : Host.Outcome State Fault Refusal) : Prop where
  next : b = true → ∃ t, r = .next t
  stop : b = false → r = .fault .illFormed

theorem Answers.of_next (t : State) : Answers true (.next t) := ⟨fun _ => ⟨t, rfl⟩, nofun⟩

theorem Answers.of_check {b : Bool} {t : State} {c : Prop} [Decidable c] (h : c ↔ b = false) :
    Answers b (if c then .fault .illFormed else .next t) := by
  cases b
  · exact ⟨nofun, fun _ => if_pos (h.2 rfl)⟩
  · exact ⟨fun _ => ⟨t, if_neg fun hc => absurd (h.1 hc) nofun⟩, nofun⟩

theorem Answers.of_not {b : Bool} {t : State} : Answers b (if !b then .fault .illFormed else .next t) :=
  .of_check (by rw [Bool.not_eq_true'])

theorem Answers.ite {b : Bool} {c : Prop} [Decidable c] {r u : Host.Outcome State Fault Refusal} (hr : Answers b r)
    (hu : Answers b u) : Answers b (if c then r else u) := by
  split <;> assumption

/-- A fabric write to a Twin's mailbox is that record's row, and has its check (R314, R362). -/
theorem execFabricWrite_answers (p : Pid) (port : Fin 8) (t : Txn) (s : State) :
    Answers t.wf (execFabricWrite p port t s) := by
  have hmirror : Answers t.wf (execMirrorRecordRx p port t s) := .of_not
  unfold execFabricWrite
  cases ht : t.wf
  · exact ⟨nofun, fun _ => rfl⟩
  · rw [ht] at hmirror
    rw [if_neg (by decide)]
    exact .ite (.of_next s) (.ite hmirror (.of_next _))

/-- Every row but those with a payload answers a next state; those check it first. -/
theorem exec_answers (i : Instr) (s : State) : Answers i.wf (exec i s) := by
  cases i
  case intakeDataLanded e n r => exact .of_check (by rw [← Nat.not_le, ← decide_eq_false_iff_not]; rfl)
  case negotiateRoundEnd p port lanes peer => exact .of_check beq_eq_false_iff_ne.symm
  case fabricWrite p port t => exact execFabricWrite_answers p port t s
  case resetReqPowerCycle p w => exact .ite (.of_next _) (.of_next _)
  case restore2408 slot tag counter queue => exact .of_check (by rw [← Nat.not_le, ← decide_eq_false_iff_not]; rfl)
  case fwLoad slot tag image =>
    cases image with
    | none => exact .of_next _
    | some b => exact .of_check (by rw [decide_eq_true_iff, ← Nat.not_le, ← decide_eq_false_iff_not]; rfl)
  case pllLockLoss l => cases l <;> exact .of_next _
  all_goals first | exact .of_next _ | exact .of_not

/-- Settles O3: a command is answered by its payload check alone. -/
theorem everyWellFormedCommandTakesEffect : Obligations.EveryWellFormedCommandTakesEffect := by
  unfold Obligations.EveryWellFormedCommandTakesEffect
  exact fun i s => ⟨(exec_answers i s).next, (exec_answers i s).stop⟩

end Sys2Proof.Machine

/-! PROOFS. The rows of the field program: what an instruction that issues does to its cell, by its unit (R25 to R28,
R34, R36, R63). -/

namespace Sys2Proof.Machine

/-- A row of the field program issues its opcode. -/
theorem exec_row (o : FieldOp) (c : CellId) (s : State) : exec (o.row c) s = .next (s.issue c o (runOf o)) := by
  cases o <;> rfl

/-- An instruction that issues to a free unit and meets no fault: its polder. -/
theorem State.Issues.pol_row {s : State} {c : CellId} {i : FieldIns} {o : FieldOp} {d : Cell} {out : List CellOut}
    (h : s.Issues c i) (ho : i.op = o)
    (hs : (s.cellOf c).advanced.canStart (s.issueEnv c i).now (s.issued c i) = true)
    (hr : runOf o (s.issueEnv c i) (s.issued c i) (s.cellOf c).advanced = ⟨d, none, out⟩) :
    ∃ t, exec (o.row c) s = .next t ∧ t.pol c.p =
      ((((s.pol c.p).setCell c.key (d.occupy (s.issueEnv c i).now false (s.issued c i))).emit out).reach
        (s.issueEnv c i).now).sent := by
  subst ho
  have hstart : (s.cellOf c).advanced.start (s.issueEnv c i) false (runOf i.op) (s.issued c i) =
      (d.occupy (s.issueEnv c i).now false (s.issued c i), out) := by
    unfold Cell.start
    rw [hr]
  refine ⟨_, exec_row i.op c s, ?_⟩
  rw [s.pol_issue c i _ h hs, hstart]

/-- The cell of a polder that takes a step of the cell's units. -/
theorem cell_of_step (p : Polder) (k : Nat) (d : Cell) (out : List CellOut) (n : Nat) :
    (((p.setCell k d).emit out).reach n).sent.cell k = d := by
  rw [Polder.cell_sent, Polder.cell_reach, Polder.cell_emit, Polder.cell_setCell, if_pos rfl]

/-- An instruction that issues to a free unit and meets no fault: its cell. -/
theorem State.Issues.cell_row {s : State} {c : CellId} {i : FieldIns} {o : FieldOp} {d : Cell} {out : List CellOut}
    (h : s.Issues c i) (ho : i.op = o)
    (hs : (s.cellOf c).advanced.canStart (s.issueEnv c i).now (s.issued c i) = true)
    (hr : runOf o (s.issueEnv c i) (s.issued c i) (s.cellOf c).advanced = ⟨d, none, out⟩) :
    ∃ t, exec (o.row c) s = .next t ∧ t.cellOf c = d.occupy (s.issueEnv c i).now false (s.issued c i) := by
  obtain ⟨t, ht, hp⟩ := h.pol_row ho hs hr
  exact ⟨t, ht, by rw [State.cellOf, hp, cell_of_step]⟩

/-- Units that hold nothing: what an instruction of the sequencer, the scalar, port, sync or SERVICE unit leaves is
what it computes. -/
theorem Cell.occupy_of_unit {i : Issued} (h : i.ins.op.unit ≠ .mem ∧ i.ins.op.unit ≠ .array ∧ i.ins.op.unit ≠ .vec)
    (d : Cell) (now : Nat) (queued : Bool) : d.occupy now queued i = d := by
  obtain ⟨hm, ha, hv⟩ := h
  unfold Cell.occupy
  cases hu : i.ins.op.unit <;> simp_all

/-- An instruction of the sequencer or the scalar unit. -/
theorem State.Issues.seq {s : State} {c : CellId} {i : FieldIns} {o : FieldOp} {d : Cell} {out : List CellOut}
    (h : s.Issues c i) (ho : i.op = o) (hu : o.unit = .seq ∨ o.unit = .scalar)
    (hr : runOf o (s.issueEnv c i) (s.issued c i) (s.cellOf c).advanced = ⟨d, none, out⟩) :
    ∃ t, exec (o.row c) s = .next t ∧ t.cellOf c = d := by
  have hu' : (s.issued c i).ins.op.unit = .seq ∨ (s.issued c i).ins.op.unit = .scalar := by
    rw [← ho] at hu
    exact hu
  obtain ⟨t, ht, hd⟩ := h.cell_row ho (by unfold Cell.canStart; rcases hu' with e | e <;> rw [e]) hr
  refine ⟨t, ht, hd.trans (Cell.occupy_of_unit ?_ _ _ _)⟩
  rcases hu' with e | e <;> rw [e] <;> decide

theorem key_div_160 (c : CellId) : c.key / 160 = c.row.val := by
  unfold CellId.key
  omega

theorem key_mod_160 (c : CellId) : c.key % 160 = c.col.val := by
  unfold CellId.key
  omega

/-- The special register a MOVS selector names (R34). -/
def Cell.special (c : Cell) (e : CellEnv) (k : Nat) : Nat :=
  if k = 0 then c.tide e.now
  else if k = 1 then e.now % 64
  else if k ≤ 4 then c.extent (k - 2)
  else if k = 5 then e.key / 160
  else if k = 6 then e.key % 160
  else if k = 7 then e.pid
  else (c.getCnt (BitVec.ofNat 3 (k - 8))).toNat

/-- MOVS writes what its selector names. -/
theorem State.Issues.reads {s : State} {c : CellId} {i : FieldIns} {v : Nat} (h : s.Issues c i) (ho : i.op = .movs)
    (hv : (s.cellOf c).advanced.special (s.issueEnv c i) (bitsN i.imm 0 4) = v) :
    ∃ t, exec (.movs c) s = .next t ∧ t.cellOf c = (s.cellOf c).advanced.setG i.rd (BitVec.ofNat 64 v) := by
  subst hv
  exact h.seq ho (.inr rfl) rfl

/-- Settles O10: the scalar unit holds nothing, so its instructions leave what they compute. -/
theorem scalarInstructionsWriteTheirResult : Obligations.ScalarInstructionsWriteTheirResult := by
  unfold Obligations.ScalarInstructionsWriteTheirResult
  refine ⟨fun c s i h => ?_, fun c s i h ho => ?_⟩
  · refine ⟨fun ho => ?_, fun ho => ?_, fun ho => ?_, fun ho => ?_, fun ho => ?_, fun ho => ?_, fun ho => ?_,
      fun ho => ?_, fun ho => ?_, fun ho => ?_, fun ho => ?_⟩
    all_goals exact h.seq ho (.inr rfl) rfl
  · have reads := fun v hv => h.reads (v := v) ho hv
    refine ⟨fun hk => reads _ (by rw [hk]; rfl), fun hk => reads _ (by rw [hk]; rfl), fun j hk => reads _ ?_,
      fun hk => reads _ (by rw [hk]; exact key_div_160 c), fun hk => reads _ (by rw [hk]; exact key_mod_160 c),
      fun hk => reads _ (by rw [hk]; rfl), fun j hk => reads _ ?_⟩
    · rw [hk, Cell.special, if_neg (by omega), if_neg (by omega), if_pos (by omega), Nat.add_sub_cancel_left]
      rfl
    · rw [hk, Cell.special, if_neg (by omega), if_neg (by omega), if_neg (by omega), if_neg (by omega),
        if_neg (by omega), if_neg (by omega), Nat.add_sub_cancel_left, BitVec.ofNat_toNat, BitVec.setWidth_eq]
      rfl

/-- With nothing gathered a flush does nothing (R52). -/
theorem flushAll_of_nil {c : Cell} (h : c.gather = []) : flushAll c = .ok () c := by
  unfold flushAll
  simp [bind, EStateM.bind, get, getThe, MonadStateOf.get, EStateM.get, h, pure, EStateM.pure]

theorem runHalt_of_nil (e : CellEnv) (i : Issued) {c : Cell} (h : c.gather = []) :
    runHalt e i c = ⟨{ c with drain := .halt }, none, []⟩ := by
  unfold runHalt runM
  simp [bind, EStateM.bind, flushAll_of_nil h, modify, modifyGet, MonadStateOf.modifyGet, EStateM.modifyGet]

theorem runFence_of_nil (e : CellEnv) (i : Issued) {c : Cell} (h : c.gather = []) :
    runFence e i c = ⟨if c.writesDone then c else { c with drain := .fence }, none, []⟩ := by
  unfold runFence runM
  simp [bind, EStateM.bind, flushAll_of_nil h, modify, modifyGet, MonadStateOf.modifyGet, EStateM.modifyGet]

/-- BRC on the last count goes on (R34). -/
theorem runBrc_last (e : CellEnv) {i : Issued} {c : Cell} (h : c.getCnt (bits i.ins.rd 0 3) = 1) :
    runBrc e i c = ⟨c.setCnt (bits i.ins.rd 0 3) 0, none, []⟩ := by
  unfold runBrc runC
  simp [h]

/-- BRC on any count before the last branches (R34). -/
theorem runBrc_branches (e : CellEnv) {i : Issued} {c : Cell} (h : 1 < (c.getCnt (bits i.ins.rd 0 3)).toNat) :
    runBrc e i c = ⟨{ c with pc := bits i.ins.imm 0 10 }.setCnt (bits i.ins.rd 0 3)
      (c.getCnt (bits i.ins.rd 0 3) - 1), none, []⟩ := by
  have h0 : c.getCnt (bits i.ins.rd 0 3) ≠ 0 := fun e => by rw [e] at h; exact absurd h (by decide)
  have h1 : c.getCnt (bits i.ins.rd 0 3) ≠ 1 := fun e => by rw [e] at h; exact absurd h (by decide)
  unfold runBrc runC
  simp only [h0, h1, if_false]
  rfl

/-- Settles O11: the sequencer holds nothing, so its instructions leave what they compute; with an empty gather buffer
HALT and FENCE flush nothing. -/
theorem controlFlowMovesThePc : Obligations.ControlFlowMovesThePc := by
  unfold Obligations.ControlFlowMovesThePc
  refine ⟨fun c s i h => ?_, fun c s i h hg => ?_⟩
  · have seq {o : FieldOp} {d : Cell} (ho : i.op = o) (hu : o.unit = .seq)
        (hr : runOf o (s.issueEnv c i) (s.issued c i) (s.cellOf c).advanced = ⟨d, none, []⟩) := h.seq ho (.inl hu) hr
    refine ⟨fun ho => seq ho rfl rfl, fun ho => seq ho rfl rfl, fun ho hn => seq ho rfl ?_, fun ho hn => seq ho rfl ?_,
      fun ho hk => seq ho rfl ?_, fun ho hk => seq ho rfl ?_, fun ho hk => seq ho rfl ?_⟩
    · exact congrArg (Ran.mk · none []) (if_neg hn)
    · exact congrArg (Ran.mk · none []) (if_pos hn)
    · exact congrArg (Ran.mk · none []) (if_pos hk)
    · exact runBrc_last _ hk
    · exact runBrc_branches _ hk
  · have hadv : (s.cellOf c).advanced.gather = [] := hg
    refine ⟨fun ho => h.seq ho (.inl rfl) (runHalt_of_nil _ _ hadv), fun ho hw => h.seq (out := []) ho (.inl rfl) ?_,
      fun ho hw => h.seq (out := []) ho (.inl rfl) ?_⟩
    · exact (runFence_of_nil _ _ hadv).trans (congrArg (Ran.mk · none []) (if_pos hw))
    · exact (runFence_of_nil _ _ hadv).trans (congrArg (Ran.mk · none []) (if_neg (ne_true_of_eq_false hw)))

theorem Cell.rd_wr (c : Cell) (a b : Nat) (v : W32) : (c.wr a v).rd b = if b = a then v else c.rd b :=
  SMap.get_set _ _ _ _ _

/-- What a fault leaves of a cell that had none (R63). -/
structure Cell.FaultedBy (c : Cell) (f : CFault) (pc : BitVec 10) : Prop where
  st : c.st = .faulted
  run : c.run = false
  pc : c.rd 0x90 = pc.setWidth 32
  code : c.rd 0x24 = errWord f.code f.ev 1 0
  addr : c.rd 0x28 = BitVec.ofNat 32 f.addr

theorem Cell.faultedBy_fault {c : Cell} (f : CFault) (pc : BitVec 10) (h : c.st ≠ .faulted) :
    (c.fault f pc).FaultedBy f pc := by
  unfold Cell.fault
  rw [if_neg h]
  have rd (x : Cell) (o : Nat) : ((x.recordErr f.code f.ev f.addr).wr 0x90 (pc.setWidth 32)).rd o =
      if o = 0x90 then pc.setWidth 32 else if o = 0x2C then 0 else if o = 0x28 then BitVec.ofNat 32 f.addr
      else if o = 0x24 then errWord f.code f.ev 1 0 else x.rd o := by
    simp only [Cell.recordErr, Cell.rd_wr]
  exact ⟨rfl, rfl, rd _ 0x90, rd _ 0x24, rd _ 0x28⟩

/-- An instruction that issues to a free unit and meets a fault leaves the fault to its cell (R63). -/
theorem State.Issues.fault_row {s : State} {c : CellId} {i : FieldIns} {o : FieldOp} {d : Cell} {f : CFault}
    {out : List CellOut} (h : s.Issues c i) (ho : i.op = o)
    (hs : (s.cellOf c).advanced.canStart (s.issueEnv c i).now (s.issued c i) = true)
    (hr : runOf o (s.issueEnv c i) (s.issued c i) (s.cellOf c).advanced = ⟨d, some f, out⟩) :
    ∃ t, exec (o.row c) s = .next t ∧ t.cellOf c = d.fault f (s.cellOf c).pc := by
  subst ho
  refine ⟨_, exec_row i.op c s, ?_⟩
  rw [s.cellOf_issue c i _ h hs]
  unfold Cell.start
  rw [hr]
  rfl

/-- A word that is not legal faults the cell, whichever row issues it (R36). -/
theorem Cell.issue_illegal {c : Cell} {o : FieldOp} (e : CellEnv) (run : Run) (hi : c.issuing = true)
    (hp : fetchParity c.pc c = .ok () c)
    (hw : decodeField (SMap.get (fun _ => 0) c.prog c.pc.toNat) = none ∨
      ∃ i, decodeField (SMap.get (fun _ => 0) c.prog c.pc.toNat) = some i ∧ i.op = o ∧ i.legal = false) :
    c.issue e o run = some (c.fault CFault.illegal c.pc, [], e.now) := by
  unfold Cell.issue
  rw [hi, hp]
  rcases hw with hn | ⟨i, hd, ho, hl⟩
  · simp only [hn, Bool.not_true, Bool.false_eq_true, if_false]
  · simp only [hd, ho, hl, Bool.not_true, Bool.not_false, Bool.false_eq_true, ne_eq, not_true_eq_false, if_false, if_true]

/-- Settles O13: a fault stands in the cell as it is recorded, and an illegal word meets it before it takes effect. -/
theorem faultingInstructionsFaultTheirCell : Obligations.FaultingInstructionsFaultTheirCell := by
  unfold Obligations.FaultingInstructionsFaultTheirCell
  refine ⟨fun c s i d f out h hs hr hd => ?_, fun c s o hup hi h1 h2 hw => ?_⟩
  · obtain ⟨t, ht, hc⟩ := h.fault_row rfl hs hr
    obtain ⟨hst, hrun, hpc, hcode, haddr⟩ := Cell.faultedBy_fault f (s.cellOf c).pc hd
    rw [← hc] at hst hrun hpc hcode haddr
    exact ⟨t, ht, hst, hrun, hpc, hcode, haddr⟩
  · refine ⟨_, exec_row o c s, ?_⟩
    exact s.cellOf_onCell c (fun e cell => cell.issue e o (runOf o)) hup
      (Cell.issue_illegal _ _ hi (fetchParity_ok _ _ h1 h2) hw)

/-- An instruction of a unit that holds nothing. -/
theorem State.Issues.untimed {s : State} {c : CellId} {i : FieldIns} {o : FieldOp} {d : Cell} {out : List CellOut}
    (h : s.Issues c i) (ho : i.op = o) (hu : o.unit ≠ .mem ∧ o.unit ≠ .array ∧ o.unit ≠ .vec)
    (hs : (s.cellOf c).advanced.canStart (s.issueEnv c i).now (s.issued c i) = true)
    (hr : runOf o (s.issueEnv c i) (s.issued c i) (s.cellOf c).advanced = ⟨d, none, out⟩) :
    ∃ t, exec (o.row c) s = .next t ∧ t.cellOf c = d ∧
      (t.pol c.p).grid = (((s.pol c.p).setCell c.key d).emit out).grid := by
  subst ho
  obtain ⟨t, ht, hp⟩ := h.pol_row rfl hs hr
  have hd : d.occupy (s.issueEnv c i).now false (s.issued c i) = d := Cell.occupy_of_unit hu _ _ _
  rw [hd] at hp
  exact ⟨t, ht, by rw [State.cellOf, hp, cell_of_step], by rw [hp]; rfl⟩

/-- An instruction of a free sync unit. -/
theorem State.Issues.sync {s : State} {c : CellId} {i : FieldIns} {o : FieldOp} {d : Cell} {out : List CellOut}
    (h : s.Issues c i) (ho : i.op = o) (hu : o.unit = .sync) (hsync : (s.cellOf c).sync = none)
    (hr : runOf o (s.issueEnv c i) (s.issued c i) (s.cellOf c).advanced = ⟨d, none, out⟩) :
    ∃ t, exec (o.row c) s = .next t ∧ t.cellOf c = d ∧
      (t.pol c.p).grid = (((s.pol c.p).setCell c.key d).emit out).grid := by
  subst ho
  refine h.untimed rfl (by rw [hu]; decide) ?_ hr
  have hu' : (s.issued c i).ins.op.unit = .sync := hu
  have hsync' : (s.cellOf c).advanced.sync = none := hsync
  simp only [Cell.canStart, hu', hsync', Option.isNone_none]

/-- SSIG to another cell (R57, R110). -/
theorem runSsig_cell {e : CellEnv} {i : Issued} (c : Cell) (h : i.ins.imm.getLsbD 3 = false)
    (hd : i.ins.immRow * 160 + i.ins.immCol ≠ e.key) :
    runSsig e i c = ⟨c, none, [.incr ⟨false, i.ins.immRow * 160 + i.ins.immCol, i.ins.immSem, i.ins.immN,
      e.now + linkTime e.key (i.ins.immRow * 160 + i.ins.immCol) + 4⟩]⟩ := by
  simp only [runSsig, h, beq_eq_false_iff_ne.2 hd, Bool.false_eq_true, if_false, Bool.and_false, Nat.add_zero]

/-- SSIG of a cell to itself (R57, R110). -/
theorem runSsig_own {e : CellEnv} {i : Issued} (c : Cell) (h : i.ins.imm.getLsbD 3 = false)
    (hd : i.ins.immRow * 160 + i.ins.immCol = e.key) :
    runSsig e i c = ⟨c, none, [.incr ⟨false, i.ins.immRow * 160 + i.ins.immCol, i.ins.immSem, i.ins.immN,
      e.now + 1⟩]⟩ := by
  simp only [runSsig, h, beq_iff_eq.2 hd, Bool.false_eq_true, if_false, Bool.not_false, Bool.and_self, if_true]

/-- SSIG to an engine (R57, R110). -/
theorem runSsig_engine (e : CellEnv) {i : Issued} (c : Cell) (h : i.ins.imm.getLsbD 3 = true) :
    runSsig e i c = ⟨c, none, [.incr ⟨true, i.ins.immRow, i.ins.immSem, i.ins.immN,
      e.now + linkTime e.key (engCell i.ins.immRow) + 6⟩]⟩ := by
  simp only [runSsig, h, Bool.not_true, Bool.false_and, Bool.false_eq_true, if_false, if_true]

/-- The slot tables are not the cells'. -/
@[simp] theorem Polder.nextSlot_setCell (p : Polder) (j : Nat) (d : Cell) (net cell table : Nat)
    (ok : BitVec 16 → Bool) (now : Nat) :
    (p.setCell j d).grid.nextSlot net cell table ok now = p.grid.nextSlot net cell table ok now := by
  unfold Grid.nextSlot Grid.slotAt
  rfl

/-- A token of a cell whose injection table holds an entry enters the control net (R108). -/
theorem Polder.emit_token (p : Polder) (t : CtlToken)
    (h : (p.grid.nextSlot 1 t.cell 6 (fun e => e.getLsbD 15) t.arrive).isSome = true) :
    p.emit [.token t] = p.onGrid fun g => { g with tokens := g.tokens ++ [t] } :=
  if_pos h

/-- Settles O15: the sync unit is free, so each takes effect at once, and what it sends is the last of its net. -/
theorem signalsLeaveTheCell : Obligations.SignalsLeaveTheCell := by
  unfold Obligations.SignalsLeaveTheCell
  intro c s i h hsync
  refine ⟨fun ho he hd => ?_, fun ho he hd => ?_, fun ho he => ?_, fun ho ht => ?_, fun ho => ?_⟩
  · obtain ⟨t, ht, hc, hg⟩ := h.sync ho rfl hsync (runSsig_cell _ he hd)
    exact ⟨t, ht, hc, by rw [hg]; rfl⟩
  · obtain ⟨t, ht, hc, hg⟩ := h.sync ho rfl hsync (runSsig_own _ he hd)
    exact ⟨t, ht, hc, by rw [hg]; rfl⟩
  · obtain ⟨t, ht, hc, hg⟩ := h.sync ho rfl hsync (runSsig_engine _ _ he)
    exact ⟨t, ht, hc, by rw [hg]; rfl⟩
  · obtain ⟨t, hn, hc, hg⟩ := h.sync ho rfl hsync rfl
    refine ⟨t, hn, hc, ?_⟩
    rw [hg, Polder.emit_token]
    · rfl
    · rw [Polder.nextSlot_setCell]
      exact ht
  · obtain ⟨t, ht, hc, -⟩ := h.sync ho rfl hsync rfl
    exact ⟨t, ht, hc⟩

theorem needAddr_ok {a len al ew : Nat} (h : addrOk a len al ew = true) : needAddr a len al ew = pure () := if_pos h

/-- SEND or RECV of a checked buffer before its slot (R58). -/
theorem runPort_begins {e : CellEnv} {i : Issued} (c : Cell) (hn : i.count ≠ 0)
    (ha : addrOk (if decide (i.ins.op = .send) then i.ra else i.rd).toNat (32 * i.count) 32 4 = true)
    (hs : e.now % 64 ≤ bitsN i.ins.imm 0 6) :
    runPort e i c = ⟨{ c with ports := c.ports ++ [
      { isSend := decide (i.ins.op = .send), circ := ⟨bitsN i.ins.imm 29 3, BitVec.isLt _⟩
        addr := (if decide (i.ins.op = .send) then i.ra else i.rd).toNat, left := i.count
        flag := i.ins.imm.getLsbD 28, from_ := e.now - e.now % 64 + bitsN i.ins.imm 0 6
        began := e.now, pc := i.pc }] }, none, []⟩ := by
  unfold runPort runM
  simp only [if_neg hn, needAddr_ok ha, if_neg (Nat.not_lt.2 hs)]
  rfl

/-- SEND or RECV after its slot (R58). -/
theorem runPort_late {e : CellEnv} {i : Issued} (c : Cell) (hn : i.count ≠ 0)
    (ha : addrOk (if decide (i.ins.op = .send) then i.ra else i.rd).toNat (32 * i.count) 32 4 = true)
    (hs : bitsN i.ins.imm 0 6 < e.now % 64) : runPort e i c = ⟨c, some CFault.steerLate, []⟩ := by
  unfold runPort runM
  simp only [if_neg hn, needAddr_ok ha, if_pos hs]
  rfl

/-- SVRD of checked addresses (R56). -/
theorem runSvc_read {e : CellEnv} {i : Issued} (c : Cell) (ho : i.ins.op = .svrd) (hn : i.count ≠ 0)
    (hl : addrOk i.rd.toNat (8 * i.count) 8 8 = true) (hr : addrOk i.ra.toNat (8 * i.count) 8 8 = true) :
    runSvc e i c = ⟨{ c with svc := c.svc ++ [
      { place := c.svcPlace, isRead := true, target := i.ins.immRow * 160 + i.ins.immCol, localAddr := i.rd.toNat
        remoteAddr := i.ra.toNat, len := i.count, sem := ⟨i.ins.immSem, BitVec.isLt _⟩, pc := i.pc, answer := none
        data := [] }] }, none,
      [.pkt ⟨e.key, i.ins.immRow * 160 + i.ins.immCol, e.key, c.svcPlace, e.inc, .read i.ra.toNat i.count⟩]⟩ := by
  unfold runSvc
  simp only [ho, decide_true, if_true, if_neg hn, needAddr_ok hl, needAddr_ok hr]
  rfl

/-- Settles O16: a free port begins what its slot allows, and SERVICE takes a fourth access. -/
theorem portsAndServiceReadsBegin : Obligations.PortsAndServiceReadsBegin := by
  unfold Obligations.PortsAndServiceReadsBegin
  refine ⟨fun c s i h ho hq hf => ?_, fun c s i h ho hq hlen => ?_⟩
  · have hu : i.op.unit = .port := by rcases ho with e | e <;> rw [e] <;> rfl
    have hrun : runOf i.op = runPort := by rcases ho with e | e <;> rw [e] <;> rfl
    have hs : (s.cellOf c).advanced.canStart (s.issueEnv c i).now (s.issued c i) = true := by
      have hu' : (s.issued c i).ins.op.unit = .port := hu
      have hq' : (s.cellOf c).advanced.portQ = none := hq
      have hf' : (s.cellOf c).advanced.portFree (s.issued c i) = true := hf
      simp only [Cell.canStart, hu', hq', hf', Option.isNone_none, Bool.and_self]
    intro cell now n a slot ha hn
    have hsel : (if decide ((s.issued c i).ins.op = .send) then (s.issued c i).ra else (s.issued c i).rd).toNat = a := by
      simp only [decide_eq_true_eq]
      rfl
    refine ⟨fun hlt => ?_, fun hlt => ?_⟩
    · obtain ⟨t, ht, hc, -⟩ := h.untimed rfl (by rw [hu]; decide) hs (hrun ▸ runPort_begins _ hn (hsel ▸ ha) hlt)
      exact ⟨t, ht, by rw [hc, hsel]; rfl⟩
    · exact h.fault_row rfl hs (hrun ▸ runPort_late _ hn (hsel ▸ ha) hlt)
  · intro cell n loc rem dest hl hr hn
    have hs : (s.cellOf c).advanced.canStart (s.issueEnv c i).now (s.issued c i) = true := by
      have hu' : (s.issued c i).ins.op.unit = .svc := congrArg FieldOp.unit ho
      have hq' : (s.cellOf c).advanced.svcQ = none := hq
      have hlen' : (s.cellOf c).advanced.svc.length < 4 := hlen
      simp only [Cell.canStart, hu', hq', hlen', Option.isNone_none, Bool.true_and, decide_true]
    obtain ⟨t, ht, hc, hg⟩ := h.untimed ho (by decide) hs (runSvc_read _ ho hn hl hr)
    exact ⟨t, ht, hc, by rw [hg]; rfl⟩

/-! Bytes of words (R6). -/

theorem natOfBytes_append (l : List Byte) (b : Byte) :
    natOfBytes (l ++ [b]) = natOfBytes l + 256 ^ l.length * b.toNat := by
  induction l with
  | nil => simp [natOfBytes]
  | cons a l ih =>
    rw [List.cons_append, natOfBytes, ih, natOfBytes, List.length_cons, Nat.pow_succ]
    ring

@[simp] theorem length_bytesOf {n : Nat} (v : BitVec n) (len : Nat) : (bytesOf v len).length = len := by
  rw [bytesOf, List.length_map, List.length_range]

/-- The bytes of a word make up its value as far as they reach. -/
theorem natOfBytes_bytesOf {n : Nat} (v : BitVec n) (len : Nat) : natOfBytes (bytesOf v len) = v.toNat % 2 ^ (8 * len) := by
  induction len with
  | zero => simp [bytesOf, natOfBytes, Nat.mod_one]
  | succ k ih =>
    have hsplit : bytesOf v (k + 1) = bytesOf v k ++ [v.extractLsb' (8 * k) 8] := by
      simp only [bytesOf, List.range_succ, List.map_append, List.map_cons, List.map_nil]
    have hpow : (256 : Nat) ^ k = 2 ^ (8 * k) := by rw [Nat.pow_mul]
    rw [hsplit, natOfBytes_append, ih, length_bytesOf, hpow, BitVec.extractLsb'_toNat, Nat.shiftRight_eq_div_pow,
      Nat.mul_succ, Nat.pow_add, Nat.mod_mul]

theorem wordOf_bytesOf {n m : Nat} (v : BitVec n) (len : Nat) (h : n ≤ 8 * len) :
    wordOf m (bytesOf v len) = v.setWidth m := by
  have hlt : v.toNat < 2 ^ (8 * len) := Nat.lt_of_lt_of_le v.isLt (Nat.pow_le_pow_right (by decide) h)
  rw [wordOf, natOfBytes_bytesOf, Nat.mod_eq_of_lt hlt, BitVec.ofNat_toNat]

/-- A word of the low bytes of another. -/
theorem wordOf_low {n : Nat} (v : BitVec n) (len : Nat) : wordOf (8 * len) (bytesOf v len) = bits v 0 (8 * len) := by
  refine BitVec.eq_of_toNat_eq ?_
  rw [wordOf, natOfBytes_bytesOf, BitVec.toNat_ofNat, Nat.mod_mod, BitVec.extractLsb'_toNat, Nat.shiftRight_zero]

/-- Bytes that are all there replace what they are put over. -/
theorem overlay_some (bs old : List Byte) (h : bs.length = old.length) : overlay (bs.map some) old = bs := by
  induction bs generalizing old with
  | nil =>
    obtain rfl : old = [] := List.length_eq_zero_iff.1 h.symm
    rfl
  | cons b bs ih =>
    obtain ⟨o, old, rfl⟩ := List.exists_cons_of_length_eq_add_one h.symm
    rw [List.map_cons, overlay, ih old (by simpa using h)]

theorem find?_keep {V : Type} (f : Nat → Bool) (m : SMap V) (k : Nat) :
    SMap.find? (SMap.keep f m) k = if f k then SMap.find? m k else none := by
  induction m with
  | nil => simp [SMap.keep, SMap.find?]
  | cons e m ih =>
    obtain ⟨j, v⟩ := e
    unfold SMap.keep at ih ⊢
    rw [List.filter_cons]
    by_cases hk : k = j
    · subst hk
      cases hf : f k <;> simp [hf, SMap.find?] at ih ⊢
      exact ih
    · cases hf : f j <;> simp [SMap.find?, hk, ih]

/-! What holding a unit leaves of the cell (R29, R524). -/

theorem Cell.occupy_keeps (c : Cell) (now : Nat) (queued : Bool) (i : Issued) :
    (c.occupy now queued i).g = c.g ∧ (c.occupy now queued i).acc = c.acc ∧ (c.occupy now queued i).spad = c.spad ∧
      (c.occupy now queued i).gather = c.gather := by
  unfold Cell.occupy
  dsimp only
  repeat' split
  all_goals exact ⟨rfl, rfl, rfl, rfl⟩

section
variable (c : Cell) (now : Nat) (queued : Bool) (i : Issued)
@[simp] theorem Cell.occupy_g : (c.occupy now queued i).g = c.g := (c.occupy_keeps now queued i).1
@[simp] theorem Cell.occupy_acc : (c.occupy now queued i).acc = c.acc := (c.occupy_keeps now queued i).2.1
@[simp] theorem Cell.occupy_spad : (c.occupy now queued i).spad = c.spad := (c.occupy_keeps now queued i).2.2.1
@[simp] theorem Cell.occupy_gather : (c.occupy now queued i).gather = c.gather := (c.occupy_keeps now queued i).2.2.2
@[simp] theorem Cell.occupy_getG (r : BitVec 5) : (c.occupy now queued i).getG r = c.getG r := by
  rw [Cell.getG, Cell.occupy_g, Cell.getG]
@[simp] theorem Cell.occupy_getAcc (e : Nat) : (c.occupy now queued i).getAcc e = c.getAcc e := by
  rw [Cell.getAcc, Cell.occupy_acc, Cell.getAcc]
end

@[simp] theorem Cell.setG_acc (c : Cell) (r : BitVec 5) (v : W64) : (c.setG r v).acc = c.acc := by
  unfold Cell.setG
  split <;> rfl

@[simp] theorem Cell.setG_spad (c : Cell) (r : BitVec 5) (v : W64) : (c.setG r v).spad = c.spad := by
  unfold Cell.setG
  split <;> rfl

/-- An operation that ends well. -/
theorem runM_ok {m : CellEnv → Cell → Issued → CellM Unit} {e : CellEnv} {i : Issued} {c d : Cell}
    (h : m e c i c = .ok () d) : runM m e i c = ⟨d, none, []⟩ := by
  unfold runM
  rw [h]

theorem Cell.getG_setG (c : Cell) (r k : BitVec 5) (v : W64) :
    (c.setG r v).getG k = if k = 0 then 0 else if k = r then v else c.getG k := by
  unfold Cell.getG Cell.setG
  by_cases hk : k = 0
  · rw [if_pos hk, if_pos hk]
  · rw [if_neg hk, if_neg hk, if_neg hk]
    by_cases hr : r = 0
    · rw [if_pos hr, if_neg (hr ▸ hk)]
    · rw [if_neg hr, SMap.get_set]
      simp only [BitVec.toNat_inj]

theorem Cell.getG_setG_ne (c : Cell) {r k : BitVec 5} (v : W64) (h : k ≠ r) : (c.setG r v).getG k = c.getG k := by
  rw [Cell.getG_setG, if_neg h, Cell.getG]
  split <;> rfl

theorem Cell.getAcc_setAcc (c : Cell) (e k : Nat) (v : W32) :
    (c.setAcc e v).getAcc k = if k = e then v else c.getAcc k :=
  SMap.get_set _ _ _ _ _

/-- The place of an accumulator entry that LD or ST names (R26, R33). -/
structure Issued.AtEntry (i : Issued) (e : Nat) : Prop where
  fmt : i.ins.fmt = 2
  addr : i.memAddr = 0x10000 + 4 * e
  lt : e < 4096

theorem Issued.AtEntry.width {i : Issued} {e : Nat} (h : i.AtEntry e) : i.ins.width = 4 := by
  rw [FieldIns.width, h.fmt]
  rfl

theorem Issued.AtEntry.ok {i : Issued} {e : Nat} (h : i.AtEntry e) : addrOk i.memAddr 4 4 4 = true := by
  have hlt := h.lt
  simp [addrOk, h.addr]
  omega

/-- LD of an accumulator entry reads it whole (R26, R34). -/
theorem runLd_entry {env : CellEnv} {i : Issued} {c : Cell} {e : Nat} (h : i.AtEntry e) (hs : c.shadow = false)
    (hu : SMap.find? c.upset (4096 + e) = none) :
    runLd env i c = ⟨c.setG i.ins.rd ((c.getAcc e).setWidth 64), none, []⟩ := by
  have hpar : parityAt (4096 + e) c = .ok true c := by
    simp [parityAt, bind, EStateM.bind, get, getThe, MonadStateOf.get, EStateM.get, hu, pure, EStateM.pure]
  have haccs : readAccs e 1 c = .ok [c.getAcc e] c := by
    simp [readAccs, List.range_succ, bind, EStateM.bind, hpar, get, getThe, MonadStateOf.get, EStateM.get, pure,
      EStateM.pure]
  have hread : readBytes (0x10000 + 4 * e) 4 c = .ok (bytesOf (c.getAcc e) 4) c := by
    have hal : (0x10000 + 4 * e) % 4 = 0 := by omega
    have hlen : (bytesOf (c.getAcc e) 4).length ≤ 4 := by simp
    simp [readBytes, hal, bind, EStateM.bind, haccs, pure, EStateM.pure, List.take_of_length_le hlen]
  have hw := wordOf_bytesOf (m := 64) (c.getAcc e) 4 (by decide)
  have hok := needAddr_ok h.ok
  unfold runLd runM doLd
  dsimp only
  rw [h.width]
  rw [h.addr] at hok ⊢
  simp [hok, bind, EStateM.bind, pure, EStateM.pure, hread, modifyLive, modify, modifyGet, MonadStateOf.modifyGet,
    EStateM.modifyGet, hs, hw]

/-- Four bytes put over an accumulator entry replace it. -/
theorem mergeWord_whole (w : W32) (a : Nat) (v : W64) : mergeWord w a (bytesOf v 4) a = bits v 0 32 := by
  have hmap : ((List.range 4).map fun k => if a + k < a then none else (bytesOf v 4)[a + k - a]?) =
      (bytesOf v 4).map some := by
    simp [List.range_succ, bytesOf]
  unfold mergeWord
  dsimp only
  rw [hmap, overlay_some _ _ (by simp)]
  exact wordOf_low v 4

/-- ST of 4 bytes to an accumulator entry writes it whole (R26, R34). -/
theorem runSt_entry {env : CellEnv} {i : Issued} {c : Cell} {e : Nat} (h : i.AtEntry e) (hs : c.shadow = false) :
    runSt env i c = ⟨c.setAcc e (bits i.rb 0 32), none, []⟩ := by
  have hput : putBytes (0x10000 + 4 * e) (bytesOf i.rb 4) c = .ok () (c.setAcc e (bits i.rb 0 32)) := by
    have hal : (0x10000 + 4 * e) % 4 = 0 := by omega
    simp [putBytes, hal, List.range_succ, bind, EStateM.bind, pure, EStateM.pure, modify, modifyGet,
      MonadStateOf.modifyGet, EStateM.modifyGet, mergeWord_whole]
  have hok := needAddr_ok h.ok
  unfold runSt runM doSt
  dsimp only
  rw [h.width]
  rw [h.addr] at hok ⊢
  simp [hok, bind, EStateM.bind, pure, EStateM.pure, get, getThe, MonadStateOf.get, EStateM.get, hs, hput]

/-- VCLR of rows in the scratchpad, outside a shadow run (R50). -/
theorem runVclr_rows {env : CellEnv} {i : Issued} {c : Cell} (hs : c.shadow = false) (hn : i.count ≠ 0)
    (ha : i.ra.toNat % 128 = 0) (hle : i.ra.toNat + 128 * i.count ≤ 0x10000) :
    runVclr env i c =
      let out := fun u => !(decide (i.ra.toNat / 16 ≤ u) && decide (u < i.ra.toNat / 16 + 8 * i.count))
      ⟨{ c with
        spad := SMap.keep out c.spad
        upset := SMap.keep (fun k => out k || decide (4096 ≤ k)) c.upset
        gather := c.gather.filter fun e => out e.unit }, none, []⟩ := by
  unfold runVclr runM doVclr
  simp [hn, ha, hle, modifyLive, modify, modifyGet, MonadStateOf.modifyGet, EStateM.modifyGet, hs]

theorem runVclr_none {env : CellEnv} {i : Issued} {c : Cell} (hn : i.count = 0) :
    runVclr env i c = ⟨c, none, []⟩ := by
  unfold runVclr runM doVclr
  simp [hn, pure, EStateM.pure]

/-- Entries of the accumulator set to zero, and nothing else the cell reads. -/
structure Cell.ZeroedAt (c d : Cell) (P : Nat → Prop) : Prop where
  zero : ∀ k, P k → d.getAcc k = 0
  other : ∀ k, ¬ P k → d.getAcc k = c.getAcc k
  spad : d.spad = c.spad
  g : d.g = c.g
  shadow : d.shadow = c.shadow

theorem Cell.ZeroedAt.refl (c : Cell) : c.ZeroedAt c fun _ => False := ⟨nofun, fun _ _ => rfl, rfl, rfl, rfl⟩

theorem Cell.ZeroedAt.trans {a b c : Cell} {P Q : Nat → Prop} (h : a.ZeroedAt b P) (g : b.ZeroedAt c Q) :
    a.ZeroedAt c fun k => P k ∨ Q k where
  zero k hk := by
    by_cases hq : Q k
    · exact g.zero k hq
    · rw [g.other k hq, h.zero k (hk.resolve_right hq)]
  other k hk := (g.other k fun hq => hk (.inr hq)).trans (h.other k fun hp => hk (.inl hp))
  spad := g.spad.trans h.spad
  g := g.g.trans h.g
  shadow := g.shadow.trans h.shadow

theorem Cell.ZeroedAt.congr {c d : Cell} {P Q : Nat → Prop} (h : c.ZeroedAt d P) (e : ∀ k, P k ↔ Q k) :
    c.ZeroedAt d Q :=
  ⟨fun k hk => h.zero k ((e k).2 hk), fun k hk => h.other k fun hp => hk ((e k).1 hp), h.spad, h.g, h.shadow⟩

theorem Cell.zeroedAt_setAcc (c : Cell) (e : Nat) : c.ZeroedAt (c.setAcc e 0) fun k => k = e :=
  ⟨fun k hk => (c.getAcc_setAcc e k 0).trans (if_pos hk), fun k hk => (c.getAcc_setAcc e k 0).trans (if_neg hk), rfl, rfl,
    rfl⟩

/-- Zeros written to the first `n` entries of a tile. -/
theorem Cell.zeroedAt_entries (c : Cell) (b n : Nat) :
    c.ZeroedAt (((List.replicate n (0 : W32)).zip (List.range n)).foldl (fun c p => c.setAcc (b + p.2) p.1) c)
      fun k => b ≤ k ∧ k < b + n := by
  induction n with
  | zero => exact (Cell.ZeroedAt.refl c).congr fun k => ⟨False.elim, fun h => by omega⟩
  | succ n ih =>
    rw [List.replicate_succ', List.range_succ, List.zip_append (by simp), List.foldl_append]
    exact (ih.trans (Cell.zeroedAt_setAcc _ (b + n))).congr fun k => by omega

/-- AZERO on one tile (R44). -/
def zeroTile (t : Nat) : CellM Unit := do
  needTile t
  writeTile t (List.replicate 64 0)

theorem zeroTile_ok {t : Nat} {c : Cell} (ht : t < 64) (hs : c.shadow = false) : ∃ d,
    zeroTile t c = .ok () d ∧ c.ZeroedAt d fun k => 64 * t ≤ k ∧ k < 64 * t + 64 := by
  refine ⟨_, ?_, c.zeroedAt_entries (64 * t) 64⟩
  simp only [zeroTile, bind, EStateM.bind, needTile, if_pos ht, pure, EStateM.pure, writeTile, modifyLive, modify,
    modifyGet, MonadStateOf.modifyGet, EStateM.modifyGet, hs, Bool.false_eq_true, if_false]

/-- AZERO on the first `n` tiles from `t`, one after another (R44). -/
theorem zeroTiles_ok (t n : Nat) (c : Cell) (ht : t + n ≤ 64) (hs : c.shadow = false) : ∃ d,
    (List.range n).forM (fun k => zeroTile (t + k)) c = .ok () d ∧
      c.ZeroedAt d fun k => 64 * t ≤ k ∧ k < 64 * (t + n) := by
  induction n with
  | zero => exact ⟨c, rfl, (Cell.ZeroedAt.refl c).congr fun k => ⟨False.elim, fun h => by omega⟩⟩
  | succ n ih =>
    obtain ⟨d, hd, hz⟩ := ih (by omega)
    obtain ⟨d', hd', hz'⟩ := zeroTile_ok (t := t + n) (c := d) (by omega) (hz.shadow.trans hs)
    have happ : (List.range (n + 1)).forM (fun k => zeroTile (t + k)) =
        (do (List.range n).forM (fun k => zeroTile (t + k)); zeroTile (t + n)) := by
      simp [List.range_succ]
    refine ⟨d', ?_, (hz.trans hz').congr fun k => by omega⟩
    rw [happ]
    simp only [bind, EStateM.bind, hd, hd']

/-- AZERO of tiles that exist, outside a shadow run (R44). -/
theorem runAzero_tiles {env : CellEnv} {i : Issued} {c : Cell} (ht : i.ins.tile + i.count ≤ 64)
    (hs : c.shadow = false) : ∃ d, runAzero env i c = ⟨d, none, []⟩ ∧
      c.ZeroedAt d fun k => 64 * i.ins.tile ≤ k ∧ k < 64 * (i.ins.tile + i.count) := by
  obtain ⟨d, hd, hz⟩ := zeroTiles_ok i.ins.tile i.count c ht hs
  exact ⟨d, runM_ok hd, hz⟩

theorem canStart_mem {c : Cell} {now : Nat} {i : Issued} (hu : i.ins.op.unit = .mem) (hb : c.mem.busy now = false) :
    c.canStart now i = true := by
  simp only [Cell.canStart, hu, hb, Bool.not_false]

theorem canStart_vec {c : Cell} {now : Nat} {i : Issued} (hu : i.ins.op.unit = .vec) (hb : c.vec.busy now = false)
    (hm : c.behindMma i = false) : c.canStart now i = true := by
  simp only [Cell.canStart, hu, hb, hm, Bool.not_false, Bool.and_self]

/-- Settles O17: the memory unit or the vector unit is free, so the instruction takes effect at once, and holding the
unit leaves what the cell stores. -/
theorem loadsStoresAndClearsReachTheirPlaces : Obligations.LoadsStoresAndClearsReachTheirPlaces := by
  unfold Obligations.LoadsStoresAndClearsReachTheirPlaces
  refine ⟨fun c s i e h hs hb hf he hu => ?_, fun c s i h ho hs hb => ?_, fun c s i h ho hs hb hm => ?_⟩
  · intro cell ha
    have hat : (s.issued c i).AtEntry e := ⟨hf, ha, he⟩
    refine ⟨fun ho => ?_, fun ho => ?_⟩
    · obtain ⟨t, ht, hc⟩ := h.cell_row ho (canStart_mem (congrArg FieldOp.unit ho) hb) (runLd_entry hat hs hu)
      refine ⟨t, ht, ?_, fun r hr => ?_, ?_, ?_⟩
      · rw [hc, Cell.occupy_getG, Cell.getG_setG]
        exact congrArg (ite _ _) (if_pos rfl)
      · rw [hc, Cell.occupy_getG]
        exact Cell.getG_setG_ne _ _ hr
      · rw [hc, Cell.occupy_acc, Cell.setG_acc]
        rfl
      · rw [hc, Cell.occupy_spad, Cell.setG_spad]
        rfl
    · obtain ⟨t, ht, hc⟩ := h.cell_row ho (canStart_mem (congrArg FieldOp.unit ho) hb) (runSt_entry hat hs)
      refine ⟨t, ht, ?_, fun k hk => ?_, ?_, ?_⟩
      · rw [hc, Cell.occupy_getAcc, Cell.getAcc_setAcc, if_pos rfl]
        rfl
      · rw [hc, Cell.occupy_getAcc, Cell.getAcc_setAcc, if_neg hk]
        rfl
      · rw [hc, Cell.occupy_spad]
        rfl
      · rw [hc, Cell.occupy_g]
        rfl
  · intro cell n a hal hle
    have hstart := canStart_mem (c := (s.cellOf c).advanced) (i := s.issued c i) (congrArg FieldOp.unit ho) hb
    by_cases hn : n = 0
    · obtain ⟨t, ht, hc⟩ := h.cell_row ho hstart (runVclr_none hn)
      refine ⟨t, ht, fun u hu hlt => by omega, fun u _ => ?_, fun e _ => by omega, ?_⟩
      · rw [hc, Cell.occupy_spad]
        rfl
      · rw [hc, Cell.occupy_acc]
        rfl
    · obtain ⟨t, ht, hc⟩ := h.cell_row ho hstart (runVclr_rows hs hn hal hle)
      refine ⟨t, ht, fun u hu hlt => ?_, fun u hu => ?_, fun e he => ?_, ?_⟩
      · rw [hc, Cell.occupy_spad, find?_keep, if_neg]
        simp only [Bool.not_eq_true, Bool.not_eq_false', Bool.and_eq_true, decide_eq_true_eq]
        exact ⟨hu, hlt⟩
      · rw [hc, Cell.occupy_spad, find?_keep, if_pos]
        · rfl
        · simp only [Bool.not_eq_true', Bool.and_eq_false_iff, decide_eq_false_iff_not]
          exact hu.imp Nat.not_le.2 Nat.not_lt.2
      · rw [hc, Cell.occupy_gather, List.mem_filter] at he
        have hout := he.2
        simp only [Bool.not_eq_true', Bool.and_eq_false_iff, decide_eq_false_iff_not] at hout
        exact hout.imp Nat.not_le.1 Nat.not_lt.1
      · rw [hc, Cell.occupy_acc]
        rfl
  · intro n ht
    obtain ⟨d, hd, hz⟩ := runAzero_tiles (env := s.issueEnv c i) (i := s.issued c i) (c := (s.cellOf c).advanced) ht hs
    obtain ⟨t, ht, hc⟩ := h.cell_row ho (canStart_vec (congrArg FieldOp.unit ho) hb hm) hd
    refine ⟨t, ht, fun k h1 h2 => ?_, fun k hk => ?_, ?_, ?_⟩
    · rw [hc, Cell.occupy_getAcc, hz.zero k ⟨h1, h2⟩]
    · rw [hc, Cell.occupy_getAcc, hz.other k fun hin => ?_]
      · rfl
      · exact hk.elim (fun hlt => absurd hin.1 (Nat.not_le.2 hlt)) fun hge => absurd hin.2 (Nat.not_lt.2 hge)
    · rw [hc, Cell.occupy_spad, hz.spad]
      rfl
    · rw [hc, Cell.occupy_g, hz.g]
      rfl

end Sys2Proof.Machine

/-! PROOFS. What the rows of the field program leave alone, units that are busy, and commands that control a cell (R27,
R41, R45, R56, R58, R64, R66, R91, R128, R527, R528). -/

namespace Sys2Proof.Machine

/-! What leaves a cell changes: the nets' queues, the reported faults, the registers of the grid's page. -/

/-- Cells, nets' queues, faults and the registers of the grid's own page apart, nothing changes. -/
structure Polder.SignalsOnly (p q : Polder) : Prop where
  grid : q.grid.slots = p.grid.slots ∧ q.grid.weirs = p.grid.weirs ∧ q.grid.epochs = p.grid.epochs ∧
    q.grid.queues = p.grid.queues ∧ q.grid.beats = p.grid.beats ∧ q.grid.edge = p.grid.edge ∧
    q.grid.hold = p.grid.hold ∧ q.grid.issues = p.grid.issues ∧ q.grid.pipe = p.grid.pipe ∧
    q.grid.rngKey = p.grid.rngKey ∧ q.grid.rngStep = p.grid.rngStep
  blocks : q.engines = p.engines ∧ q.mem = p.mem ∧ q.chans = p.chans ∧ q.ports = p.ports ∧ q.flx = p.flx ∧
    q.twin = p.twin ∧ q.wdn = p.wdn ∧ q.inlet = p.inlet ∧ q.held = p.held
  rd : ∀ off place, off < 2 ^ 26 → off / 0x1000 ≠ GRD / 0x1000 → q.rd off place = p.rd off place

namespace Polder.SignalsOnly

theorem of_regs {p q : Polder} (h : q.regs = p.regs)
    (hg : q.grid.slots = p.grid.slots ∧ q.grid.weirs = p.grid.weirs ∧ q.grid.epochs = p.grid.epochs ∧
      q.grid.queues = p.grid.queues ∧ q.grid.beats = p.grid.beats ∧ q.grid.edge = p.grid.edge ∧
      q.grid.hold = p.grid.hold ∧ q.grid.issues = p.grid.issues ∧ q.grid.pipe = p.grid.pipe ∧
      q.grid.rngKey = p.grid.rngKey ∧ q.grid.rngStep = p.grid.rngStep)
    (hb : q.engines = p.engines ∧ q.mem = p.mem ∧ q.chans = p.chans ∧ q.ports = p.ports ∧ q.flx = p.flx ∧
      q.twin = p.twin ∧ q.wdn = p.wdn ∧ q.inlet = p.inlet ∧ q.held = p.held) : p.SignalsOnly q :=
  ⟨hg, hb, fun off place _ _ => by rw [Polder.rd, h, Polder.rd]⟩

theorem refl (p : Polder) : p.SignalsOnly p := of_regs rfl (by simp) (by simp)

theorem trans {p q r : Polder} (h : p.SignalsOnly q) (g : q.SignalsOnly r) : p.SignalsOnly r := by
  refine ⟨?_, ?_, fun off place h1 h2 => (g.rd off place h1 h2).trans (h.rd off place h1 h2)⟩
  · have h1 := h.grid
    simpa only [g.grid] using h1
  · have h1 := h.blocks
    simpa only [g.blocks] using h1

theorem wr (p : Polder) {o : Nat} (v : W32) (h : o < 0x1000) : p.SignalsOnly (p.wr (GRD + o) v) := by
  refine ⟨by simp, by simp, fun off place h1 h2 => ?_⟩
  rw [Polder.rd_wr, if_neg]
  change off / 0x1000 ≠ 2 at h2
  change ¬ (off + 2 ^ 26 * place = 0x2000 + o + 2 ^ 26 * 0)
  omega

theorem gridFault (p : Polder) (code : Status) (ev a port : Nat) : p.SignalsOnly (p.gridFault code ev a port) := by
  unfold Polder.gridFault
  refine .trans (q := (p.raise GRD ev).recordErr GRD code ev 1 0 (routerAddr a port)) ?_
    (.of_regs rfl (by simp) (by simp))
  unfold Polder.recordErr Polder.raise Polder.count
  refine .trans ?_ (.wr (o := 0x2C) _ _ (by decide))
  refine .trans ?_ (.wr (o := 0x28) _ _ (by decide))
  refine .trans ?_ (.wr (o := 0x24) _ _ (by decide))
  refine .trans ?_ (.wr (o := 0x20) _ _ (by decide))
  exact .wr (o := 0x14) _ _ (by decide)

theorem emit1 (p : Polder) (o : CellOut) : p.SignalsOnly (p.emit1 o) := by
  unfold Polder.emit1
  cases o with
  | incr i => exact .of_regs rfl (by simp) (by simp)
  | pkt k => exact .of_regs rfl (by simp) (by simp)
  | token t =>
    dsimp only
    split
    · exact .of_regs rfl (by simp) (by simp)
    · exact .gridFault _ _ _ _ _

theorem emit (p : Polder) (l : List CellOut) : p.SignalsOnly (p.emit l) := by
  unfold Polder.emit
  induction l generalizing p with
  | nil => exact .refl p
  | cons o l ih => exact (emit1 p o).trans (ih _)

theorem sent (p : Polder) : p.SignalsOnly p.sent := .of_regs rfl (by simp) (by simp)

end Polder.SignalsOnly

/-- A step of a cell's units changes its cell, and sends. -/
theorem State.onCell_frame (s : State) (c : CellId) (f : CellEnv → Cell → Option (Cell × List CellOut × Nat)) :
    (∀ k, k ≠ c.key → ((s.onCell c f).pol c.p).cell k = (s.pol c.p).cell k) ∧
      (s.pol c.p).SignalsOnly ((s.onCell c f).pol c.p) := by
  unfold State.onCell
  split
  · exact ⟨fun _ _ => rfl, .refl _⟩
  · rw [State.pol_onPol]
    split
    · exact ⟨fun _ _ => rfl, .sent _⟩
    · next cell out now _ =>
      refine ⟨fun k hk => ?_, ?_⟩
      · rw [Polder.cell_sent, Polder.cell_reach, Polder.cell_emit, Polder.cell_setCell, if_neg hk]
      · have hset : (s.pol c.p).SignalsOnly ((s.pol c.p).setCell c.key cell) := .of_regs rfl (by simp [Polder.setCell]) (by simp [Polder.setCell])
        have hreach (q : Polder) : q.SignalsOnly (q.reach now) := .of_regs rfl (by simp [Polder.reach]) (by simp [Polder.reach])
        exact ((hset.trans (.emit _ _)).trans (hreach _)).trans (.sent _)

/-- Settles O18: a row of the field program is a step of its cell's units, whatever the instruction computes. -/
theorem programRowsChangeTheirCellOnly : Obligations.ProgramRowsChangeTheirCellOnly := by
  unfold Obligations.ProgramRowsChangeTheirCellOnly
  intro o c s t h
  rw [exec_row] at h
  cases h
  obtain ⟨hcell, hsig⟩ := s.onCell_frame c fun e cell => cell.issue e o (runOf o)
  exact ⟨hcell, hsig.grid, hsig.blocks, hsig.rd⟩

/-- An instruction that issues reaches its unit, started or queued. -/
theorem State.Issues.toUnit_row {s : State} {c : CellId} {i : FieldIns} {r : Cell × List CellOut} (h : s.Issues c i)
    (hr : (s.cellOf c).advanced.toUnit (s.issueEnv c i) (runOf i.op) (s.issued c i) = some r) :
    ∃ t, exec (i.op.row c) s = .next t ∧ t.cellOf c = r.1 := by
  refine ⟨_, exec_row i.op c s, ?_⟩
  refine s.cellOf_onCell c (fun e cell => cell.issue e i.op (runOf i.op)) h.1 (r := (r.1, r.2, (s.issueEnv c i).now)) ?_
  rw [Cell.issue_of s c i _ h, hr]
  rfl

/-- An instruction that starts and meets no fault takes its effect and holds its unit. -/
theorem Cell.start_ok {c d : Cell} {e : CellEnv} {queued : Bool} {run : Run} {i : Issued} {out : List CellOut}
    (h : run e i c = ⟨d, none, out⟩) : c.start e queued run i = (d.occupy e.now queued i, out) := by
  unfold Cell.start
  rw [h]

theorem Cell.startQueued_ok {c d : Cell} {e : CellEnv} {now : Nat} {queued : Bool} {i : Issued} {out : List CellOut}
    (h : runOf i.ins.op { e with now := now } i c = ⟨d, none, out⟩) :
    c.startQueued e now queued i = some (d.occupy now queued i, out, now) := by
  unfold Cell.startQueued
  rw [Cell.start_ok h]

/-- An MMA holds the array: the vector unit is as it was (R41). -/
theorem Cell.occupy_vec_of_array {c : Cell} {now : Nat} {queued : Bool} {i : Issued} (h : i.ins.op.unit = .array) :
    (c.occupy now queued i).vec = c.vec := by
  unfold Cell.occupy
  rw [h]

/-! A unit that cannot start an instruction takes it into its queue (R27, R45, R56, R58). -/

section
variable {c : Cell} {e : CellEnv} {run : Run} {i : Issued}

theorem Cell.toUnit_mem_queue (hu : i.ins.op.unit = .mem) (hb : c.mem.busy e.now = true) (hq : c.mem.queue = none) :
    c.toUnit e run i = some ({ c with mem := { c.mem with queue := some i } }, []) := by
  simp [Cell.toUnit, hu, hb, hq]

theorem Cell.toUnit_array_queue (hu : i.ins.op.unit = .array) (hb : c.arr.busy e.now = true)
    (hq : c.arr.queue = none) : c.toUnit e run i = some ({ c with arr := { c.arr with queue := some i } }, []) := by
  simp [Cell.toUnit, hu, hb, hq]

theorem Cell.toUnit_vec_queue (hu : i.ins.op.unit = .vec) (hb : c.vec.busy e.now = true) (hq : c.vec.queue = none) :
    c.toUnit e run i = some ({ c with vec := { c.vec with queue := some i } }, []) := by
  simp [Cell.toUnit, hu, hb, hq]

theorem Cell.toUnit_port_queue (hu : i.ins.op.unit = .port) (hq : c.portQ = none) (hf : c.portFree i = false) :
    c.toUnit e run i = some ({ c with portQ := some i }, []) := by
  simp [Cell.toUnit, hu, hq, hf]

theorem Cell.toUnit_sync_queue (hu : i.ins.op.unit = .sync) (hs : c.sync ≠ none) (hq : c.syncQ = none) :
    c.toUnit e run i = some ({ c with syncQ := some i }, []) := by
  simp [Cell.toUnit, hu, hs, hq]

theorem Cell.toUnit_svc_queue (hu : i.ins.op.unit = .svc) (hq : c.svcQ = none) (hlen : 4 ≤ c.svc.length) :
    c.toUnit e run i = some ({ c with svcQ := some i }, []) := by
  simp [Cell.toUnit, hu, hq, hlen]

end

/-- What a queued instruction that starts leaves of its cell (R27). -/
theorem State.cellOf_startQueued {s : State} {c : CellId} {i : Issued} {d from_ : Cell} {out : List CellOut} {now : Nat}
    {queued : Bool} {f : CellEnv → Cell → Option (Cell × List CellOut × Nat)} (hup : s.cellUp c)
    (hf : f (s.cellEnv c) (s.cellOf c) = from_.startQueued (s.cellEnv c) now queued i)
    (hr : runOf i.ins.op { s.cellEnv c with now := now } i from_ = ⟨d, none, out⟩) :
    (s.onCell c f).cellOf c = d.occupy now queued i :=
  s.cellOf_onCell c f hup (hf.trans (Cell.startQueued_ok hr))

/-- Settles O19: a unit that cannot start an instruction queues it, and a queued one starts as an issued one does. -/
theorem unitQueuesHoldAndStart : Obligations.UnitQueuesHoldAndStart := by
  unfold Obligations.UnitQueuesHoldAndStart
  refine ⟨fun c s i h => ?_, fun c s i d out hup => ?_⟩
  · exact ⟨fun hu hb hq => h.toUnit_row (Cell.toUnit_mem_queue hu hb hq),
      fun hu hb hq => h.toUnit_row (Cell.toUnit_array_queue hu hb hq),
      fun hu hb hq => h.toUnit_row (Cell.toUnit_vec_queue hu hb hq),
      fun hu hq hf => h.toUnit_row (Cell.toUnit_port_queue hu hq hf),
      fun hu hs hq => h.toUnit_row (Cell.toUnit_sync_queue hu hs hq),
      fun hu hq hlen => h.toUnit_row (Cell.toUnit_svc_queue hu hq hlen)⟩
  · dsimp only
    refine ⟨fun hq hr => ⟨_, rfl, State.cellOf_startQueued hup ?_ hr⟩,
      fun hq hw hm hr => ⟨_, rfl, State.cellOf_startQueued hup ?_ hr⟩, fun hq hw hm => ⟨_, rfl, ?_⟩,
      fun hq hlen hr => ⟨_, rfl, State.cellOf_startQueued hup ?_ hr⟩,
      fun hq hf hr => ⟨_, rfl, State.cellOf_startQueued hup ?_ hr⟩, fun hq ho hw hd hr => ⟨_, rfl, ?_⟩⟩
    · simp only [hq]
    · have hw' : (s.cellOf c).vec.wait.isSome = false := by rw [hw]; rfl
      simp only [hq, hw', hm, Bool.false_eq_true, if_false]
    · have hw' : (s.cellOf c).vec.wait.isSome = false := by rw [hw]; rfl
      refine s.cellOf_onCell c _ hup (r := ({ s.cellOf c with
        vec := { (s.cellOf c).vec with queue := none, wait := some i } }, [],
          max (s.cellEnv c).now (s.cellOf c).vec.free)) ?_
      simp only [hq, hw', hm, Bool.false_eq_true, if_false, if_true]
    · simp only [hq, hlen, if_true]
    · simp only [hq, hf, if_true]
    · rw [ho] at hr
      have hunit : i.ins.op.unit = .array := by rw [ho]; rfl
      have hrun := Cell.start_ok (queued := true) (run := runMma) hr
      refine s.cellOf_onCell c _ hup (r := (d.occupy (max (s.cellEnv c).now (max (s.cellOf c).arr.free
        ((s.cellOf c).readyAt i))) true i, out, max (s.cellEnv c).now (max (s.cellOf c).arr.free
        ((s.cellOf c).readyAt i)))) ?_
      simp only [hq]
      rw [hrun]
      simp only [Cell.occupy_vec_of_array hunit, hd]

/-- A write that a cell's window admits. -/
theorem State.onWindow_eq (s : State) (c : CellId) (w : Who) (addr : Nat) (f : Cell → Polder → Cell)
    (h : s.AdmitsCell c w) :
    s.throughPol c.p (s.cellGate c w true) w addr (fun s => s.onPol c.p fun _ p => p.setCell c.key (f (p.cell c.key) p)) =
      (s.noted w).settle c.p (s.pol c.p).summary ((s.pol c.p).setCell c.key (f (s.cellOf c) (s.pol c.p))) :=
  s.throughCell_eq c w addr _ h

/-- A stop of a cell that runs or waits (R528). -/
theorem Cell.stop_running {c : Cell} (ha : c.startAt = none)
    (hst : c.st = .running ∨ c.st = .waitSem ∨ c.st = .waitTide) (hq : c.syncQ = none)
    (hs : ∀ u v, c.sync ≠ some (.amxs u v)) :
    c.stop = { c with drain := .stop, ports := [], portQ := none, sync := none } := by
  have hst' : (c.st = .running || c.st = .waitSem || c.st = .waitTide) = true := by
    simpa [or_assoc] using hst
  unfold Cell.stop
  rw [if_neg (by rw [ha]; decide), if_pos hst', hq]
  cases hsync : c.sync with
  | none => rfl
  | some o =>
    cases o with
    | amxs u v => exact absurd hsync (hs u v)
    | swait sem n => rfl
    | twait tide slot => rfl

/-- The start of a cell that waits for its tide (R128). -/
theorem State.pol_cellStart {s : State} {c : CellId} {tide : Nat} (hup : s.cellUp c)
    (ha : (s.cellOf c).startAt = some tide) (hi : (s.cellOf c).startIssue = false) :
    ∃ t, exec (.cellStart c) s = .next t ∧ t.pol c.p = ((((s.pol c.p).setCell c.key ((s.cellOf c).begin tide)).emit
      []).reach (max (s.cellEnv c).now (64 * tide))).sent :=
  ⟨_, rfl, s.onCell_some c _ hup (r := (_, [], _)) (by simp only [ha, hi]; rfl)⟩

/-- A write of the program store that its requester may make (R462, R527). -/
theorem exec_programStoreWrite {s : State} {c : CellId} {w : Who} {pc : Fin 1024} {hi : Bool} {v : W32}
    (h : s.AdmitsCell c w) (hw : w.req = .keeperFw ∨ w.req = .keeperAgent ∨ w.req = .debug) :
    s.GivesW w (.programStoreWrite c w pc hi v) c.p
      ((s.pol c.p).setCell c.key ((s.cellOf c).writeProg pc.val hi v)) := by
  have hreq : ¬ (w.req = .fabric ∨ w.req = .twin ∨ w.req = .inlet) := by
    rcases hw with e | e | e <;> rw [e] <;> decide
  refine congrArg Host.Outcome.next ((if_neg (by simpa [or_assoc] using hreq)).trans ?_)
  exact s.onWindow_eq c w _ (fun cell _ => cell.writeProg pc.val hi v) h

/-- Settles O21: each command reaches its cell, or its polder's page, and leaves there what it says. -/
theorem cellControlTakesEffect : Obligations.CellControlTakesEffect := by
  unfold Obligations.CellControlTakesEffect
  intro c s w
  dsimp only
  refine ⟨fun hp hd => ?_, fun h hr => ?_, fun h hr => ?_, fun tide hup ha hi => ?_, fun h ha => ?_,
    fun h ha hst hq hs => ?_, fun pc hi v h hw => ⟨fun hr => ?_, fun hr => ?_⟩, fun i v h => ⟨fun hr => ?_, fun hr => ?_⟩⟩
  · exact congrArg Host.Outcome.next (if_pos (by rw [hp, hd]; rfl))
  · refine congrArg Host.Outcome.next ((s.onWindow_eq c w _ (fun cell p => cell.runWrite p.cycle) h).trans ?_)
    rw [Cell.runWrite, hr]
    rfl
  · refine congrArg Host.Outcome.next ((s.onWindow_eq c w _ (fun cell p => cell.runWrite p.cycle) h).trans ?_)
    rw [Cell.runWrite, hr]
    rfl
  · obtain ⟨t, ht, hp⟩ := State.pol_cellStart hup ha hi
    refine ⟨t, ht, by rw [State.cellOf, hp, cell_of_step, Cell.begin], ?_⟩
    rw [hp]
    exact Nat.le_trans (Nat.le_max_right _ _) (Nat.le_max_right _ _)
  · refine congrArg Host.Outcome.next ((s.onWindow_eq c w _ (fun cell _ => cell.stop) h).trans ?_)
    rw [Cell.stop, if_pos ha]
  · refine congrArg Host.Outcome.next ((s.onWindow_eq c w _ (fun cell _ => cell.stop) h).trans ?_)
    rw [Cell.stop_running ha hst hq hs]
  · rw [State.GivesW, exec_programStoreWrite h hw, Cell.writeProg, if_pos hr]
  · rw [State.GivesW, exec_programStoreWrite h hw, Cell.writeProg, if_neg (ne_true_of_eq_false hr)]
  · exact congrArg Host.Outcome.next ((s.writePage_eq c.p _ w _ h).trans (congrArg _ (if_pos hr)))
  · exact congrArg Host.Outcome.next ((s.writePage_eq c.p _ w _ h).trans (congrArg _ (if_neg (ne_true_of_eq_false hr))))

end Sys2Proof.Machine

/-! PROOFS. The grid's networks: beats, tokens and SERVICE packets, and the reconfiguration of a rectangle (R99 to R109,
R121 to R124, R129). -/

namespace Sys2Proof.Machine

/-! What a command that gives a polder leaves there. -/

theorem State.pol_settle (s : State) (p : Pid) (b : Bool) (q : Polder) : (s.settle p b q).pol p = q.sent := by
  unfold State.settle State.pol
  dsimp only
  rw [Quad.get_set_same]
  rfl

theorem State.Gives.pol {s : State} {i : Instr} {p : Pid} {q : Polder} (h : s.Gives i p q) :
    ∃ t, exec i s = .next t ∧ t.pol p = q.sent :=
  ⟨_, h, s.pol_settle p _ q⟩

theorem State.GivesW.pol {s : State} {w : Who} {i : Instr} {p : Pid} {q : Polder} (h : s.GivesW w i p q) :
    ∃ t, exec i s = .next t ∧ t.pol p = q.sent :=
  ⟨_, h, (s.noted w).pol_settle p _ q⟩

/-- An event of a live block. -/
theorem State.gives_event {s : State} {i : Instr} {p : Pid} {die : Nat} {f : PolCtx → Polder → Polder} {q : Polder}
    (hi : exec i s = .next (s.event p die f)) (h : s.live p die = true) (hq : f (s.ctxOf p) (s.pol p) = q) :
    s.Gives i p q := by
  rw [State.Gives, hi, s.event_eq p die f h, hq]

/-- A register write that its page admits. -/
theorem State.gives_page {s : State} {i : Instr} {p : Pid} {off : Nat} {w : Who} {f : PolCtx → Polder → Polder}
    {q : Polder} (hi : exec i s = .next (s.writePage p off w f)) (h : s.Admits p off w)
    (hq : f ((s.noted w).ctxOf p) (s.pol p) = q) : s.GivesW w i p q := by
  rw [State.GivesW, hi, s.writePage_eq p off w f h, hq]

@[simp] theorem Polder.sent_rd (p : Polder) (off place : Nat) : p.sent.rd off place = p.rd off place := rfl
@[simp] theorem Polder.reach_rd (p : Polder) (n off place : Nat) : (p.reach n).rd off place = p.rd off place := rfl
@[simp] theorem Polder.onGrid_rd (p : Polder) (f : Grid → Grid) (off place : Nat) :
    (p.onGrid f).rd off place = p.rd off place := rfl

theorem Polder.rd_raise (p : Polder) {page bit off : Nat} (h1 : off ≠ page + 0x14) (h2 : off ≠ page + 0x20) :
    (p.raise page bit).rd off = p.rd off := by
  unfold Polder.raise Polder.count
  rw [Polder.rd_wr, if_neg (by omega), Polder.rd_wr, if_neg (by omega)]

theorem Polder.rd_count (p : Polder) (off n lo width : Nat) :
    (p.count off n lo width).rd off = addField (p.rd off) lo width n := by
  unfold Polder.count
  rw [Polder.rd_wr_same]

/-! Beats (R99 to R104). -/

theorem Grid.nextSlot_congr {g h : Grid} (hs : g.slots = h.slots) (net cell table : Nat) (ok : BitVec 16 → Bool)
    (now : Nat) : g.nextSlot net cell table ok now = h.nextSlot net cell table ok now := by
  unfold Grid.nextSlot Grid.slotAt
  rw [hs]

theorem Grid.selected_congr {g h : Grid} (hw : g.weirs = h.weirs) (cell inp circ : Nat) :
    g.selected cell inp circ = h.selected cell inp circ := by
  unfold Grid.selected Grid.weir
  rw [hw]

/-- A beat that no weir selects is discarded and counted (R103). -/
theorem Polder.routeBeat_orphan {p : Polder} {b : Beat} (h : p.grid.selected b.cell b.inp b.circ = []) :
    p.routeBeat b = (p.count (GRD + 0x80) 1).onGrid fun g =>
      { g with dwells := g.dwells.filter fun d => decide (b.arrive < d.until_) } := by
  unfold Polder.routeBeat
  simp [h]

/-- A beat that one output selects, whose slot is there on arrival, leaves at once (R102, R103). -/
theorem Polder.routeBeat_one {p : Polder} {b : Beat} {o oc : Nat}
    (h : p.grid.selected b.cell b.inp b.circ = [(o, oc)])
    (ht : p.grid.nextSlot 0 b.cell o (fun e => reserves e oc) b.arrive = some b.arrive) :
    p.routeBeat b = ((p.count (GRD + 0x80) 0).onGrid fun g =>
      { g with dwells := g.dwells.filter fun d => decide (b.arrive < d.until_) }).sendCopy b.cell b.data o oc b.arrive := by
  unfold Polder.routeBeat
  simp [h, ht]

theorem Polder.sendCopy_side {p : Polder} (cell : Nat) (data : BitVec 256) {o : Nat} (oc t : Nat) (h : o < 4) :
    p.sendCopy cell data o oc t = p.onGrid fun g => { g with beats := g.beats ++
      [{ cell := neighbour cell o, inp := facing o, circ := oc
         cls := bitsN (g.slotAt 0 cell o (t % 64)) 10 2, data := data, arrive := t + linkCycles cell o }] } :=
  if_pos h

/-- A beat on its way into a cell's router (R99). -/
theorem exec_beatHop {s : State} {c : CellId} {port : Fin 6} {circ : Fin 8} {b : Beat} {rest : List Beat}
    (hup : s.cellUp c) (hport : port ≠ 4)
    (hb : takeFirst (fun b : Beat => b.cell == c.key && b.inp == port.val && b.circ == circ.val)
      (s.pol c.p).grid.beats = some (b, rest)) :
    s.Gives (.beatHop c port circ) c.p
      ((((s.pol c.p).onGrid fun g => { g with beats := rest }).reach b.arrive).routeBeat b) := by
  obtain ⟨hp, hd, hf⟩ := hup
  have hport' : port.val ≠ 4 := fun e => hport (Fin.ext e)
  have hd' : ((s.pol c.p).onGrid fun g => { g with beats := rest }).cellDown c.key = false := hd
  refine congrArg Host.Outcome.next ((if_neg (by simp [hp, hf])).trans ?_)
  rw [State.onPol_eq, if_neg hport', hb]
  dsimp only
  rw [if_neg (ne_true_of_eq_false hd')]

/-- The LOCAL input takes the next beat of a SEND (R58, R525). -/
theorem exec_injectHop {s : State} {c : CellId} {circ : Fin 8} (hup : s.cellUp c) :
    s.Gives (.beatHop c 4 circ) c.p ((s.pol c.p).injectBeat c.key circ.val) := by
  obtain ⟨hp, hd, hf⟩ := hup
  refine congrArg Host.Outcome.next ((if_neg (by simp [hp, hf])).trans ?_)
  rw [State.onPol_eq, if_pos (show (4 : Fin 6).val = 4 from rfl), if_neg (ne_true_of_eq_false hd)]

theorem Polder.injectBeat_late {p : Polder} {cell circ n : Nat} {o : PortOp} {rest : List PortOp}
    (ho : takeFirst (fun o : PortOp => o.isSend && o.circ.val == circ) (p.cell cell).ports = some (o, rest))
    (hn : p.grid.nextSlot 0 cell 6 (fun e => reserves e circ) o.from_ = some n) (hlt : n < o.began + 3) :
    p.injectBeat cell circ = (p.setCell cell ((p.cell cell).fault CFault.steerLate o.pc)).reach n := by
  unfold Polder.injectBeat
  dsimp only
  rw [ho]
  dsimp only
  rw [hn]
  exact if_pos hlt

theorem Polder.injectBeat_ok {p : Polder} {cell circ n : Nat} {o : PortOp} {rest : List PortOp} {data : BitVec 256}
    {d : Cell}
    (ho : takeFirst (fun o : PortOp => o.isSend && o.circ.val == circ) (p.cell cell).ports = some (o, rest))
    (hn : p.grid.nextSlot 0 cell 6 (fun e => reserves e circ) o.from_ = some n) (hle : o.began + 3 ≤ n)
    (hsend : sendData o (p.cell cell) = .ok data d) :
    p.injectBeat cell circ = ((p.setCell cell { d with ports := if o.left ≤ 1 then rest
        else { o with addr := o.addr + 32, left := o.left - 1, from_ := n + 1 } :: rest }).reach n).routeBeat
      { cell := cell, inp := 4, circ := circ, cls := bitsN (p.grid.slotAt 0 cell 6 (n % 64)) 10 2
        data := data, arrive := n } := by
  unfold Polder.injectBeat
  dsimp only
  rw [ho]
  dsimp only
  rw [hn]
  dsimp only
  rw [if_neg (by omega), hsend]

/-- Settles O22: the beat is taken out of its input and routed by the weirs of its router. -/
theorem beatsFollowTheWeirs : Obligations.BeatsFollowTheWeirs := by
  unfold Obligations.BeatsFollowTheWeirs
  intro c port circ s hup
  dsimp only
  refine ⟨fun b rest hport hb => ⟨exec_beatHop hup hport hb, fun hsel => ?_, fun o oc hsel ho ht => ?_⟩,
    fun o rest n d data ho hn => ⟨fun hlt => ?_, fun hle hsend => ?_⟩⟩
  · obtain ⟨t, he, hp⟩ := (exec_beatHop hup hport hb).pol
    have hroute := Polder.routeBeat_orphan (b := b)
      (p := ((s.pol c.p).onGrid fun g => { g with beats := rest }).reach b.arrive) hsel
    rw [hroute] at hp
    refine ⟨t, he, by rw [hp]; rfl, ?_, by rw [hp]; rfl⟩
    rw [hp, Polder.sent_rd, Polder.onGrid_rd, Polder.rd_count]
    rfl
  · obtain ⟨t, he, hp⟩ := (exec_beatHop hup hport hb).pol
    have hroute := Polder.routeBeat_one (b := b)
      (p := ((s.pol c.p).onGrid fun g => { g with beats := rest }).reach b.arrive) hsel ht
    rw [hroute, Polder.sendCopy_side _ _ _ _ ho] at hp
    exact ⟨t, he, by rw [hp]; rfl, by rw [hp]; rfl⟩
  · have hinject : (s.pol c.p).injectBeat c.key circ.val = _ := Polder.injectBeat_late ho hn hlt
    exact hinject ▸ exec_injectHop hup
  · have hinject : (s.pol c.p).injectBeat c.key circ.val = _ := Polder.injectBeat_ok ho hn hle hsend
    exact hinject ▸ exec_injectHop hup


/-! Tokens and SERVICE packets (R104 to R109). -/

/-- A command that changes one polder unless a test holds it back. -/
theorem State.gives_unless {s : State} {i : Instr} {p : Pid} {off : Bool} {f : PolCtx → Polder → Polder} {q : Polder}
    (hi : exec i s = .next (if off then s else s.onPol p f)) (h : off = false) (hq : f (s.ctxOf p) (s.pol p) = q) :
    s.Gives i p q := by
  rw [State.Gives, hi, if_neg (ne_true_of_eq_false h), State.onPol_eq, hq]

theorem State.cellUp.off {s : State} {c : CellId} (h : s.cellUp c) :
    (!s.mod.powered c.p || (s.pol c.p).grid.hold.frozen) = false := by
  obtain ⟨hp, -, hf⟩ := h
  rw [hp, hf]
  rfl

theorem exec_controlTokenHop {s : State} {c : CellId} {k : Fin 5} {t : CtlToken} {rest : List CtlToken}
    (hup : s.cellUp c) (hk : k ≠ 4)
    (ht : takeFirst (fun t : CtlToken => t.cell == c.key && t.inp == k.val) (s.pol c.p).grid.tokens = some (t, rest)) :
    s.Gives (.controlTokenHop c k) c.p (match (s.pol c.p).grid.tokenSlot c.key k.val t.arrive with
      | none => ((s.pol c.p).onGrid fun g => { g with tokens := rest }).gridFault Status.internal 3 c.key 0
      | some (n, o) => (((s.pol c.p).onGrid fun g => { g with tokens := rest }).reach n).onGrid fun g =>
          { g with tokens := g.tokens ++ [if o = 4 then { t with inp := 5, arrive := n + 1 }
            else { t with cell := neighbour c.key o, inp := facing o, arrive := n + linkCycles c.key o }] }) := by
  obtain ⟨-, hd, -⟩ := id hup
  have hk' : k.val ≠ 4 := fun e => hk (Fin.ext e)
  have hd' : ((s.pol c.p).onGrid fun g => { g with tokens := rest }).cellDown c.key = false := hd
  refine State.gives_unless rfl hup.off ?_
  rw [ht]
  dsimp only
  rw [if_neg (ne_true_of_eq_false hd'), if_neg hk', Option.bind_some]
  have hslot : ((s.pol c.p).onGrid fun g => { g with tokens := rest }).grid.tokenSlot c.key k.val t.arrive =
    (s.pol c.p).grid.tokenSlot c.key k.val t.arrive := rfl
  rw [hslot] <;> rfl

/-- A SERVICE packet on its way (R109). -/
theorem exec_servicePacketHop {s : State} {p : Pid} {i : Nat} {k : SvcPkt} (hp : s.mod.powered p = true)
    (hk : (s.pol p).grid.svc[i]? = some k) :
    s.Gives (.servicePacketHop p i) p (
      if k.cell = k.dest then ((s.pol p).onGrid fun g => { g with svc := g.svc.eraseIdx i }).serviceArrive k
      else (s.pol p).onGrid fun g => { g with svc := g.svc.eraseIdx i ++ [{ k with cell := serviceNext k.cell k.dest }] }) := by
  refine State.gives_unless rfl (by rw [hp]; rfl) ?_
  rw [hk]
  rfl

/-- A token at the weirs of its router enters its queue, or is discarded (R105 to R107). -/
theorem exec_weirTokenArrival {s : State} {c : CellId} {out : Fin 6} {tok : BitVec 24} {t : CtlToken}
    {rest : List CtlToken} (hup : s.cellUp c)
    (ht : takeFirst (fun t : CtlToken => t.cell == c.key && t.inp == 5 && t.out == out.val && t.payload == tok)
      (s.pol c.p).grid.tokens = some (t, rest)) :
    s.Gives (.weirTokenArrival c out tok) c.p
      ((((s.pol c.p).onGrid fun g => { g with tokens := rest }).reach t.arrive).weirEnter c.key out.val tok t.arrive) := by
  obtain ⟨-, hd, -⟩ := id hup
  refine State.gives_unless rfl hup.off ?_
  rw [ht]
  exact if_neg (ne_true_of_eq_false hd)

section
variable {p : Polder} {cell out : Nat} {tok : BitVec 24} {a : Nat}

theorem Polder.weirEnter_invalid (h : tokenInvalid cell out tok = true) :
    p.weirEnter cell out tok a = p.gridFault Status.internal 3 cell out :=
  if_pos h

/-- A token of a stale epoch is dropped and counted (R106). -/
theorem Polder.weirEnter_stale (h : tokenInvalid cell out tok = false) (he : bits tok 12 2 ≠ p.grid.epoch cell) :
    (p.weirEnter cell out tok a).rd (GRD + 0x64) = addField (p.rd (GRD + 0x64)) 0 32 1 ∧
      (p.weirEnter cell out tok a).grid.queues = p.grid.queues := by
  unfold Polder.weirEnter
  dsimp only
  rw [if_neg (ne_true_of_eq_false h), if_pos he]
  refine ⟨?_, by simp⟩
  rw [Polder.rd_raise _ (by decide) (by decide), Polder.rd_count]
  rfl

variable (h : tokenInvalid cell out tok = false) (he : bits tok 12 2 = p.grid.epoch cell)
include h he

theorem Polder.weirEnter_late (hl : ¬ (1 ≤ (bitsN tok 20 4 + 16 - a / 64 % 16) % 16 ∧
      (bitsN tok 20 4 + 16 - a / 64 % 16) % 16 ≤ 7 ∨
      (bitsN tok 20 4 + 16 - a / 64 % 16) % 16 = 0 ∧ a % 64 < bitsN tok 14 6)) :
    p.weirEnter cell out tok a = p.gridFault Status.steerLate 0 cell out := by
  unfold Polder.weirEnter
  dsimp only
  rw [if_neg (ne_true_of_eq_false h), if_neg (not_not.mpr he),
    if_pos (by simpa only [Bool.not_eq_true', Bool.or_eq_false_iff, Bool.and_eq_false_imp, Bool.or_eq_true,
      Bool.and_eq_true, decide_eq_true_eq, beq_iff_eq, ← Bool.not_eq_true] using hl)]

theorem Polder.weirEnter_queued (hl : 1 ≤ (bitsN tok 20 4 + 16 - a / 64 % 16) % 16 ∧
      (bitsN tok 20 4 + 16 - a / 64 % 16) % 16 ≤ 7 ∨
      (bitsN tok 20 4 + 16 - a / 64 % 16) % 16 = 0 ∧ a % 64 < bitsN tok 14 6)
    (hq : (p.grid.queue cell out).length < 4) :
    p.weirEnter cell out tok a = p.onGrid fun g => { g with
      queues := SMap.insert g.queues (cell * 6 + out) (p.grid.queue cell out ++
        [⟨tok, (a / 64 + (bitsN tok 20 4 + 16 - a / 64 % 16) % 16) * 64 + bitsN tok 14 6⟩]) } := by
  unfold Polder.weirEnter
  dsimp only
  rw [if_neg (ne_true_of_eq_false h), if_neg (not_not.mpr he), if_neg ?_, if_neg (by omega)]
  simpa only [Bool.not_eq_true', Bool.not_eq_false, Bool.or_eq_true, Bool.and_eq_true, decide_eq_true_eq,
    beq_iff_eq] using hl

end

/-- The earliest token of a weir's queue sets the weir (R107). -/
theorem exec_tokenTakesEffect {s : State} {c : CellId} {out : Fin 6} {i : Fin 4} {t : QToken} (hup : s.cellUp c)
    (ht : ((s.pol c.p).grid.queue c.key out.val)[i.val]? = some t)
    (hfirst : ∀ o ∈ ((s.pol c.p).grid.queue c.key out.val).take i.val, t.effect < o.effect)
    (hleast : ∀ o ∈ (s.pol c.p).grid.queue c.key out.val, t.effect ≤ o.effect) :
    s.Gives (.tokenTakesEffect c out i) c.p (((s.pol c.p).onGrid fun g => { g with
      queues := SMap.set (fun _ => []) g.queues (c.key * 6 + out.val)
        (((s.pol c.p).grid.queue c.key out.val).eraseIdx i.val)
      weirs := SMap.set (fun _ => WeirSet.off) g.weirs (weirKey c.key out.val (bitsN t.payload 3 3))
        ⟨bits t.payload 9 3, bits t.payload 6 3⟩ }).reach t.effect) := by
  obtain ⟨-, hd, -⟩ := id hup
  refine State.gives_unless rfl (by rw [hup.off, hd]; rfl) ?_
  dsimp only
  rw [ht]
  refine if_neg ?_
  simp only [Bool.or_eq_true, List.any_eq_true, decide_eq_true_eq, not_or, not_exists, not_and, Nat.not_le, Nat.not_lt]
  exact ⟨hfirst, hleast⟩

/-- Settles O23: the five parts are the five commands' equations. -/
theorem tokensReachAndSetTheWeirs : Obligations.TokensReachAndSetTheWeirs := by
  unfold Obligations.TokensReachAndSetTheWeirs
  intro c s hup
  dsimp only
  refine ⟨fun k t rest n o ht hk => ?_, fun i k hi hne => ?_, fun i k a n hi heq hbody hd => ?_,
    fun out tok t rest ht => ?_, fun out i t hi hfirst hleast => exec_tokenTakesEffect hup hi hfirst hleast⟩
  · have h := exec_controlTokenHop hup hk ht
    refine ⟨fun hs ho => ?_, fun hs => ?_, fun hs => ?_⟩ <;> rw [hs] at h
    · simpa only [if_neg ho] using h
    · exact h
    · exact h
  · have h := exec_servicePacketHop hup.1 hi
    rwa [if_neg hne] at h
  · have h := exec_servicePacketHop hup.1 hi
    have hd' : ((s.pol c.p).onGrid fun g => { g with svc := g.svc.eraseIdx i }).cellDown k.dest = false := hd
    rw [if_pos heq, Polder.serviceArrive, hbody] at h
    dsimp only at h
    rwa [if_neg (ne_true_of_eq_false hd')] at h
  · have h := exec_weirTokenArrival hup ht
    refine ⟨fun hv => ?_, fun hv he => ?_, fun hv he hl => ?_, fun hv he hl hq => ?_⟩
    · rwa [Polder.weirEnter_invalid hv] at h
    · obtain ⟨u, hu, hp⟩ := h.pol
      refine ⟨u, hu, ?_⟩
      rw [hp]
      exact Polder.weirEnter_stale (p := ((s.pol c.p).onGrid fun g => { g with tokens := rest }).reach t.arrive) hv he
    · have hw := Polder.weirEnter_late (p := ((s.pol c.p).onGrid fun g => { g with tokens := rest }).reach t.arrive) hv he hl
      exact hw ▸ h
    · have hw := Polder.weirEnter_queued (p := ((s.pol c.p).onGrid fun g => { g with tokens := rest }).reach t.arrive) hv he hl hq
      exact hw ▸ h

/-! Fields of a status word (R518). -/

theorem getLsbD_fld (lo v i : Nat) : (fld lo v).getLsbD i = (decide (i < 32) && (decide (lo ≤ i) && v.testBit (i - lo))) := by
  unfold fld
  rw [BitVec.getLsbD_ofNat, Nat.testBit_shiftLeft]

theorem bits_or (a b : W32) (lo w : Nat) : bits (a ||| b) lo w = bits a lo w ||| bits b lo w := BitVec.extractLsb'_or

theorem bits_fld_same {lo w : Nat} (v : Nat) (h : lo + w ≤ 32) : bits (fld lo v) lo w = BitVec.ofNat w v := by
  refine BitVec.eq_of_getLsbD_eq fun i hi => ?_
  simp only [bits, BitVec.getLsbD_extractLsb', getLsbD_fld, BitVec.getLsbD_ofNat, hi, show lo + i < 32 by omega,
    Nat.le_add_right, Nat.add_sub_cancel_left, decide_true, Bool.true_and]

theorem bits_fld_above {at_ lo w : Nat} (v : Nat) (h : lo + w ≤ at_) : bits (fld at_ v) lo w = 0 := by
  refine BitVec.eq_of_getLsbD_eq fun i hi => ?_
  simp only [bits, BitVec.getLsbD_extractLsb', getLsbD_fld, show ¬ at_ ≤ lo + i by omega, decide_false, Bool.false_and,
    Bool.and_false, Bool.false_eq]
  exact BitVec.getLsbD_zero

theorem bits_fld_below {at_ lo w v m : Nat} (hv : v < 2 ^ m) (h : at_ + m ≤ lo) : bits (fld at_ v) lo w = 0 := by
  refine BitVec.eq_of_getLsbD_eq fun i hi => ?_
  have hbit : v.testBit (lo + i - at_) = false :=
    Nat.testBit_lt_two_pow (Nat.lt_of_lt_of_le hv (Nat.pow_le_pow_right (by omega) (by omega)))
  simp only [bits, BitVec.getLsbD_extractLsb', getLsbD_fld, hbit, Bool.and_false, Bool.false_eq]
  exact BitVec.getLsbD_zero

/-! The cells of a rectangle, and what a pass over them leaves at each. -/

theorem Rect.mem_keys {r : Rect} (h : r.malformed = false) (k : Nat) : k ∈ r.keys ↔ r.hasKey k = true := by
  simp only [Rect.malformed, Bool.or_eq_false_iff, decide_eq_false_iff_not, Nat.not_lt] at h
  obtain ⟨⟨hrow, hcol⟩, hlast⟩ := h
  simp only [Rect.keys, Rect.hasKey, List.mem_flatMap, List.mem_map, List.mem_range, Bool.and_eq_true, decide_eq_true_eq]
  constructor
  · rintro ⟨i, hi, j, hj, rfl⟩
    omega
  · rintro ⟨⟨⟨h1, h2⟩, h3⟩, h4⟩
    exact ⟨k / 160 - r.row0, by omega, k % 160 - r.col0, by omega, by omega⟩

theorem Rect.nodup_keys {r : Rect} (h : r.malformed = false) : r.keys.Nodup := by
  simp only [Rect.malformed, Bool.or_eq_false_iff, decide_eq_false_iff_not, Nat.not_lt] at h
  obtain ⟨⟨hrow, hcol⟩, hlast⟩ := h
  refine List.nodup_flatMap.mpr ⟨fun i _ => List.nodup_range.map fun a b hab => by omega, ?_⟩
  refine List.nodup_range.pairwise_of_forall_ne fun i _ j _ hne => ?_
  intro k hi hj
  simp only [List.mem_map, List.mem_range] at hi hj
  obtain ⟨a, ha, rfl⟩ := hi
  obtain ⟨b, hb, heq⟩ := hj
  omega

/-- A pass over distinct places that changes at each only what is held there. -/
theorem foldl_at {α γ : Type} {step : α → Nat → α} {get : α → Nat → γ} {f : γ → γ}
    (h : ∀ a k j, get (step a k) j = if j = k then f (get a k) else get a j) (l : List Nat) (hl : l.Nodup) (a : α)
    (j : Nat) : get (l.foldl step a) j = if j ∈ l then f (get a j) else get a j := by
  induction l generalizing a with
  | nil => simp
  | cons k l ih =>
    obtain ⟨hk, hl⟩ := List.nodup_cons.mp hl
    rw [List.foldl_cons, ih hl, h]
    by_cases hj : j = k
    · subst hj
      simp [hk]
    · simp [hj]

theorem Grid.weir_advanceEpochs (g : Grid) (r : Rect) {k o oc : Nat} (hk : r.hasKey k = true) (ho : o < 6) (hoc : oc < 8) :
    (g.advanceEpochs r).weir k o oc = WeirSet.off := by
  have hkey : weirKey k o oc / 48 = k := by unfold weirKey; omega
  unfold Grid.weir Grid.advanceEpochs SMap.get
  dsimp only
  rw [find?_keep, hkey, hk]
  rfl

theorem Grid.find?_weirs_advanceEpochs (g : Grid) {r : Rect} {k : Nat} (hk : r.hasKey (k / 48) = false) :
    SMap.find? (g.advanceEpochs r).weirs k = SMap.find? g.weirs k := by
  unfold Grid.advanceEpochs
  rw [find?_keep, hk]
  rfl

theorem Grid.epoch_advanceEpochs (g : Grid) {r : Rect} (h : r.malformed = false) (k : Nat) :
    (g.advanceEpochs r).epoch k = if r.hasKey k then g.epoch k + 1 else g.epoch k := by
  have hfold := foldl_at (get := fun m k => SMap.get (fun _ => (0 : BitVec 2)) m k) (f := (· + 1))
    (step := fun m k => SMap.set (fun _ => 0) m k (SMap.get (fun _ => 0) m k + 1))
    (fun m k j => SMap.get_set _ _ _ _ _) r.keys (Rect.nodup_keys h) g.epochs k
  simp only [Rect.mem_keys h] at hfold
  exact hfold

theorem Polder.recfgStatus_code (p : Polder) (code : Status) (epoch : BitVec 2) :
    bits ((p.recfgStatus code epoch).rd (GRD + 0x50)) 0 8 = code := by
  unfold Polder.recfgStatus
  rw [Polder.rd_wr_same, bits_or, bits_or, bits_fld_same _ (by omega), bits_fld_above _ (by omega),
    bits_fld_above _ (by omega)]
  simp

theorem le_foldl_max {α : Type} (f : α → Nat) (l : List α) (m : Nat) : m ≤ l.foldl (fun m e => max m (f e)) m ∧
    ∀ e ∈ l, f e ≤ l.foldl (fun m e => max m (f e)) m := by
  induction l generalizing m with
  | nil => simp
  | cons e l ih =>
    obtain ⟨hm, hl⟩ := ih (max m (f e))
    rw [List.foldl_cons]
    refine ⟨by omega, fun d hd => ?_⟩
    obtain rfl | hd := List.mem_cons.mp hd
    · omega
    · exact hl d hd

/-- The cycle from which no reconfiguration is too recent for a rectangle (R124). -/
def Polder.settledAt (q : Polder) (r : Rect) : Nat :=
  (q.grid.recent.filter fun e => e.1.overlaps r).foldl (fun m e => max m (64 * (e.2 + 8))) 0

theorem Polder.tooRecent_reach (q : Polder) (r : Rect) : (q.reach (q.settledAt r)).tooRecent r = false := by
  unfold Polder.tooRecent
  rw [List.any_eq_false]
  intro e he hrecent
  simp only [Bool.and_eq_true, decide_eq_true_eq] at hrecent
  obtain ⟨hover, hlt⟩ := hrecent
  have hle := (le_foldl_max (fun e : Rect × Nat => 64 * (e.2 + 8)) (q.grid.recent.filter fun e => e.1.overlaps r) 0).2 e
    (List.mem_filter.mpr ⟨he, hover⟩)
  have hcycle : q.settledAt r ≤ (q.reach (q.settledAt r)).cycle := Nat.le_max_right _ _
  change 64 * (e.2 + 8) ≤ q.settledAt r at hle
  unfold Polder.tide at hlt
  omega

section
variable {p : Pid} {s : State}

theorem exec_recfgWaitEnd (hl : s.live p 5 = true) (hb : (s.pol p).grid.recfg.busy = true)
    (hw : (s.pol p).grid.recfg.waiting = true) (ha : (s.pol p).issueAhead (s.pol p).grid.recfg.rect = false)
    (hf : (s.pol p).grid.hold.frozen = false) :
    s.Gives (.recfgWaitEnd p) p (((s.pol p).reach ((s.pol p).settledAt (s.pol p).grid.recfg.rect)).onGrid fun g =>
      { g with recfg := { (s.pol p).grid.recfg with
        waiting := false, started := ((s.pol p).reach ((s.pol p).settledAt (s.pol p).grid.recfg.rect)).tide } }) := by
  refine State.gives_event rfl hl (if_neg ?_)
  rw [hb, hw, ha, hf]
  decide

theorem exec_recfgDone (hl : s.live p 5 = true) (hb : (s.pol p).grid.recfg.busy = true)
    (hw : (s.pol p).grid.recfg.waiting = false) (hf : (s.pol p).grid.hold.frozen = false)
    (ht : (s.pol p).tide ≤ (s.pol p).grid.recfg.started + 4) (hd : (s.pol p).drained (s.pol p).grid.recfg.rect = true) :
    ∃ t status, exec (.recfgDone p) s = .next t ∧ (t.pol p).grid = { (s.pol p).grid.advanceEpochs (s.pol p).grid.recfg.rect with
        recfg := { (s.pol p).grid.recfg with busy := false, opened := true }
        recent := ((s.pol p).grid.recent.filter fun e => decide ((s.pol p).tide < e.2 + 8)) ++
          [((s.pol p).grid.recfg.rect, (s.pol p).tide)] } ∧
      (t.pol p).rd (GRD + 0x50) = status ∧ bits status 0 8 = Status.done := by
  have hok : ((s.pol p).grid.recfg.busy && !(s.pol p).grid.recfg.waiting && !(s.pol p).grid.hold.frozen &&
      decide ((s.pol p).tide ≤ (s.pol p).grid.recfg.started + 4) && (s.pol p).drained (s.pol p).grid.recfg.rect) = true := by
    rw [hb, hw, hf, hd]
    simpa using ht
  obtain ⟨t, he, hp⟩ := (State.gives_event (i := .recfgDone p) rfl hl (if_pos hok)).pol
  refine ⟨t, _, he, by rw [hp]; rfl, rfl, ?_⟩
  rw [hp, Polder.sent_rd, Polder.rd_raise _ (by decide) (by decide)]
  exact Polder.recfgStatus_code _ _ _

theorem exec_notDrained (hl : s.live p 5 = true) (hb : (s.pol p).grid.recfg.busy = true)
    (hw : (s.pol p).grid.recfg.waiting = false) (hf : (s.pol p).grid.hold.frozen = false)
    (hd : (s.pol p).drained (s.pol p).grid.recfg.rect = false) :
    ∃ t, exec (.notDrained p) s = .next t ∧
      (t.pol p).grid = { (s.pol p).grid with recfg := { (s.pol p).grid.recfg with busy := false } } ∧
      bits ((t.pol p).rd (GRD + 0x50)) 0 8 = Status.notDrained := by
  have hok : ((s.pol p).grid.recfg.busy && !(s.pol p).grid.recfg.waiting && !(s.pol p).grid.hold.frozen &&
      !(s.pol p).drained (s.pol p).grid.recfg.rect) = true := by
    rw [hb, hw, hf, hd]
    rfl
  obtain ⟨t, he, hp⟩ := (State.gives_event (i := .notDrained p) rfl hl (if_pos hok)).pol
  refine ⟨t, he, by rw [hp]; rfl, ?_⟩
  rw [hp, Polder.sent_rd, Polder.rd_raise _ (by decide) (by decide), Polder.onGrid_rd]
  exact Polder.recfgStatus_code _ _ _

/-- An entry that the open rectangle, the table and the spacing allow is stored (R123, R125, R129). -/
theorem Polder.writeTable_stores {q : Polder} {sel : Nat} {v : W32} (ho : q.grid.recfg.opened = true)
    (hcol : sel / 256 % 256 < 160)
    (hk : Rect.hasKey q.grid.recfg.rect (sel % 256 * 160 + sel / 256 % 256) = true)
    (hx : tableExists (sel / 2 ^ 19 % 2) (sel % 256 * 160 + sel / 256 % 256) (sel / 2 ^ 16 % 8) = true)
    (hs : sel / 2 ^ 19 % 2 = 1 ∨ q.grid.breaksSpacing (sel % 256 * 160 + sel / 256 % 256) (sel / 2 ^ 16 % 8)
      (sel / 2 ^ 20 % 64) (bits v 0 16 &&& (if sel / 2 ^ 19 % 2 = 0 then 0xFC00 else 0xF000)) = false) :
    q.writeTable sel v = q.onGrid fun g => { g with
      slots := SMap.set (fun _ => 0) g.slots (slotKey (sel / 2 ^ 19 % 2) (sel % 256 * 160 + sel / 256 % 256)
        (sel / 2 ^ 16 % 8) (sel / 2 ^ 20 % 64)) (bits v 0 16 &&& (if sel / 2 ^ 19 % 2 = 0 then 0xFC00 else 0xF000)) } := by
  unfold Polder.writeTable
  refine if_neg ?_
  rw [ho, hk, hx]
  obtain hnet | hspace := hs
  · rw [decide_eq_true hcol, show (sel / 2 ^ 19 % 2 == 0) = false by rw [hnet]; rfl, Bool.false_and]
    decide
  · rw [decide_eq_true hcol, hspace, Bool.and_false]
    decide

/-- A table write outside the open rectangle is refused (R123). -/
theorem Polder.writeTable_outside {q : Polder} {sel : Nat} {v : W32}
    (h : q.grid.recfg.opened = false ∨ Rect.hasKey q.grid.recfg.rect (sel % 256 * 160 + sel / 256 % 256) = false) :
    q.writeTable sel v = q.raise GRD 9 := by
  unfold Polder.writeTable
  refine if_pos ?_
  obtain h | h := h <;> simp [h]

/-- Settles O25: each part is its command's equation; the drained rectangle's epochs advance one cell after another. -/
theorem reconfigurationOpensADrainedPlot : Obligations.ReconfigurationOpensADrainedPlot := by
  unfold Obligations.ReconfigurationOpensADrainedPlot
  intro p s w
  dsimp only
  refine ⟨fun ha h => State.gives_page rfl ha (if_pos ?_), fun ha hb ho hm => State.gives_page rfl ha (if_neg ?_),
    fun hl hb hw hi hf => ?_, fun hl hb hw hf ht hd hm => ?_, fun hl hb hw hf hd => exec_notDrained hl hb hw hf hd,
    fun ha => State.gives_page rfl ha rfl, fun v ha => ⟨fun h => ?_, fun ho hcol hk hx hs => ?_⟩⟩
  · obtain h | h | h := h <;> simp [h]
  · simp [hb, ho, hm]
  · obtain ⟨t, he, hp⟩ := (exec_recfgWaitEnd hl hb hw hi hf).pol
    refine ⟨t, he, ?_, by rw [hp]; rfl⟩
    rw [hp]
    exact (s.pol p).tooRecent_reach _
  · obtain ⟨t, status, he, hg, hrd, hcode⟩ := exec_recfgDone hl hb hw hf ht hd
    refine ⟨t, he, by rw [hg], fun k o oc hk ho hoc => ?_, fun k => ?_, fun k hk => ?_, by rw [hg]; rfl, by rw [hg]; rfl,
      by rw [hrd, hcode]⟩
    · rw [hg]
      exact (s.pol p).grid.weir_advanceEpochs _ hk ho hoc
    · rw [hg]
      exact (s.pol p).grid.epoch_advanceEpochs hm k
    · rw [hg]
      exact (s.pol p).grid.find?_weirs_advanceEpochs hk
  · exact Polder.writeTable_outside h ▸ exec_slotTableWrite v ha
  · exact Polder.writeTable_stores ho hcol hk hx hs ▸ exec_slotTableWrite v ha

end
end Sys2Proof.Machine

/-! PROOFS. The issue unit of the grid: records, the variant table, the start and the end of a plot (R138 to R148). -/

namespace Sys2Proof.Machine

/-! What notes and completions leave. -/

theorem Module.Posted.raise (m : Module) (page bit : Nat) : m.Posted (m.raise page bit) :=
  (Module.Posted.wr m _ _ _).trans (.wr _ _ _ _)

/-- Noting an access sets at most DEBUG_USED, and posts (R467). -/
theorem State.noted_mod (s : State) (w : Who) : ∃ u, Module.Posted { s.mod with debugUsed := u } (s.noted w).mod := by
  have hnote : ∃ u, Module.Posted { s.mod with debugUsed := u } (s.mod.noteDebug w.req) := by
    unfold Module.noteDebug
    split
    · exact ⟨true, .raise _ _ _⟩
    · exact ⟨s.mod.debugUsed, .refl _⟩
  obtain ⟨u, h⟩ := hnote
  exact ⟨u, h.trans (s.onMod_mod _)⟩

theorem State.noted_commit (s : State) (w : Who) : (s.noted w).mod.commit = s.mod.commit := by
  obtain ⟨u, h⟩ := s.noted_mod w
  rw [h.eq]

theorem Polder.rd_wr_ne (p : Polder) {a b : Nat} (v : W32) (h : b ≠ a) : (p.wr a v).rd b = p.rd b := by
  rw [Polder.rd_wr, if_neg (by omega)]

theorem Polder.rd_raise_event (p : Polder) (page bit : Nat) :
    (p.raise page bit).rd (page + 0x14) = p.rd (page + 0x14) ||| BitVec.ofNat 32 (2 ^ bit) := by
  unfold Polder.raise Polder.count
  rw [Polder.rd_wr, if_neg (by omega), Polder.rd_wr_same]

section
variable (p : Polder) (o : Origin) (st : Status) (d : Bool) (v : W64)

theorem Polder.endCmd_eq : p.endCmd o st d v = { p with ended := (p.endCmd o st d v).ended } := by
  cases o <;> rfl

@[simp] theorem Polder.endCmd_grid : (p.endCmd o st d v).grid = p.grid := by rw [p.endCmd_eq]
@[simp] theorem Polder.endCmd_mem : (p.endCmd o st d v).mem = p.mem := by rw [p.endCmd_eq]
@[simp] theorem Polder.endCmd_engines : (p.endCmd o st d v).engines = p.engines := by rw [p.endCmd_eq]
@[simp] theorem Polder.endCmd_rd (off place : Nat) : (p.endCmd o st d v).rd off place = p.rd off place := by
  rw [p.endCmd_eq]
  rfl

end

/-! The end of an issue. -/

section
variable {q : Polder} {x : PolCtx} {i : Issue} {code : Status} {check : Nat}

/-- An issue that has not started ends (R140, R148): its status word and its completion. -/
def Polder.endIssue (q : Polder) (i : Issue) (code : Status) (check : Nat) : Polder :=
  let q := q.onGrid fun g => { g with issues := g.issues.erase i }
  let q := if i.origin.isReg then q.wr (GRD + 0x88) (fld 0 code.toNat ||| fld 8 check ||| fld 11 0 ||| fld 16 i.variant) else q
  ((if check = 0 then q else q.raise GRD 12).raise GRD 11).endCmd i.origin code false 0

theorem Polder.finishIssue_of_not_running (h : i.phase ≠ .running) :
    q.finishIssue x i code check = q.endIssue i code check := by
  unfold Polder.finishIssue Polder.endIssue
  simp only [h, decide_false, Bool.and_false, bit01, ↓reduceIte, Bool.false_eq_true]

theorem Polder.endIssue_grid : (q.endIssue i code check).grid = { q.grid with issues := q.grid.issues.erase i } := by
  unfold Polder.endIssue
  dsimp only
  rw [Polder.endCmd_grid, Polder.raise_grid]
  split <;> split <;> rfl

theorem Polder.endIssue_mem : (q.endIssue i code check).mem = q.mem := by
  unfold Polder.endIssue
  dsimp only
  rw [Polder.endCmd_mem, Polder.raise_mem]
  split <;> split <;> rfl

theorem Polder.endIssue_engines : (q.endIssue i code check).engines = q.engines := by
  unfold Polder.endIssue
  dsimp only
  rw [Polder.endCmd_engines, Polder.raise_engines]
  split <;> split <;> rfl

theorem Polder.endIssue_event : (q.endIssue i code check).rd (GRD + 0x14) =
    (if check = 0 then q.rd (GRD + 0x14) else q.rd (GRD + 0x14) ||| BitVec.ofNat 32 (2 ^ 12)) ||| BitVec.ofNat 32 (2 ^ 11) := by
  have hword (p : Polder) (v : W32) : (if i.origin.isReg = true then p.wr (GRD + 0x88) v else p).rd (GRD + 0x14) =
      p.rd (GRD + 0x14) := by
    split
    · exact p.rd_wr_ne v (by decide)
    · rfl
  unfold Polder.endIssue
  dsimp only
  rw [Polder.endCmd_rd, Polder.rd_raise_event]
  split
  · rw [hword]
    rfl
  · rw [Polder.rd_raise_event, hword]
    rfl

theorem Polder.endIssue_status : (q.endIssue i code check).rd (GRD + 0x88) =
    if i.origin.isReg then fld 0 code.toNat ||| fld 8 check ||| fld 11 0 ||| fld 16 i.variant else q.rd (GRD + 0x88) := by
  have hraise (p : Polder) (bit : Nat) : (p.raise GRD bit).rd (GRD + 0x88) = p.rd (GRD + 0x88) :=
    p.rd_raise (by decide) (by decide)
  have hcheck (p : Polder) : (if check = 0 then p else p.raise GRD 12).rd (GRD + 0x88) = p.rd (GRD + 0x88) := by
    split
    · rfl
    · exact hraise p 12
  unfold Polder.endIssue
  dsimp only
  rw [Polder.endCmd_rd, hraise, hcheck]
  split
  · rw [Polder.rd_wr_same]
  · rfl

theorem Polder.endIssue_ended_reg {ctx : BitVec 16} (h : i.origin = .reg ctx) :
    (q.endIssue i code check).ended = q.ended := by
  unfold Polder.endIssue
  rw [h]
  dsimp only [Polder.endCmd]
  rw [Polder.raise_ended]
  split <;> rfl

theorem Polder.endIssue_ended_cmd {slot : Fin 64} {tag ctx : BitVec 16} (h : i.origin = .cmd slot tag ctx) :
    (q.endIssue i code check).ended = q.ended ++ [⟨slot, tag, code, false, 0⟩] := by
  unfold Polder.endIssue
  rw [h]
  dsimp only [Polder.endCmd]
  rw [Polder.raise_ended]
  split <;> rfl

end


/-- What the end of an issue that has not started leaves (R140, R146, R148, R433). -/
theorem Polder.finishIssue_leaves (q : Polder) (x : PolCtx) (i : Issue) (code : Status) (check : Nat)
    (hph : i.phase ≠ .running) (hcheck : check < 8) (hvar : i.variant < 65536) :
    let r := q.finishIssue x i code check
    r.grid = { q.grid with issues := q.grid.issues.erase i } ∧ r.mem = q.mem ∧ r.engines = q.engines ∧
    (∀ ctx, i.origin = .reg ctx → bits (r.rd (GRD + 0x88)) 0 8 = code ∧ bitsN (r.rd (GRD + 0x88)) 8 3 = check ∧
      bitsN (r.rd (GRD + 0x88)) 16 16 = i.variant ∧ r.ended = q.ended) ∧
    (∀ slot tag ctx, i.origin = .cmd slot tag ctx → r.ended = q.ended ++ [⟨slot, tag, code, false, 0⟩] ∧
      r.rd (GRD + 0x88) = q.rd (GRD + 0x88)) ∧
    ((r.rd (GRD + 0x14)).getLsbD 11 = true) ∧ (check ≠ 0 → (r.rd (GRD + 0x14)).getLsbD 12 = true) := by
  dsimp only
  rw [Polder.finishIssue_of_not_running hph, Polder.endIssue_event, Polder.endIssue_status]
  refine ⟨Polder.endIssue_grid, Polder.endIssue_mem, Polder.endIssue_engines, fun ctx ho => ?_,
    fun slot tag ctx ho => ?_, ?_, fun hne => ?_⟩
  · rw [ho, if_pos (show (Origin.reg ctx).isReg = true from rfl)]
    refine ⟨?_, ?_, ?_, ?_⟩
    · rw [bits_or, bits_or, bits_or, bits_fld_same _ (by omega), bits_fld_above _ (by omega), bits_fld_above _ (by omega),
        bits_fld_above _ (by omega)]
      simp
    · have hfield : bits (fld 0 code.toNat ||| fld 8 check ||| fld 11 0 ||| fld 16 i.variant) 8 3 = BitVec.ofNat 3 check := by
        rw [bits_or, bits_or, bits_or, bits_fld_below (m := 8) code.isLt (by omega), bits_fld_same _ (by omega),
          bits_fld_above _ (by omega), bits_fld_above _ (by omega)]
        simp
      exact (congrArg BitVec.toNat hfield).trans (Nat.mod_eq_of_lt hcheck)
    · have hfield : bits (fld 0 code.toNat ||| fld 8 check ||| fld 11 0 ||| fld 16 i.variant) 16 16 =
          BitVec.ofNat 16 i.variant := by
        rw [bits_or, bits_or, bits_or, bits_fld_below (m := 8) code.isLt (by omega),
          bits_fld_below (m := 3) (by omega) (by omega), bits_fld_below (m := 1) (by omega) (by omega),
          bits_fld_same _ (by omega)]
        simp
      exact (congrArg BitVec.toNat hfield).trans (Nat.mod_eq_of_lt hvar)
    · exact Polder.endIssue_ended_reg ho
  · exact ⟨Polder.endIssue_ended_cmd ho, by rw [ho]; rfl⟩
  · simp
  · simp [hne]

/-! GO, the checks, the start and the completion of an issue. -/

section
variable {q : Polder} {x : PolCtx}

theorem Polder.nextIssue_idle (n : Nat) (h : ∀ i ∈ q.grid.issues, i.phase ≠ .waiting) : Polder.nextIssue x n q = q := by
  cases n with
  | zero => rfl
  | succ n =>
    unfold Polder.nextIssue
    have hnone : q.grid.issues.find? (fun i => i.phase = .waiting) = none :=
      List.find?_eq_none.mpr fun i hi => by simpa using h i hi
    rw [hnone]
    split <;> rfl

/-- An issue that reaches an idle unit. -/
def Issue.fresh (ws : List W32) (o : Origin) : Issue :=
  { words := ws, origin := o, phase := .waiting, variant := 0, startPc := 0, zero := false, ready := 0, startTide := 0
    fail := none }

/-- The unit holds one issue. -/
def Polder.withIssue (q : Polder) (i : Issue) : Polder := q.onGrid fun g => { g with issues := [i] }

theorem Polder.submitIssue_idle {ws : List W32} {o : Origin} (hc : x.mod.commit = none) (hi : q.grid.issues = []) :
    q.submitIssue x ws o = (q.withIssue (.fresh ws o)).beginIssue x (.fresh ws o) := by
  unfold Polder.submitIssue
  have hwait : (x.mod.commit.isSome && decide (q.wdn.st = .running)) = false := by rw [hc]; rfl
  have hadd : (q.onGrid fun g => { g with issues := g.issues ++ [Issue.fresh ws o] }) = q.withIssue (.fresh ws o) :=
    congrArg (fun l => q.onGrid fun g => { g with issues := l ++ [Issue.fresh ws o] }) hi
  rw [if_neg (ne_true_of_eq_false hwait), hi]
  exact (congrArg (Polder.nextIssue x 1) hadd).trans rfl

theorem Polder.plotState_withIssue {i : Issue} (r : Rect) (hi : q.grid.issues = []) (h : i.phase ≠ .pending) :
    (q.withIssue i).plotState r = q.plotState r := by
  unfold Polder.plotState Polder.acceptedIssues Polder.issueAhead
  have hdrained : (q.withIssue i).drained r = q.drained r := rfl
  have hissues : (q.withIssue i).grid.issues = [i] := rfl
  rw [hdrained, hi, hissues]
  simp only [List.filter_cons, h, decide_false, Bool.false_eq_true, ↓reduceIte, List.filter_nil, List.any_cons,
    Bool.false_and, List.any_nil, Bool.or_self]
  rfl

/-- A record that is not well formed ends at once (R138, R140). -/
theorem Polder.beginIssue_malformed {ws : List W32} {o : Origin} (h : recordOk ws = false) :
    (q.withIssue (.fresh ws o)).beginIssue x (.fresh ws o) =
      (q.withIssue (.fresh ws o)).endIssue (.fresh ws o) Status.internal 1 := by
  unfold Polder.beginIssue
  rw [if_pos (by rw [show (Issue.fresh ws o).words = ws from rfl, h]; rfl),
    Polder.finishIssue_of_not_running IssuePhase.noConfusion]

/-- An issue that passes checks 1 and 2 reads its table (R140). -/
theorem Polder.beginIssue_reads {ws : List W32} {o : Origin} (h : recordOk ws = true) (hi : q.grid.issues = [])
    (hp : q.plotState (recWord ws 0) = none) :
    (q.withIssue (.fresh ws o)).beginIssue x (.fresh ws o) = q.withIssue { Issue.fresh ws o with phase := .reading } := by
  unfold Polder.beginIssue
  have hstate : (q.withIssue (.fresh ws o)).plotState (Issue.fresh ws o).rect = none :=
    (Polder.plotState_withIssue _ hi (by simp [Issue.fresh])).trans hp
  rw [if_neg (by rw [show (Issue.fresh ws o).words = ws from rfl, h]; decide), hstate]
  simp [Polder.withIssue, Polder.onGrid]

end

section
variable {q : Polder} {x : PolCtx} {i : Issue}

theorem Polder.beginIssue_grid {ws : List W32} {o : Origin} (h : recordOk ws = false) (hi : q.grid.issues = []) :
    ((q.withIssue (.fresh ws o)).beginIssue x (.fresh ws o)).grid = q.grid := by
  rw [Polder.beginIssue_malformed h, Polder.endIssue_grid]
  have herase : (q.withIssue (.fresh ws o)).grid.issues.erase (.fresh ws o) = q.grid.issues := by
    rw [hi]
    exact List.erase_cons_head (a := Issue.fresh ws o) (l := [])
  rw [herase]
  rfl

theorem Polder.issues_withIssue (q : Polder) (i : Issue) : (q.withIssue i).grid.issues = [i] := rfl

/-- The issue of the unit is replaced. -/
theorem Polder.replaceIssue {i' : Issue} (h : q.grid.issues = [i]) :
    (q.onGrid fun g => { g with issues := g.issues.map fun j => if j = i then i' else j }) = q.withIssue i' := by
  have hmap : q.grid.issues.map (fun j => if j = i then i' else j) = [i'] := by
    rw [h, List.map_singleton, if_pos rfl]
  exact congrArg (fun l => q.onGrid fun g => { g with issues := l }) hmap

/-- The unit is idle once its issue has ended. -/
theorem Polder.nextIssue_ended {n : Nat} {code : Status} {check : Nat} (hi : q.grid.issues = [i]) (hph : i.phase ≠ .running) :
    Polder.nextIssue x n (q.finishIssue x i code check) = q.finishIssue x i code check := by
  refine Polder.nextIssue_idle n fun j hj => ?_
  rw [Polder.finishIssue_of_not_running hph, Polder.endIssue_grid, hi] at hj
  simp at hj

/-- What the table of an issue answers (R139, R140, R142): its header `h`, its bucket sizes, and the entry `e` of the
variant `n`. -/
structure Issue.Reads (q : Polder) (x : PolCtx) (i : Issue) (h e : MemRes) (n : Nat) : Prop where
  aligned : (recWord i.words 5 ++ recWord i.words 4 : W64).toNat % 64 = 0
  tier : gaTier (recWord i.words 5 ++ recWord i.words 4) = 1 ∨ gaTier (recWord i.words 5 ++ recWord i.words 4) = 2
  own : x.isOwn q (recWord i.words 5 ++ recWord i.words 4) = true
  header : q.memRead x (blockBy i.origin.ctx) (gaTier (recWord i.words 5 ++ recWord i.words 4))
    (gaOff (recWord i.words 5 ++ recWord i.words 4)) 64 = h
  headerOk : h.st = Status.done
  zeros : (h.data.drop 51).all (· == 0) = true
  index : ∃ bk b0 b1 b2, (List.range 3).map (buckets h.data (bitsN (recWord i.words 2) 8 2)) = bk.map some ∧
    bucketIdx i.words bk 0 = some b0 ∧ bucketIdx i.words bk 1 = some b1 ∧ bucketIdx i.words bk 2 = some b2 ∧
    n = b0 + 8 * b1 + 64 * b2
  entry : h.p.memRead x (blockBy i.origin.ctx) (gaTier (recWord i.words 5 ++ recWord i.words 4))
    (gaOff (recWord i.words 5 ++ recWord i.words 4) + 64 + 16 * n) 16 = e
  entryOk : e.st = Status.done
  alone : e.p.grid.issues = [i]

theorem Issue.Reads.checkIssue {h e : MemRes} {n : Nat} (r : Issue.Reads q x i h e n) :
    (((e.data[1]?).getD 0).toNat < 128 → q.checkIssue x i =
      (e.p.withIssue { i with variant := n }).finishIssue x { i with variant := n } Status.shapeExceedsBucket 4) ∧
    (∀ v, 128 ≤ ((e.data[1]?).getD 0).toNat → variantOf i.words e.data = some v →
      q.checkIssue x i = (e.p.withIssue { i with variant := n }).acceptIssue x { i with variant := n } v) := by
  obtain ⟨haligned, htier, hown, hheader, hheaderOk, hzeros, ⟨bk, b0, b1, b2, hbk, h0, h1, h2, hn⟩, hentry, hentryOk, halone⟩ := r
  subst hn
  have haddr : ((recWord i.words 5 ++ recWord i.words 4 : W64).toNat % 64 == 0 &&
      (gaTier (recWord i.words 5 ++ recWord i.words 4) == 1 || gaTier (recWord i.words 5 ++ recWord i.words 4) == 2) &&
      x.isOwn q (recWord i.words 5 ++ recWord i.words 4)) = true := by
    rw [hown, haligned]
    simpa using htier
  have hwell : ((List.map some bk).any Option.isNone || (h.data.drop 51).any (· != 0)) = false := by
    rw [Bool.or_eq_false_iff, List.any_map]
    refine ⟨by simp, ?_⟩
    rw [List.any_eq_false]
    intro b hb
    simpa using List.all_eq_true.mp hzeros b hb
  have hsome : (List.map some bk).map (fun b => b.getD []) = bk := by simp
  unfold Polder.checkIssue
  dsimp only
  rw [if_neg (by rw [haddr]; decide), hheader, if_neg (not_not.mpr hheaderOk), hbk, if_neg (ne_true_of_eq_false hwell), hsome,
    h0, h1, h2]
  dsimp only
  rw [hentry, if_neg (not_not.mpr hentryOk), Polder.replaceIssue halone]
  refine ⟨fun hv => if_pos hv, fun v hv hvar => ?_⟩
  rw [if_neg (by omega), hvar]

/-! Setup (R135, R137, R143 to R145). -/

theorem Polder.cell_onCells (q : Polder) {r : Rect} (h : r.malformed = false) (f : Cell → Cell) (k : Nat) :
    (q.onCells r f).cell k = if r.hasKey k then f (q.cell k) else q.cell k := by
  have hfold := foldl_at (get := Polder.cell) (f := f) (step := fun p k => p.setCell k (f (p.cell k)))
    (fun p k j => Polder.cell_setCell _ _ _ _) r.keys (Rect.nodup_keys h) q k
  simp only [Rect.mem_keys h] at hfold
  exact hfold

/-- A pass whose steps change the grid's cells only. -/
theorem Polder.foldl_cells {step : Polder → Nat → Polder}
    (h : ∀ p k, ∃ m, step p k = p.onGrid fun g => { g with cells := m }) (l : List Nat) (q : Polder) :
    ∃ m, l.foldl step q = q.onGrid fun g => { g with cells := m } := by
  induction l generalizing q with
  | nil => exact ⟨q.grid.cells, rfl⟩
  | cons k l ih =>
    obtain ⟨m, hm⟩ := h q k
    obtain ⟨n, hn⟩ := ih (step q k)
    rw [List.foldl_cons, hn, hm]
    exact ⟨n, rfl⟩

theorem Polder.onCells_eq (q : Polder) (r : Rect) (f : Cell → Cell) :
    ∃ m, q.onCells r f = q.onGrid fun g => { g with cells := m } :=
  Polder.foldl_cells (fun _ _ => ⟨_, rfl⟩) r.keys q

/-- A pass whose steps change the engines only. -/
theorem Polder.foldl_engines {step : Polder → Nat → Polder} (h : ∀ p e, ∃ m, step p e = { p with engines := m })
    (l : List Nat) (q : Polder) : ∃ m, l.foldl step q = { q with engines := m } := by
  induction l generalizing q with
  | nil => exact ⟨q.engines, rfl⟩
  | cons e l ih =>
    obtain ⟨m, hm⟩ := h q e
    obtain ⟨n, hn⟩ := ih (step q e)
    rw [List.foldl_cons, hn, hm]
    exact ⟨n, rfl⟩

/-- Check 5 (R135). -/
theorem Polder.acceptIssue_overcommit {v : Variant} (h : 64 < accDemand i.words v) :
    q.acceptIssue x i v = (q.wr (GRD + 0x8C) (demandWord (accDemand i.words v) 0 0)).finishIssue x i Status.accOvercommit 5 :=
  if_pos h

/-- An issue that passes every check is set up and waits for its tide (R143 to R145). -/
theorem Polder.acceptIssue_pending {v : Variant} (hi : q.grid.issues = [i]) (h : accDemand i.words v ≤ 64)
    (hr : regionFail i.words v = none) (hw : recWord i.words 3 = 0) :
    q.acceptIssue x i v = ((q.wr (GRD + 0x8C) (demandWord (accDemand i.words v) 0 0)).onCells i.rect
      fun c => c.setUp i.words v.pc).withIssue
        { i with phase := .pending, startPc := v.pc, zero := zeroExtent i.words, ready := q.cycle + setupCycles i.words
                 startTide := tide16 (q.cycle + setupCycles i.words) } := by
  have hnamed : (recWord i.words 3).toNat = 0 := by rw [hw]; rfl
  obtain ⟨m, hm⟩ := (q.wr (GRD + 0x8C) (demandWord (accDemand i.words v) 0 0)).onCells_eq i.rect fun c =>
    c.setUp i.words v.pc
  unfold Polder.acceptIssue
  dsimp only
  rw [if_neg (by omega), hr]
  dsimp only
  rw [hnamed, if_neg (by simp), if_pos rfl]
  exact Polder.replaceIssue (by rw [hm]; exact hi)

end

theorem Polder.endIssue_rd {q : Polder} {i : Issue} {code : Status} {check off : Nat} (h1 : off ≠ GRD + 0x88)
    (h2 : off ≠ GRD + 0x14) (h3 : off ≠ GRD + 0x20) : (q.endIssue i code check).rd off = q.rd off := by
  unfold Polder.endIssue
  dsimp only
  rw [Polder.endCmd_rd, Polder.rd_raise _ h2 h3]
  have hcheck (p : Polder) : (if check = 0 then p else p.raise GRD 12).rd off = p.rd off := by
    split
    · rfl
    · exact p.rd_raise h2 h3
  rw [hcheck]
  split
  · rw [Polder.rd_wr_ne _ _ h1]
    rfl
  · rfl

/-! The start and the completion of a plot. -/

section
variable {q : Polder} {x : PolCtx}

/-- The start of a plot begins its cells and changes nothing of the grid besides them (R145). -/
theorem Polder.startPlot_eq (q : Polder) (r : Rect) (tide : Nat) : ∃ m,
    q.startPlot r tide = { q.onCells r fun c => c.begin tide with engines := m } := by
  unfold Polder.startPlot
  refine Polder.foldl_engines (fun p e => ?_) _ _
  dsimp only
  split
  · exact ⟨_, rfl⟩
  · exact ⟨p.engines, rfl⟩

theorem Polder.startIssue_named {j : Issue} (hfault : q.faultedEngine j.rect = none) (hnamed : recWord j.words 3 ≠ 0)
    (hle : q.cycle ≤ 64 * j.startTide) : ∃ regs m, q.startIssue x j =
      { ((q.reach (64 * j.startTide)).onCells j.rect fun c => c.begin j.startTide).onGrid fun g => { g with
          issues := g.issues.map fun i => if i = j then { i with phase := .running, startTide := j.startTide } else i } with
        regs := regs, engines := m } := by
  obtain ⟨m, hm⟩ := (q.reach (64 * j.startTide)).startPlot_eq j.rect j.startTide
  unfold Polder.startIssue
  rw [hfault]
  dsimp only
  rw [decide_eq_true hnamed, if_pos hnamed, if_neg (by simpa using hle), hm]
  split
  · exact ⟨_, m, rfl⟩
  · exact ⟨_, m, rfl⟩

theorem exec_plotStart {p : Pid} {s : State} {n : Nat} {j : Issue} (hl : s.live p 5 = true)
    (hj : (s.pol p).grid.issues[n]? = some j) (hph : j.phase = .pending) (hfz : (s.pol p).grid.hold.frozen = false)
    (hfail : j.fail = none) (hmay : (s.pol p).mayStart = true) (hsc : (s.pol p).scalesBusy = false) :
    s.Gives (.plotStart p n) p ((s.pol p).startIssue (s.ctxOf p) j) := by
  refine State.gives_event rfl hl ?_
  rw [hj]
  exact if_pos (by rw [hph, hfail, hmay, hsc, hfz]; rfl)

theorem exec_startTideMissed {p : Pid} {s : State} {n : Nat} {j : Issue} (hl : s.live p 5 = true)
    (hj : (s.pol p).grid.issues[n]? = some j) (hph : j.phase = .pending) (hfz : (s.pol p).grid.hold.frozen = false)
    (hnamed : recWord j.words 3 ≠ 0) (hnot : (s.pol p).mayStart = false ∨ (s.pol p).scalesBusy = true) :
    s.Gives (.startTideMissed p n) p
      (((s.pol p).reach (64 * j.startTide)).finishIssue (s.ctxOf p) j Status.steerLate 7) := by
  refine State.gives_event rfl hl ?_
  rw [hj]
  refine if_pos ?_
  rw [hph, hfz, decide_eq_true hnamed]
  obtain h | h := hnot <;> rw [h] <;> simp

theorem Polder.plotCode_done {r : Rect} (hf : ∀ e ∈ q.grid.cells, r.hasKey e.1 = true → e.2.st ≠ .faulted)
    (hh : ∀ k ∈ r.keys, (q.cell k).st = .halted) : q.plotCode r none = some Status.done := by
  unfold Polder.plotCode
  have hnone : List.find? (fun e => r.hasKey e.1 && e.2.st = .faulted) q.grid.cells = none :=
    List.find?_eq_none.mpr fun e he => by simpa using hf e he
  have hall : (r.keys.all fun k => (q.cell k).st = .halted) = true :=
    List.all_eq_true.mpr fun k hk => decide_eq_true (hh k hk)
  dsimp only
  rw [hnone]
  exact if_pos hall

theorem exec_issueComplete {p : Pid} {s : State} {n : Nat} {j : Issue} (hl : s.live p 5 = true)
    (hj : (s.pol p).grid.issues[n]? = some j) (hph : j.phase = .running) (hfail : j.fail = none)
    (hcode : (s.pol p).plotCode j.rect none = some Status.done) :
    s.Gives (.issueComplete p n) p ((s.pol p).finishIssue (s.ctxOf p) j Status.done 0) := by
  refine State.gives_event rfl hl ?_
  rw [hj]
  dsimp only
  rw [hph, hfail]
  dsimp only
  rw [hcode]

theorem exec_variantTableReadDone {p : Pid} {s : State} {i : Issue} (hl : s.live p 5 = true)
    (hi : (s.pol p).grid.issues = [i]) (hph : i.phase = .reading) :
    s.Gives (.variantTableReadDone p) p (Polder.nextIssue (s.ctxOf p) 2 ((s.pol p).checkIssue (s.ctxOf p) i)) := by
  refine State.gives_event rfl hl ?_
  rw [hi]
  simp only [List.find?_cons, hph, decide_true]
  rfl

end

theorem exec_issueGo {p : Pid} {s : State} {w : Who} (ha : s.Admits p (GRD + 0x84) w) :
    s.GivesW w (.issueGo p w) p (if (s.pol p).issueBusy then s.pol p
      else (s.pol p).submitIssue ((s.noted w).ctxOf p) (s.pol p).issueRec (.reg w.ctx)) :=
  State.gives_page rfl ha rfl

/-- Settles O26: each part is its command's equation; what `finishIssue` leaves is said of every issue at once. -/
theorem issuesCheckStartAndComplete : Obligations.IssuesCheckStartAndComplete := by
  unfold Obligations.IssuesCheckStartAndComplete
  refine ⟨fun p s => ?_, fun q x i code check => Polder.finishIssue_leaves q x i code check⟩
  dsimp only
  refine ⟨fun w ha hb => ?_, fun w ha hb hi hc => ⟨fun hok hst => ?_, fun hok => ?_⟩,
    fun i v h e bk b0 b1 b2 hl hi hph hal htier hown hh hhok hbk hz h0 h1 h2 he heok halone => ?_,
    fun n j hl hj hph hfz => ⟨fun hfail hmay hsc hfe hnamed hle => ?_,
      fun hnamed hnot => exec_startTideMissed hl hj hph hfz hnamed hnot⟩,
    fun n j hl hj hph hfail hf hh => exec_issueComplete hl hj hph hfail (Polder.plotCode_done hf hh)⟩
  · have hgo := exec_issueGo ha
    rwa [if_pos hb] at hgo
  · obtain ⟨t, ht, hp⟩ := (exec_issueGo ha).pol
    have hcommit : ((s.noted w).ctxOf p).mod.commit = none := (s.noted_commit w).trans hc
    rw [if_neg (ne_true_of_eq_false hb), Polder.submitIssue_idle hcommit hi, Polder.beginIssue_reads hok hi hst] at hp
    exact ⟨t, ht, by rw [hp]; rfl⟩
  · obtain ⟨t, ht, hp⟩ := (exec_issueGo ha).pol
    have hcommit : ((s.noted w).ctxOf p).mod.commit = none := (s.noted_commit w).trans hc
    rw [if_neg (ne_true_of_eq_false hb), Polder.submitIssue_idle hcommit hi] at hp
    refine ⟨t, ht, by rw [hp]; exact Polder.beginIssue_grid hok hi, ?_, ?_⟩
    · rw [hp, Polder.beginIssue_malformed hok, Polder.sent_rd, Polder.endIssue_status]
      exact (if_pos rfl).trans (show fld 0 Status.internal.toNat ||| fld 8 1 ||| fld 11 0 ||| fld 16 0 = 0x1FF by decide)
    · rw [hp, Polder.beginIssue_malformed hok, Polder.sent_rd]
      exact Polder.endIssue_rd (by decide) (by decide) (by decide)
  · have hreads : Issue.Reads (s.pol p) (s.ctxOf p) i h e (b0 + 8 * b1 + 64 * b2) :=
      ⟨hal, htier, hown, hh, hhok, hz, ⟨bk, b0, b1, b2, hbk, h0, h1, h2, rfl⟩, he, heok, halone⟩
    have hgives := exec_variantTableReadDone hl hi hph
    obtain ⟨hinvalid, hvalid⟩ := hreads.checkIssue
    refine ⟨fun hv => ?_, fun hv hvar => ⟨fun hacc => ?_, fun hacc hreg hnamed => ?_⟩⟩
    · rw [hinvalid hv, Polder.nextIssue_ended (Polder.issues_withIssue _ _) (by simp [hph])] at hgives
      exact hgives
    · rw [hvalid v hv hvar, Polder.acceptIssue_overcommit (i := { i with variant := b0 + 8 * b1 + 64 * b2 }) hacc,
        Polder.nextIssue_ended rfl (by simp [hph])] at hgives
      exact hgives
    · obtain ⟨t, ht, hp⟩ := hgives.pol
      rw [hvalid v hv hvar, Polder.acceptIssue_pending (i := { i with variant := b0 + 8 * b1 + 64 * b2 })
        (Polder.issues_withIssue _ _) hacc hreg hnamed, Polder.nextIssue_idle 2 (by simp [Polder.issues_withIssue])] at hp
      refine ⟨t, ht, by rw [hp]; rfl, fun k hm => ?_⟩
      rw [hp]
      exact Polder.cell_onCells _ hm _ k
  · obtain ⟨t, ht, hp⟩ := (exec_plotStart hl hj hph hfz hfail hmay hsc).pol
    obtain ⟨regs, m, hstart⟩ := Polder.startIssue_named (x := s.ctxOf p) hfe hnamed hle
    rw [hstart] at hp
    obtain ⟨m', hcells⟩ := ((s.pol p).reach (64 * j.startTide)).onCells_eq j.rect fun c => c.begin j.startTide
    refine ⟨t, ht, ?_, ?_, fun k hm => ?_⟩
    · rw [hp, hcells]
      exact List.map_congr_left fun i _ => by
        split
        case isTrue heq =>
          subst heq
          rfl
        case isFalse => rfl
    · rw [hp, hcells]
      exact Nat.max_eq_right hle
    · rw [hp]
      exact Polder.cell_onCells ((s.pol p).reach (64 * j.startTide)) hm (fun c => c.begin j.startTide) k
end Sys2Proof.Machine

/-! PROOFS. The fused pipeline: the start of a run, its table, its passes, the stash and its end (R149 to R174). -/

namespace Sys2Proof.Machine

/-! A change of plots: the cells and the engines only. -/

/-- Of the first polder, the second changes at most cells and engines. -/
def Polder.PlotsOnly (p q : Polder) : Prop := ∃ m e, q = { p with grid := { p.grid with cells := m }, engines := e }

theorem Polder.PlotsOnly.refl (p : Polder) : p.PlotsOnly p := ⟨p.grid.cells, p.engines, rfl⟩

theorem Polder.PlotsOnly.trans {p q r : Polder} (h : p.PlotsOnly q) (g : q.PlotsOnly r) : p.PlotsOnly r := by
  obtain ⟨m, e, rfl⟩ := h
  obtain ⟨m', e', rfl⟩ := g
  exact ⟨m', e', rfl⟩

theorem Polder.PlotsOnly.foldl {α : Type} {f : Polder → α → Polder} (h : ∀ p a, Polder.PlotsOnly p (f p a)) (l : List α)
    (p : Polder) : p.PlotsOnly (l.foldl f p) :=
  List.foldlRecOn (motive := Polder.PlotsOnly p) l f (.refl p) fun q hq a _ => hq.trans (h q a)

theorem Polder.PlotsOnly.onCells (p : Polder) (r : Rect) (f : Cell → Cell) : p.PlotsOnly (p.onCells r f) := by
  obtain ⟨m, hm⟩ := p.onCells_eq r f
  exact ⟨m, p.engines, hm⟩

theorem Polder.PlotsOnly.cycle {p q : Polder} (h : p.PlotsOnly q) : q.cycle = p.cycle := by
  obtain ⟨m, e, rfl⟩ := h
  rfl

/-! GO and the gate (R170 to R173). -/

section
variable {q : Polder} {x : PolCtx}

/-- A run that waits for its gate, by the header of its table (R169, R172). -/
def PipeRun.waiting (o : Origin) (tab : W64) (b : List Byte) : PipeRun :=
  { origin := o, phase := .gate, table := tab, fused := leN b 1 1 == 1, m := leN b 2 2, period := leN b 4 4
    gateMask := BitVec.ofNat 4 (leN b 10 1), handSeq := BitVec.ofNat 32 (leN b 12 4), leads := wordsOf (b.drop 16) 4
    stages := [], t0 := 0, pass := 0, entries := [], switched := [], fail := none }

theorem Polder.submitPipe_busy {tab : W64} {o : Origin} (hc : x.mod.commit = none) (hp : q.grid.pipe ≠ none) :
    q.submitPipe x tab o = q.refusePipe o Status.refusedBusy 2 0 0xFF := by
  unfold Polder.submitPipe
  rw [if_neg (by rw [hc]; simp), if_pos (Option.isSome_iff_ne_none.mpr hp)]

theorem Polder.submitPipe_waits {tab : W64} {o : Origin} {h : MemRes} (hc : x.mod.commit = none) (hp : q.grid.pipe = none)
    (hal : tab.toNat % 64 = 0) (htier : gaTier tab = 1 ∨ gaTier tab = 2) (hown : x.isOwn q tab = true)
    (hh : q.memRead x (blockBy o.ctx) (gaTier tab) (gaOff tab) 64 = h) (hok : h.st = Status.done) :
    q.submitPipe x tab o = h.p.onGrid fun g => { g with pipe := some (.waiting o tab h.data) } := by
  unfold Polder.submitPipe
  have haddr : (tab.toNat % 64 == 0 && (gaTier tab == 1 || gaTier tab == 2) && x.isOwn q tab) = true := by
    rw [hown, hal]
    simpa using htier
  dsimp only
  rw [if_neg (by rw [hc]; simp), hp, if_neg (by simp), if_neg (by rw [haddr]; decide), hh, if_neg (not_not.mpr hok)]
  rfl

theorem Polder.gateOpen_iff (r : PipeRun) : q.gateOpen r = true ↔ ∀ n < 4, r.gateMask.getLsbD n = true →
    handMeets (q.handSeq n) (q.handDone n) r.handSeq ((r.leads[n]?).getD 0) = true := by
  unfold Polder.gateOpen
  rw [List.all_eq_true]
  refine forall_congr' fun n => ?_
  rw [List.mem_range, Bool.or_eq_true, Bool.not_eq_true']
  cases r.gateMask.getLsbD n <;> simp

end

section
variable {p : Pid} {s : State} {w : Who}

theorem exec_pipeGo (ha : s.Admits p (GRD + 0x128) w) :
    s.GivesW w (.pipeGo p w) p (if (s.pol p).pipeBusy then s.pol p
      else (s.pol p).submitPipe ((s.noted w).ctxOf p) ((s.pol p).pair (GRD + 0x120)) (.reg w.ctx)) :=
  State.gives_page rfl ha rfl

theorem exec_pipeGateOpen {r : PipeRun} (hl : s.live p 5 = true) (hr : (s.pol p).grid.pipe = some r) (hph : r.phase = .gate) :
    s.Gives (.pipeGateOpen p) p (if (s.pol p).gateOpen r
      then (s.pol p).onGrid fun g => { g with pipe := some { r with phase := .reading } } else s.pol p) := by
  refine State.gives_event rfl hl ?_
  rw [hr]
  simp [hph]

theorem exec_pipeTableReadDone {r : PipeRun} (hl : s.live p 5 = true) (hr : (s.pol p).grid.pipe = some r)
    (hph : r.phase = .reading) : s.Gives (.pipeTableReadDone p) p ((s.pol p).pipeRead (s.ctxOf p) r) := by
  refine State.gives_event rfl hl ?_
  rw [hr]
  exact if_pos hph

theorem exec_passBegin {r : PipeRun} (hl : s.live p 5 = true) (hr : (s.pol p).grid.pipe = some r)
    (hf : (s.pol p).grid.hold.frozen = false) : ∃ t, exec (.passBegin p) s = .next t ∧
      t.pol p = ((s.pol p).passBegin (s.ctxOf p) r).sent := by
  refine ⟨_, congrArg Host.Outcome.next (if_pos hl), (s.pol_onPolFree p _).trans ?_⟩
  rw [hr]
  exact congrArg Polder.sent (if_neg (ne_true_of_eq_false hf))

theorem exec_stashCopyOut {r : PipeRun} (stage : Fin 64) (rec : Fin 32) (hl : s.live p 5 = true)
    (hr : (s.pol p).grid.pipe = some r) (hph : r.phase = .running) :
    s.Gives (.stashCopyOut p stage rec) p ((s.pol p).copyOut (s.ctxOf p) r stage.val rec.val) := by
  refine State.gives_event rfl hl ?_
  rw [hr]
  exact if_pos hph

theorem exec_stashReturn {r : PipeRun} (stage : Fin 64) (rec : Fin 32) (hl : s.live p 5 = true)
    (hr : (s.pol p).grid.pipe = some r) (hph : r.phase = .running) :
    s.Gives (.stashReturn p stage rec) p ((s.pol p).onGrid fun g => { g with pipe := some { r with
      entries := r.entries.map fun e =>
        if e.stage = stage.val ∧ e.recIdx = rec.val ∧ r.bwd stage.val (r.pass + 1) = some e.micro
        then { e with returned := true } else e } }) := by
  refine State.gives_event rfl hl ?_
  rw [hr]
  exact if_pos hph

theorem exec_pipeRunComplete_fail {r : PipeRun} {c : Status} (hl : s.live p 5 = true) (hr : (s.pol p).grid.pipe = some r)
    (hc : r.fail = some c) (hph : r.phase = .running ∨ r.phase = .pending) :
    s.Gives (.pipeRunComplete p) p ((s.pol p).endPipe (s.ctxOf p) r c) := by
  refine State.gives_event rfl hl ?_
  rw [hr]
  dsimp only
  obtain hph | hph := hph <;> rw [hph, hc] <;> rfl

theorem exec_pipeRunComplete_done {r : PipeRun} (hl : s.live p 5 = true) (hr : (s.pol p).grid.pipe = some r)
    (hc : r.fail = none) (hph : r.phase = .running)
    (hd : ∀ st ∈ r.stages, (s.pol p).plotCode st.rect none = some Status.done) :
    s.Gives (.pipeRunComplete p) p ((s.pol p).endPipe (s.ctxOf p) r Status.done) := by
  have hall : ∀ c ∈ r.stages.map (fun st => (s.pol p).plotCode st.rect none), c = some Status.done := by
    intro c hc
    obtain ⟨st, hst, rfl⟩ := List.mem_map.mp hc
    exact hd st hst
  have hnone : (r.stages.map fun st => (s.pol p).plotCode st.rect none).find?
      (fun c => c.isSome && c != some Status.done) = none :=
    List.find?_eq_none.mpr fun c hc => by rw [hall c hc]; decide
  refine State.gives_event rfl hl ?_
  rw [hr]
  dsimp only
  rw [if_pos hph, hc]
  dsimp only
  rw [hnone]
  exact if_pos (List.all_eq_true.mpr fun c hc => beq_iff_eq.mpr (hall c hc))

end


/-! The table and the passes (R150, R163 to R170). -/

theorem PipeRun.waiting_fields (o : Origin) (tab : W64) (b : List Byte) :
    (PipeRun.waiting o tab b).phase = .gate ∧ (PipeRun.waiting o tab b).table = tab ∧
    (PipeRun.waiting o tab b).gateMask = BitVec.ofNat 4 (leN b 10 1) ∧
    (PipeRun.waiting o tab b).handSeq = BitVec.ofNat 32 (leN b 12 4) ∧
    (PipeRun.waiting o tab b).leads = wordsOf (b.drop 16) 4 :=
  ⟨rfl, rfl, rfl, rfl, rfl⟩

section
variable {q : Polder} {x : PolCtx} {r : PipeRun}

theorem Polder.pipeRead_malformed {q' : Polder} {t : PipeTable} (ht : q.readTable x r = (q', Status.done, t))
    (h : t.headerOk = false) : q.pipeRead x r = q'.refusePipe r.origin Status.internal 1 0 0xFF := by
  unfold Polder.pipeRead
  rw [ht]
  dsimp only
  rw [if_neg (by simp), if_pos (by rw [h]; rfl)]

/-- A start that passes every check waits for its tide, its cells set up (R145, R153, R170). -/
theorem Polder.pipeRead_pending {q' q'' : Polder} {t : PipeTable} {l : List (Stage × Nat)}
    (ht : q.readTable x r = (q', Status.done, t)) (h : t.headerOk = true)
    (hst : ∀ j < t.stages.length, t.stageOk q' x j = true) (hrec : ∀ e ∈ t.recs, e.ok = true)
    (hl : Polder.checkStages x r.origin.ctx t t.stages.length t.stages.length q' [] = (q'', .ok l)) :
    (q.pipeRead x r).grid.pipe = some { r with
      phase := .pending, fused := leN t.hdr 1 1 == 1, m := leN t.hdr 2 2, period := leN t.hdr 4 4
      handSeq := BitVec.ofNat 32 (leN t.hdr 12 4), stages := l.map (·.1)
      t0 := tide16 (q''.cycle + l.foldl (fun m q => max m q.2) 0) } := by
  have hstages : (List.range t.stages.length).find? (fun j => !t.stageOk q' x j) = none :=
    List.find?_eq_none.mpr fun j hj => by simpa using hst j (List.mem_range.mp hj)
  have hrecs : t.recs.findIdx? (fun s => !s.ok) = none :=
    List.findIdx?_eq_none_iff.mpr fun e he => by simpa using hrec e he
  have hset : q''.PlotsOnly ((l.map (·.1)).foldl (fun p s => p.onCells s.rect (s.setUp (leN t.hdr 2 2))) q'') :=
    .foldl (fun p s => .onCells p _ _) _ _
  unfold Polder.pipeRead
  rw [ht]
  dsimp only
  rw [if_neg (by simp), if_neg (by rw [h]; decide), hstages]
  dsimp only
  rw [hrecs]
  dsimp only
  rw [hl]
  dsimp only [Polder.onGrid]
  rw [← hset.cycle]
  split
  · rfl
  · rw [Polder.raise_cycle, Polder.count_cycle]

/-- Pass 0 starts the image at a tide that is a multiple of 16 (R150, R165). -/
theorem Polder.passBegin_first (hph : r.phase = .pending) (hmay : q.mayStart = true) (hsc : q.scalesBusy = false)
    (hf : ∀ st ∈ r.stages, q.faultedEngine st.rect = none) :
    (q.passBegin x r).grid.pipe = some { r with phase := .running, t0 := max r.t0 (tide16 q.cycle) } ∧
      (q.passBegin x r).rd (GRD + 0x130) = BitVec.ofNat 32 (max r.t0 (tide16 q.cycle)) ∧
      (q.passBegin x r).rd (GRD + 0x134) = 0 := by
  have hnone : r.stages.findSome? (fun s => q.faultedEngine s.rect) = none := List.findSome?_eq_none_iff.mpr hf
  unfold Polder.passBegin
  rw [hph]
  dsimp only
  rw [if_neg (by rw [hmay, hsc]; decide), hnone]
  refine ⟨rfl, ?_, ?_⟩
  · rw [Polder.onGrid_rd, Polder.rd_wr_ne _ _ (by decide), Polder.rd_wr_same]
  · rw [Polder.onGrid_rd, Polder.rd_wr_same]

/-- A later pass follows the one before; the entries whose microbatch went back are gone (R150, R164). -/
theorem Polder.passBegin_next (hph : r.phase = .running) (hlt : r.pass + 1 < r.total) :
    (q.passBegin x r).grid.pipe = some { r with
        pass := r.pass + 1, entries := r.entries.filter fun e => decide (r.bwd e.stage r.pass ≠ some e.micro) } ∧
      (q.passBegin x r).rd (GRD + 0x134) = BitVec.ofNat 32 (r.pass + 1) := by
  unfold Polder.passBegin
  rw [hph]
  dsimp only
  rw [if_neg (by omega)]
  refine ⟨rfl, ?_⟩
  rw [Polder.onGrid_rd, Polder.rd_wr_same]

/-- A root record's entry takes its granules (R162, R164). -/
theorem Polder.copyOut_root {j k i : Nat} {st : Stage} {rc : StashRec} (hpass : r.pass ≠ 0) (hs : r.stages[j]? = some st)
    (hrc : st.recs[k]? = some rc) (hi : r.fwd j (r.pass - 1) = some i) (hpol : rc.policy = 1) (hfb : rc.fallback = false)
    (hnew : ∀ e ∈ r.entries, ¬ (e.stage = j ∧ e.recIdx = k ∧ e.micro = i)) :
    q.copyOut x r j k = q.onGrid fun g => { g with pipe := some { r with entries := r.entries ++
      [⟨j, k, i, granule * st.rootAt (depthOf r.stages.length j) k i, rc.gran, false⟩] } } := by
  have hany : r.entries.any (fun e => e.stage == j && e.recIdx == k && e.micro == i) = false :=
    List.any_eq_false.mpr fun e he => by simpa [and_assoc] using hnew e he
  unfold Polder.copyOut
  rw [hs, if_neg hpass, hi]
  dsimp only
  rw [hrc]
  dsimp only
  rw [if_neg (by rw [hany, hpol]; simp), if_pos (by rw [hfb]; rfl)]

end

/-- Settles O27: each part is its command's equation; set-up, stash words and starts change plots only. -/
theorem pipelinesRunTheirPasses : Obligations.PipelinesRunTheirPasses := by
  unfold Obligations.PipelinesRunTheirPasses
  intro p s
  dsimp only
  refine ⟨fun w ha hb => ?_, fun w ha hb hc hp => ?_, fun w n isDone v ha => State.gives_page rfl ha rfl,
    fun w h ha hb hc hp hal htier hown hh hok => ?_, fun r hl hr => ⟨fun hph ho => ?_, fun hph hn => ?_,
      fun q' t hph ht => ⟨fun hbad => ?_, fun q'' l hok hst hrec hch => ?_⟩, fun hph hf hmay hsc hfe => ?_,
      fun hph hf hlt => ?_, fun stage rec st rc i hph hpass hs hrc hi hpol hfb hnew => ?_,
      fun stage rec hph => exec_stashReturn stage rec hl hr hph, fun c hc hph => exec_pipeRunComplete_fail hl hr hc hph,
      fun hc hph hd => exec_pipeRunComplete_done hl hr hc hph hd⟩⟩
  · have h := exec_pipeGo ha
    rwa [if_pos hb] at h
  · have h := exec_pipeGo ha
    rwa [if_neg (ne_true_of_eq_false hb), Polder.submitPipe_busy ((s.noted_commit w).trans hc) hp] at h
  · obtain ⟨t, he, ht⟩ := (exec_pipeGo ha).pol
    rw [if_neg (ne_true_of_eq_false hb), Polder.submitPipe_waits (o := .reg w.ctx)
      ((s.noted_commit w).trans hc) hp hal htier hown hh hok] at ht
    refine ⟨t, PipeRun.waiting (.reg w.ctx) ((s.pol p).pair (GRD + 0x120)) h.data, he, ?_, PipeRun.waiting_fields _ _ _⟩
    rw [ht]
    rfl
  · have h := exec_pipeGateOpen hl hr hph
    rwa [if_pos ((Polder.gateOpen_iff r).mpr ho)] at h
  · have h := exec_pipeGateOpen hl hr hph
    obtain ⟨n, hlt, hmask, hmeet⟩ := hn
    rwa [if_neg fun ho => ne_true_of_eq_false hmeet ((Polder.gateOpen_iff r).mp ho n hlt hmask)] at h
  · have h := exec_pipeTableReadDone hl hr hph
    rwa [Polder.pipeRead_malformed ht hbad] at h
  · obtain ⟨u, he, hu⟩ := (exec_pipeTableReadDone hl hr hph).pol
    refine ⟨u, he, ?_⟩
    rw [hu]
    exact Polder.pipeRead_pending ht hok hst hrec hch
  · obtain ⟨t, he, ht⟩ := exec_passBegin hl hr hf
    refine ⟨t, he, ?_⟩
    rw [ht]
    exact Polder.passBegin_first hph hmay hsc hfe
  · obtain ⟨t, he, ht⟩ := exec_passBegin hl hr hf
    refine ⟨t, he, ?_⟩
    rw [ht]
    exact Polder.passBegin_next hph hlt
  · have h := exec_stashCopyOut stage rec hl hr hph
    rwa [Polder.copyOut_root hpass hs hrc hi hpol hfb hnew] at h
end Sys2Proof.Machine

/-! PROOFS. The Intake and Outfall engines (R184 to R201). -/

namespace Sys2Proof.Machine

/-- An event of an engine that is up. -/
theorem State.gives_eng {s : State} {i : Instr} {e : EngId} {f : PolCtx → Polder → Polder} {q : Polder}
    (hi : exec i s = .next (s.onEng e f)) (h : s.engUp e) (hq : f (s.ctxOf e.p) (s.pol e.p) = q) : s.Gives i e.p q := by
  obtain ⟨hp, hd⟩ := h
  have hup : (s.mod.powered e.p && !(s.pol e.p).engDown e.key) = true := by rw [hp, hd]; rfl
  rw [State.Gives, hi, State.onEng, if_pos hup, State.onPol_eq, hq]

@[simp] theorem Polder.eng_sent (p : Polder) (e : Nat) : p.sent.eng e = p.eng e := rfl

theorem Polder.eng_setEng_same (p : Polder) (e : Nat) (v : Eng) : (p.setEng e v).eng e = v := by
  rw [Polder.eng_setEng, if_pos rfl]

theorem Polder.eng_putEng_same (p : Polder) (e : Nat) (v : Eng) : (p.putEng e v).eng e = { v with free := v.space } :=
  p.eng_setEng_same e _

/-! HOLD requests (R115, R117, R195). -/

/-- The requests of a cycle reach the grid's HOLD alone. -/
theorem Polder.updateHold_eq (p : Polder) : ∃ h, p.updateHold = p.onGrid fun g => { g with hold := h } := by
  unfold Polder.updateHold
  dsimp only
  split
  · exact ⟨_, rfl⟩
  · split
    · exact ⟨_, rfl⟩
    · exact ⟨p.grid.hold, rfl⟩

@[simp] theorem Polder.eng_updateHold (p : Polder) (e : Nat) : p.updateHold.eng e = p.eng e := by
  obtain ⟨h, hh⟩ := p.updateHold_eq
  rw [hh]
  rfl

@[simp] theorem Polder.rd_updateHold (p : Polder) (off place : Nat) : p.updateHold.rd off place = p.rd off place := by
  obtain ⟨h, hh⟩ := p.updateHold_eq
  rw [hh]
  rfl

theorem Polder.updateHold_asserted {p : Polder} (h : p.holdWanted = true) : p.updateHold.grid.hold.asserted = true := by
  unfold Polder.updateHold
  dsimp only
  cases ha : p.grid.hold.asserted
  · rw [h, if_pos (by rfl)]
    rfl
  · rw [h, if_neg (by decide), if_neg (by decide), ha]

theorem SMap_mem_of_find? {V : Type} {m : SMap V} {k : Nat} {v : V} (h : SMap.find? m k = some v) : ∃ e ∈ m, e.2 = v := by
  induction m with
  | nil => cases h
  | cons e r ih =>
    obtain ⟨j, u⟩ := e
    unfold SMap.find? at h
    split at h
    · exact ⟨_, List.mem_cons_self, Option.some.inj h⟩
    · obtain ⟨e, he, hv⟩ := ih h
      exact ⟨e, List.mem_cons_of_mem _ he, hv⟩

theorem Polder.holdWanted_of_eng {p : Polder} {e : Nat} (h : (p.eng e).holdReq = true) : p.holdWanted = true := by
  unfold Polder.holdWanted
  have hmem : ∃ a ∈ p.engines, a.2.holdReq = true := by
    cases hf : SMap.find? p.engines e with
    | none =>
      have heng : p.eng e = Eng.reset := by
        unfold Polder.eng SMap.get
        rw [hf]
        rfl
      rw [heng] at h
      cases h
    | some v =>
      have heng : p.eng e = v := by
        unfold Polder.eng SMap.get
        rw [hf]
        rfl
      obtain ⟨a, ha, hv⟩ := SMap_mem_of_find? hf
      exact ⟨a, ha, by rw [hv, ← heng]; exact h⟩
  obtain ⟨a, ha, hh⟩ := hmem
  rw [Bool.or_eq_true]
  exact .inr (List.any_eq_true.mpr ⟨a, ha, hh⟩)

/-- An Intake engine whose data will be late asks for HOLD (R195). -/
theorem Polder.holdTest_wants {p : Polder} {e : Nat} (h : (p.eng e).outHold = true ∨ p.missing e = true) :
    (p.holdTest e).eng e = { p.eng e with holdReq := true } ∧
      (p.holdTest e).rd (ENGP e + 0x78) = addField (p.rd (ENGP e + 0x78)) 0 32 1 ∧
      (p.holdTest e).grid.hold.asserted = true := by
  have hwant : ((p.eng e).outHold || p.missing e) = true := by rw [Bool.or_eq_true]; exact h
  unfold Polder.holdTest
  dsimp only
  rw [if_pos hwant]
  refine ⟨?_, ?_, ?_⟩
  · rw [Polder.eng_updateHold, Polder.eng_setEng_same]
  · rw [Polder.rd_updateHold]
    refine (Polder.rd_count _ _ 1 0 32).trans ?_
    split
    · rfl
    · rw [Polder.rd_raise _ (by omega) (by omega)]
      exact congrArg (addField · 0 32 1) (Polder.rd_wr_ne _ _ (by omega))
  · exact Polder.updateHold_asserted (Polder.holdWanted_of_eng (by rw [Polder.eng_setEng_same]))

theorem Polder.holdTest_quiet {p : Polder} {e : Nat} (ho : (p.eng e).outHold = false) (hm : p.missing e = false)
    (hr : (p.eng e).holdReq = false) : p.holdTest e = p := by
  unfold Polder.holdTest
  dsimp only
  rw [ho, hm, hr]
  rfl

/-! Requests and data (R185, R193 to R197). -/

/-- A read that met nothing to count but that it was DEFERRED. -/
theorem Polder.noteRead_done (p : Polder) (e : Nat) (deferred twice : Bool) (index : W32) (addr : W64) :
    ∃ r, p.noteRead e Status.done deferred 0 twice index addr = ({ p with regs := r }, true) := by
  unfold Polder.noteRead
  simp only [ne_eq, not_true_eq_false, decide_false, Bool.and_false, Bool.false_eq_true, ↓reduceIte]
  split
  · exact ⟨_, rfl⟩
  · exact ⟨p.regs, rfl⟩

theorem Polder.eng_putEng_holdEnds (p : Polder) (e : Nat) (v : Eng) :
    (((p.putEng e v).holdEnds e).eng e).reqs = v.reqs ∧ (((p.putEng e v).holdEnds e).eng e).st = v.st ∧
      (((p.putEng e v).holdEnds e).eng e).buf = v.buf := by
  unfold Polder.holdEnds
  dsimp only
  split
  · rw [Polder.eng_updateHold, Polder.eng_setEng_same, Polder.eng_putEng_same]
    exact ⟨rfl, rfl, rfl⟩
  · rw [Polder.eng_putEng_same]
    exact ⟨rfl, rfl, rfl⟩

theorem PolCtx.scaleOf_none (x : PolCtx) (p : Polder) : x.scaleOf p 0xFFFF = some 0 := rfl

theorem convertBytes_none (rnd : Nat) (t : Int) (bs : List Byte) : convertBytes 0 rnd t bs = bs := rfl

section
variable {p : Polder} {x : PolCtx} {e i : Nat} {q : EngReq} {r : ReadReply}

theorem Polder.landReq_stopped (h : (p.eng e).works = false) :
    p.landReq x e i q r = p.putEng e { p.eng e with reqs := (p.eng e).reqs.eraseIdx i } := by
  unfold Polder.landReq
  dsimp only
  rw [h]

theorem Polder.reqWaits_fabric (h : q.tier = 4) : p.reqWaits q = true := by
  unfold Polder.reqWaits
  rw [h]
  rfl

variable {d : Desc} (hw : (p.eng e).works = true) (hd : (p.eng e).descs.find? (fun d => d.num == q.desc) = some d)
  (ht : q.tier = 4) (ha : q.answer = some r)
include hw hd ht ha

/-- A fabric read that is refused with REFUSED_BUSY waits to be issued again (R194). -/
theorem Polder.landReq_busy (hs : r.status = Status.refusedBusy) :
    p.landReq x e i q r = (p.count (ENGP e + 0x80) 1).setEng e
      { p.eng e with reqs := (p.eng e).reqs.set i { q with retry := true, answer := none, tag := none } } := by
  unfold Polder.landReq
  dsimp only
  rw [hw, hd]
  dsimp only
  rw [Polder.reqWaits_fabric ht, if_neg (by simp [ha]), if_pos (by simp [hs])]

/-- Data of the fabric lands in the buffer as it came (R180, R194). -/
theorem Polder.landReq_done (hs : r.status = Status.done) (hc : d.conv = 0) (hlen : r.data.length = q.len)
    (hout : q.len = q.out) :
    ((p.landReq x e i q r).eng e).reqs = (p.eng e).reqs.eraseIdx i ∧ ((p.landReq x e i q r).eng e).st = (p.eng e).st ∧
      ((p.landReq x e i q r).eng e).buf = (p.eng e).buf ++ [⟨d.num, q.at_, r.data⟩] := by
  have hraw : ((r.data ++ List.replicate (q.len - r.data.length) 0).take q.len).take q.out ++
      List.replicate (q.out - (((r.data ++ List.replicate (q.len - r.data.length) 0).take q.len).take q.out).length) 0 =
      r.data := by
    rw [← hout, hlen, Nat.sub_self, List.replicate_zero, List.append_nil, ← hlen, List.take_length, List.take_length,
      Nat.sub_self, List.replicate_zero, List.append_nil]
  unfold Polder.landReq
  dsimp only
  rw [hw, hd]
  dsimp only
  rw [Polder.reqWaits_fabric ht, if_neg (by simp [ha]), if_neg (by simp [hs]), if_neg (by simp [hs]), if_pos ht]
  dsimp only
  obtain ⟨regs, hnote⟩ := (p.setEng e { p.eng e with reqs := (p.eng e).reqs.eraseIdx i }).noteRead_done e r.deferred
    (!true && decide (Status.done = Status.dataUncorrectable)) d.index q.addr
  rw [hnote]
  dsimp only
  rw [if_pos hc, PolCtx.scaleOf_none]
  dsimp only
  rw [hc, convertBytes_none, hraw]
  have hreqs := congrArg Eng.reqs (p.eng_setEng_same e { p.eng e with reqs := (p.eng e).reqs.eraseIdx i })
  have hst := congrArg Eng.st (p.eng_setEng_same e { p.eng e with reqs := (p.eng e).reqs.eraseIdx i })
  have hbuf := congrArg (fun v : Eng => v.buf ++ [Chunk.mk d.num q.at_ r.data])
    (p.eng_setEng_same e { p.eng e with reqs := (p.eng e).reqs.eraseIdx i })
  obtain ⟨hreqs', hst', hbuf'⟩ := Polder.eng_putEng_holdEnds _ e _
  exact ⟨hreqs'.trans hreqs, hst'.trans hst, hbuf'.trans hbuf⟩

end


/-! The Intake engines' commands. -/

section
variable {e : EngId} {s : State} (hup : s.engUp e)
include hup

theorem exec_intakeRequestIssue {d : Desc} (hout : e.out = false) (hw : ((s.pol e.p).eng e.key).works = true)
    (hd : ((s.pol e.p).eng e.key).fetching = some d) :
    s.Gives (.intakeRequestIssue e) e.p (if d.asked ≠ 0 || (s.pol e.p).handOpen d
      then (s.pol e.p).issueReq (s.ctxOf e.p) e.key d else s.pol e.p) := by
  refine State.gives_eng rfl hup ?_
  dsimp only
  rw [hout, hw, hd]
  rfl

theorem exec_handGateWaitEnd {d : Desc} (hout : e.out = false) (hw : ((s.pol e.p).eng e.key).works = true)
    (hd : ((s.pol e.p).eng e.key).fetching = some d) (hh : d.handEn = true) (ha : d.asked = 0)
    (ho : (s.pol e.p).handOpen d = true) :
    s.Gives (.handGateWaitEnd e) e.p ((s.pol e.p).issueReq (s.ctxOf e.p) e.key d) := by
  refine State.gives_eng rfl hup ?_
  dsimp only
  rw [hout, hw, hd, if_neg (by decide)]
  dsimp only
  refine if_pos ?_
  rw [hh, ha, ho]
  rfl

theorem exec_intakeDataLanded {i : Nat} {q : EngReq} {r : ReadReply} (hout : e.out = false)
    (hp : ((s.pol e.p).eng e.key).probing = false) (hq : ((s.pol e.p).eng e.key).reqs[i]? = some q) (hr : q.retry = false)
    (hlen : r.data.length ≤ 512) :
    s.Gives (.intakeDataLanded e i r) e.p ((s.pol e.p).landReq (s.ctxOf e.p) e.key i q r) := by
  refine State.gives_eng (if_neg (by omega)) hup ?_
  rw [hq]
  dsimp only
  exact if_neg (by rw [hout, hr, hp]; decide)

theorem exec_intakeRetryTimer_stopped {i : Nat} {q : EngReq} (hout : e.out = false)
    (hq : ((s.pol e.p).eng e.key).reqs[i]? = some q) (hr : q.retry = true)
    (hw : ((s.pol e.p).eng e.key).works = false) :
    s.Gives (.intakeRetryTimer e i) e.p ((s.pol e.p).putEng e.key
      { (s.pol e.p).eng e.key with reqs := ((s.pol e.p).eng e.key).reqs.eraseIdx i }) := by
  refine State.gives_eng rfl hup ?_
  dsimp only
  rw [hq]
  dsimp only
  rw [if_neg (by rw [hout, hr]; decide), if_pos (by rw [hw]; rfl)]

theorem exec_intakeRetryTimer_sent {i : Nat} {q q' : EngReq} {p' : Polder} (hout : e.out = false)
    (hq : ((s.pol e.p).eng e.key).reqs[i]? = some q) (hr : q.retry = true)
    (hw : ((s.pol e.p).eng e.key).works = true) (ht : q.tier = 4)
    (hs : (s.pol e.p).sendReq (s.ctxOf e.p) e.key { q with retry := false } (.fabric q.addr) = (p', .ok q')) :
    s.Gives (.intakeRetryTimer e i) e.p (p'.setEng e.key
      { p'.eng e.key with reqs := ((s.pol e.p).eng e.key).reqs.set i q' }) := by
  refine State.gives_eng rfl hup ?_
  dsimp only
  rw [hq]
  dsimp only
  rw [if_neg (by rw [hout, hr]; decide), if_neg (by rw [hw]; decide), if_pos ht, hs]

theorem exec_intakeHoldRequest (hout : e.out = false) :
    s.Gives (.intakeHoldRequest e) e.p ((s.pol e.p).holdTest e.key) :=
  State.gives_eng rfl hup (if_neg (ne_true_of_eq_false hout))

theorem exec_descRetire {d : Desc} (hst : ((s.pol e.p).eng e.key).st = .running)
    (hstop : ((s.pol e.p).eng e.key).stopping = false)
    (hd : ((s.pol e.p).eng e.key).descs.find? (((s.pol e.p).eng e.key).retirable e.out) = some d) :
    s.Gives (.descRetire e) e.p (((if d.sigEn && !d.signalled then (s.pol e.p).signal e.key (s.pol e.p).cycle d
      else s.pol e.p).retireDesc e.key d.num).unpinAll (s.ctxOf e.p) [d]) := by
  refine State.gives_eng rfl hup ?_
  dsimp only
  rw [hst, hstop, hd]
  rfl

omit hup

theorem EngId.key_intake {e : EngId} (hout : e.out = false) : e.key = 16 * e.die.val + e.k.val := by
  unfold Sys2Proof.EngId.key
  rw [hout]
  rfl

/-- The grant of an engine moves its next request of that stack (R191, R192). -/
theorem exec_hbmAccessGrant {die : Fin 4} {ctrl : Fin 2} {d : Desc} {o n : Nat} (hup : s.engUp e)
    (hl : s.live e.p die.val = true) (hdie : e.die = die) (hout : e.out = false)
    (hg : (s.pol e.p).grantOf (2 * die.val + ctrl.val) = some e.k.val) (hw : ((s.pol e.p).eng e.key).works = true)
    (hd : ((s.pol e.p).eng e.key).fetching = some d) (hs : (s.pol e.p).nextSource (s.ctxOf e.p) d = (.own 1 o, n))
    (ho : o / 2 ^ 36 = 2 * die.val + ctrl.val) (hgate : d.asked ≠ 0 ∨ (s.pol e.p).handOpen d = true) :
    s.Gives (.hbmAccessGrant e.p die ctrl) e.p ((s.pol e.p).issueReq (s.ctxOf e.p) e.key d) := by
  subst hdie
  have hk := e.k.isLt
  have hkey := EngId.key_intake hout
  obtain ⟨-, hdown⟩ := hup
  rw [hkey] at hdown hw hd ⊢
  refine congrArg Host.Outcome.next ((if_neg (by rw [hl]; decide)).trans ?_)
  rw [hg]
  dsimp only
  rw [if_neg (by omega), if_neg (ne_true_of_eq_false hdown), State.onPol_eq, if_pos hk, hw, if_pos rfl, hd]
  dsimp only
  rw [hs]
  exact congrArg (s.settle e.p (s.pol e.p).summary) (if_pos (by rw [ho]; simpa using hgate))

end

/-! A beat leaves in its slot (R99, R100, R188). -/

section
variable {p : Polder} {e circ : Nat} {d : Desc} {due k : Nat} {bs : List Byte}

/-- A first beat finds its slot ahead and its circuit free, and waits for nothing. -/
theorem Eng.firstBeat_ready {v : Eng} (hw : d.waitEn = false) (hs : d.since ≤ due)
    (hl : SMap.get (fun _ => 0) v.last circ ≤ due) : v.firstBeat d circ due = some (v, d) := by
  unfold Eng.firstBeat
  rw [if_neg (by rw [decide_eq_false (by omega), decide_eq_false (by omega)]; decide), hw]
  rfl

variable (hd : (p.eng e).descs.find? (fun (d : Desc) => d.pos ≠ .queued && d.type != 0 &&
      d.emissions.any fun m => m.1 == circ && m.2.2 < d.beats) = some d)
  (hc : d.circ = circ) (hk : d.sent0 = k) (hlt : k < d.beats) (hdue : p.dueOf e (p.eng e) d circ k = some due)
  (hb : (p.eng e).beat d false k = some bs)
include hd hc hk hlt hdue hb

theorem Polder.emitBeat_late (h0 : k = 0) (hf : (p.eng e).firstBeat d circ due = none) :
    p.emitBeat e circ = p.engFault e Status.steerLate 0 d.index := by
  have hem : d.emissions.find? (fun m => m.1 == circ && m.2.2 < d.beats) = some (circ, false, k) := by
    unfold Desc.emissions
    rw [hc, hk]
    exact List.find?_cons_of_pos (by simpa using hlt)
  unfold Polder.emitBeat
  dsimp only
  rw [hd]
  dsimp only
  rw [hem]
  dsimp only
  rw [hdue, hb]
  dsimp only
  rw [if_pos h0, hf]

theorem Polder.emitBeat_leaves (h : k ≠ 0 ∨ (p.eng e).firstBeat d circ due = some (p.eng e, d)) :
    p.emitBeat e circ = (((p.putEng e (Eng.release { p.eng e with
        descs := (p.eng e).descs.map fun (c : Desc) => if c.num = d.num then { d with pos := .executing, sent0 := k + 1 } else c
        last := SMap.insert (p.eng e).last circ (due + 1) } { d with pos := .executing, sent0 := k + 1 })).reach due).onGrid
      fun g => { g with beats := g.beats ++ [{ cell := engCell e, inp := 5, circ := circ
                                               cls := bitsN (p.injEntry e (due % 64)) 10 2
                                               data := wordOf 256 bs, arrive := due + 2 }] }) := by
  have hem : d.emissions.find? (fun m => m.1 == circ && m.2.2 < d.beats) = some (circ, false, k) := by
    unfold Desc.emissions
    rw [hc, hk]
    exact List.find?_cons_of_pos (by simpa using hlt)
  have hfirst : (if k = 0 then (p.eng e).firstBeat d circ due else some (p.eng e, d)) = some (p.eng e, d) := by
    obtain h | h := h
    · exact if_neg h
    · rw [h]
      exact ite_self _
  unfold Polder.emitBeat
  dsimp only
  rw [hd]
  dsimp only
  rw [hem]
  dsimp only
  rw [hdue, hb]
  dsimp only
  rw [hfirst]
  rfl

end

/-- Settles O29: the commands' equations, then what one beat's emission leaves. -/
theorem intakeEnginesStreamTheirData : Obligations.IntakeEnginesStreamTheirData := by
  unfold Obligations.IntakeEnginesStreamTheirData
  refine ⟨fun e s hup => ?_, fun p e circ d due k bs => ?_⟩
  · dsimp only
    refine ⟨fun d hout hw hd => ⟨fun ho => ?_, fun ha ho => ?_, fun hh ha ho => exec_handGateWaitEnd hup hout hw hd hh ha ho⟩,
      fun i q r hout hp hq hr hlen => ⟨fun hw => ?_, fun d hw hd ht ha hs => ?_, fun d hw hd ht ha hs hc hl ho => ?_⟩,
      fun i q hout hq hr => ⟨fun hw => ?_, fun p' q' hw ht hs => exec_intakeRetryTimer_sent hup hout hq hr hw ht hs⟩,
      fun circ hout hr hf => State.gives_eng rfl hup (if_neg (by rw [hout, hr, hf]; decide)),
      fun hout => ⟨fun ho hm hh => ?_, fun h => ?_⟩, fun d hst hstop hd => exec_descRetire hup hst hstop hd,
      fun die ctrl d o n hl hdie hout hg hw hd hs ho hgate => exec_hbmAccessGrant hup hl hdie hout hg hw hd hs ho hgate⟩
    · have h := exec_intakeRequestIssue hup hout hw hd
      rwa [if_pos (by simpa using ho)] at h
    · have h := exec_intakeRequestIssue hup hout hw hd
      rwa [if_neg (by rw [ha, ho]; decide)] at h
    · obtain ⟨t, he, ht⟩ := (exec_intakeDataLanded hup hout hp hq hr hlen).pol
      refine ⟨t, he, ?_⟩
      rw [ht, Polder.landReq_stopped hw]
      exact Polder.eng_putEng_same _ _ _
    · have h := exec_intakeDataLanded hup hout hp hq hr hlen
      rwa [Polder.landReq_busy hw hd ht ha hs] at h
    · obtain ⟨t, he, ht'⟩ := (exec_intakeDataLanded hup hout hp hq hr hlen).pol
      refine ⟨t, he, ?_⟩
      rw [ht']
      exact Polder.landReq_done hw hd ht ha hs hc hl ho
    · obtain ⟨t, he, ht⟩ := (exec_intakeRetryTimer_stopped hup hout hq hr hw).pol
      refine ⟨t, he, ?_⟩
      rw [ht]
      exact Polder.eng_putEng_same _ _ _
    · have hgives := exec_intakeHoldRequest hup hout
      rwa [Polder.holdTest_quiet ho hm hh] at hgives
    · obtain ⟨t, he, ht⟩ := (exec_intakeHoldRequest hup hout).pol
      refine ⟨t, he, ?_⟩
      rw [ht]
      exact Polder.holdTest_wants h
  · dsimp only
    intro hd hc hk hlt hdue hb
    refine ⟨fun h0 hf => Polder.emitBeat_late hd hc hk hlt hdue hb h0 hf, fun h => ?_⟩
    have hready : k ≠ 0 ∨ (p.eng e).firstBeat d circ due = some (p.eng e, d) :=
      h.imp_right fun ⟨hw, hs, hl⟩ => Eng.firstBeat_ready hw hs hl
    rw [Polder.emitBeat_leaves hd hc hk hlt hdue hb hready]
    refine ⟨rfl, rfl, ?_, ?_, fun j hj => ?_, rfl, rfl⟩
    · exact congrArg Eng.last (Polder.eng_putEng_same _ _ _)
    · exact congrArg Eng.descs (Polder.eng_putEng_same _ _ _)
    · exact (Polder.eng_setEng _ _ _ _).trans (if_neg hj)

/-! Outfall engines (R184 to R187, R195, R198 to R201). -/

theorem Polder.rd_recordErr (p : Polder) {page off : Nat} {code : Status} {ev kind src : Nat} {addr : W64}
    (h1 : off ≠ page + 0x24) (h2 : off ≠ page + 0x28) (h3 : off ≠ page + 0x2C) :
    (p.recordErr page code ev kind src addr).rd off = p.rd off := by
  unfold Polder.recordErr
  rw [Polder.rd_wr_ne _ _ h3, Polder.rd_wr_ne _ _ h2, Polder.rd_wr_ne _ _ h1]

/-- A piece belongs to a descriptor of the kind asked for. -/
theorem Polder.nextPiece_kind {p : Polder} {x : PolCtx} {e : Nat} {kind : Desc → Bool} {d : Desc} {k : Sink}
    {bs : List Byte} (h : p.nextPiece x e kind = some (d, k, bs)) : kind d = true := by
  unfold Polder.nextPiece at h
  dsimp only at h
  split at h
  · cases h
  · obtain ⟨c, -, hc⟩ := List.exists_of_findSome?_eq_some h
    split at hc
    case isTrue hok =>
      obtain ⟨b, -, heq⟩ := Option.map_eq_some_iff.mp hc
      obtain ⟨rfl, -⟩ := Prod.mk.injEq .. ▸ heq
      simp only [Bool.and_eq_true] at hok
      exact hok.1.2
    case isFalse => cases hc

section
variable {p : Polder} {e : Nat} {b : EdgeBeat}

theorem Polder.takeBeat_orphan (hr : (p.eng e).runs = true)
    (hf : (p.eng e).descs.find? (fun (d : Desc) =>
      decide (d.pos = .executing) && d.type != 0 && d.circ == b.circ && decide (d.landed < d.total)) = none) :
    p.takeBeat e b = (p.count (ENGP e + 0x90) 1).engFault e Status.internal 3 (p.eng e).oldest := by
  have hstays : ((p.eng e).ending || (p.eng e).stopping) = false := by
    unfold Eng.runs at hr
    revert hr
    cases (p.eng e).ending <;> cases (p.eng e).stopping <;> simp
  unfold Polder.takeBeat
  dsimp only
  rw [if_pos hr, hf]
  exact if_neg (ne_true_of_eq_false hstays)

theorem Polder.takeBeat_next {d : Desc} (hr : (p.eng e).runs = true)
    (hf : (p.eng e).descs.find? (fun (d : Desc) =>
      decide (d.pos = .executing) && d.type != 0 && d.circ == b.circ && decide (d.landed < d.total)) = some d)
    (hl : d.landed ≠ 0) :
    p.takeBeat e b = (p.putEng e (Eng.putDesc { p.eng e with
      buf := (p.eng e).buf ++ [Chunk.mk d.num d.landed (bytesOf b.data 32)] } { d with landed := d.landed + 32 }).advance).askHold e := by
  unfold Polder.takeBeat
  dsimp only
  rw [if_pos hr, hf]
  dsimp only
  rw [if_neg hl]

end

section
variable {p : Polder} {e : Nat} {q : EngTxn} {deferred : Bool}

/-- A transaction refused with REFUSED_BUSY waits for its reissue (R199). -/
theorem Polder.endTxn_busy : (p.endTxn e q Status.refusedBusy deferred).eng e =
    { p.eng e with txns := (p.eng e).txns ++ [{ q with retry := true, answer := none }] } := by
  unfold Polder.endTxn
  dsimp only
  rw [if_pos rfl, Polder.eng_setEng_same]

/-- An engine once one of its transactions has ended. -/
def Eng.lessPend (v : Eng) (num : Nat) : Eng :=
  { v with descs := v.descs.map fun c => if c.num = num then { c with pend := c.pend - 1 } else c }

theorem Polder.endTxn_done : (p.endTxn e q Status.done false).eng e = (p.eng e).lessPend q.desc := by
  unfold Polder.endTxn
  dsimp only
  rw [if_neg (by decide), if_pos rfl, if_neg (by decide)]
  exact Polder.eng_setEng_same _ _ _

/-- A contribution whose window is closed is counted as rejected (R199, R203). -/
theorem Polder.endTxn_windowClosed (hs : q.slot ≠ none) :
    (p.endTxn e q Status.windowClosed deferred).eng e = (p.eng e).lessPend q.desc ∧
      (p.endTxn e q Status.windowClosed deferred).rd (ENGP e + 0x80) = addField (p.rd (ENGP e + 0x80)) 8 8 1 := by
  obtain ⟨k, hk⟩ := Option.ne_none_iff_exists'.mp hs
  unfold Polder.endTxn
  rw [hk]
  dsimp only
  rw [if_neg (by decide), if_neg (by decide), if_pos (by rfl), show rejectField Status.windowClosed = some 8 from rfl]
  dsimp only
  refine ⟨Polder.eng_setEng_same _ _ _, ?_⟩
  rw [Polder.rd_recordErr _ (by omega) (by omega) (by omega), Polder.rd_raise _ (by omega) (by omega)]
  exact Polder.rd_count _ _ 1 8 8

end

section
variable {e : EngId} {s : State} (hup : s.engUp e)
include hup

theorem exec_outfallBeatTake {b : EdgeBeat} {rest : List EdgeBeat} (hout : e.out = true)
    (hb : takeFirst (fun (b : EdgeBeat) => b.eng == e.key) (s.pol e.p).grid.edge = some (b, rest)) :
    s.Gives (.outfallBeatTake e) e.p (((s.pol e.p).onGrid fun g => { g with edge := rest }).takeBeat e.key b) := by
  refine State.gives_eng rfl hup ?_
  rw [if_neg (by rw [hout]; decide), hb]

theorem exec_outfallWaitRelease {d : Desc} (hout : e.out = true) (hst : ((s.pol e.p).eng e.key).st = .running)
    (hstop : ((s.pol e.p).eng e.key).stopping = false)
    (hd : ((s.pol e.p).eng e.key).descs.find? (fun d => decide (d.pos = .executing) && d.type != 0 && d.waitEn &&
      !d.waited && decide (d.waitN ≤ ((s.pol e.p).eng e.key).sem d.waitSem)) = some d) :
    s.Gives (.outfallWaitRelease e) e.p ((s.pol e.p).setEng e.key
      ((((s.pol e.p).eng e.key).setSem d.waitSem (((s.pol e.p).eng e.key).sem d.waitSem - d.waitN)).putDesc
        { d with waited := true })) := by
  refine State.gives_eng rfl hup ?_
  dsimp only
  rw [if_neg (by rw [hout, hst, hstop]; decide), hd]

theorem exec_outfallWrite {d : Desc} {k : Sink} {bs : List Byte} (hout : e.out = true)
    (hn : (s.pol e.p).nextPiece (s.ctxOf e.p) e.key (fun d => d.type != 0x9) = some (d, k, bs)) :
    s.Gives (.outfallWrite e) e.p ((s.pol e.p).sinkPiece (s.ctxOf e.p) e.key d k bs) := by
  refine State.gives_eng rfl hup ?_
  rw [if_neg (by rw [hout]; decide), hn]

theorem exec_reduceWriteSend {d : Desc} {k : Sink} {bs : List Byte} (hout : e.out = true)
    (hn : (s.pol e.p).nextPiece (s.ctxOf e.p) e.key (fun d => d.type == 0x9) = some (d, k, bs)) :
    s.Gives (.reduceWriteSend e) e.p ((s.pol e.p).sinkPiece (s.ctxOf e.p) e.key d k bs) := by
  refine State.gives_eng rfl hup ?_
  rw [if_neg (by rw [hout]; decide), hn]

theorem exec_reduceWriteCompletion {tag : BitVec 16} {q : EngTxn} {rest : List EngTxn} {st : Status} {deferred : Bool}
    (hq : takeFirst (fun (q : EngTxn) => q.tag == tag && !q.retry && q.answer == some (st, deferred))
      ((s.pol e.p).eng e.key).txns = some (q, rest)) :
    s.Gives (.reduceWriteCompletion e tag st deferred) e.p
      (((s.pol e.p).setEng e.key { (s.pol e.p).eng e.key with txns := rest }).endTxn e.key q st deferred) := by
  refine State.gives_eng rfl hup ?_
  dsimp only
  rw [hq]

theorem exec_outfallReissueTimer_sends {tag : BitVec 16} {q : EngTxn} {rest : List EngTxn}
    (hq : takeFirst (fun (q : EngTxn) => q.tag == tag && q.retry) ((s.pol e.p).eng e.key).txns = some (q, rest))
    (hst : ((s.pol e.p).eng e.key).st = .running) (hstop : ((s.pol e.p).eng e.key).stopping = false) :
    s.Gives (.outfallReissueTimer e tag) e.p
      (((s.pol e.p).setEng e.key { (s.pol e.p).eng e.key with txns := rest }).sendTxn (s.ctxOf e.p) e.key q) := by
  refine State.gives_eng rfl hup ?_
  dsimp only
  rw [hq]
  dsimp only
  rw [if_pos (by rw [hst, hstop]; rfl)]

theorem exec_outfallReissueTimer_stops {tag : BitVec 16} {q : EngTxn} {rest : List EngTxn}
    (hq : takeFirst (fun (q : EngTxn) => q.tag == tag && q.retry) ((s.pol e.p).eng e.key).txns = some (q, rest))
    (hstop : ((s.pol e.p).eng e.key).stopping = true) (hslot : q.slot = none) :
    s.Gives (.outfallReissueTimer e tag) e.p ((s.pol e.p).setEng e.key { (s.pol e.p).eng e.key with txns := rest }) := by
  refine State.gives_eng rfl hup ?_
  dsimp only
  rw [hq]
  dsimp only
  rw [if_neg (by rw [hstop]; simp), hslot]

end

/-- A piece of a REDUCE_WRITE without a signal and without a map goes out as one transaction (R187, R199). -/
theorem Polder.sinkPiece_reduce {p : Polder} {x : PolCtx} {e : Nat} {d : Desc} {a : W64} {bs : List Byte} (ht : d.type = 0x9)
    (hs : d.sigEn = false) (hm : d.map = false) :
    p.sinkPiece x e d (.fabric a) bs = ((p.freePiece e d bs.length 1).countPend 0 d.epoch true).sendTxn x e
      { tag := 0, desc := d.num, txn := outTxn d a (p.eng e).ctx bs, slot := if d.type = 0x9 then some 0 else none
        retry := false, answer := none } := by
  unfold Polder.sinkPiece
  simp only [ht, hs, hm, Bool.and_false, Bool.or_false, Bool.false_eq_true, ↓reduceIte]

/-- Settles O30: each part is its command's equation and what the operation it names leaves. -/
theorem outfallEnginesDeliverTheirBeats : Obligations.OutfallEnginesDeliverTheirBeats := by
  unfold Obligations.OutfallEnginesDeliverTheirBeats
  intro e s hup hout
  dsimp only
  refine ⟨fun b rest hb => ⟨fun hr hf => ?_, fun d hr hf hl => ?_⟩,
    fun d hst hstop hd => exec_outfallWaitRelease hup hout hst hstop hd, fun d o t bs hn => exec_outfallWrite hup hout hn,
    fun d a bs hn hs hm => ?_, fun tag q rest st deferred hq => ⟨fun hst => ?_, fun hst hdef => ?_, fun hst hslot => ?_⟩,
    fun tag q rest hq => ⟨fun hst hstop => exec_outfallReissueTimer_sends hup hq hst hstop,
      fun hstop hslot => exec_outfallReissueTimer_stops hup hq hstop hslot⟩⟩
  · have htake := Polder.takeBeat_orphan (p := (s.pol e.p).onGrid fun g => { g with edge := rest }) (e := e.key) (b := b) hr hf
    exact htake ▸ exec_outfallBeatTake hup hout hb
  · have htake := Polder.takeBeat_next (p := (s.pol e.p).onGrid fun g => { g with edge := rest }) (e := e.key) (b := b) hr hf hl
    exact htake ▸ exec_outfallBeatTake hup hout hb
  · have hsend := exec_reduceWriteSend hup hout hn
    rwa [Polder.sinkPiece_reduce (beq_iff_eq.mp (Polder.nextPiece_kind hn)) hs hm] at hsend
  · subst hst
    obtain ⟨t, he, ht⟩ := (exec_reduceWriteCompletion hup hq).pol
    refine ⟨t, he, ?_⟩
    rw [ht, Polder.eng_sent, Polder.endTxn_busy, Polder.eng_setEng_same]
  · subst hst hdef
    obtain ⟨t, he, ht⟩ := (exec_reduceWriteCompletion hup hq).pol
    refine ⟨t, he, ?_⟩
    rw [ht, Polder.eng_sent, Polder.endTxn_done, Polder.eng_setEng_same]
    rfl
  · subst hst
    obtain ⟨t, he, ht⟩ := (exec_reduceWriteCompletion hup hq).pol
    obtain ⟨heng, hrd⟩ := Polder.endTxn_windowClosed (e := e.key) (deferred := deferred)
      (p := (s.pol e.p).setEng e.key { (s.pol e.p).eng e.key with txns := rest }) hslot
    rw [Polder.eng_setEng_same] at heng
    refine ⟨t, he, ?_, ?_, ?_⟩
    · rw [ht, Polder.eng_sent, heng]
      rfl
    · rw [ht, Polder.eng_sent, heng]
      rfl
    · rw [ht, Polder.sent_rd, hrd]
      rfl
end Sys2Proof.Machine

/-! PROOFS. The cache manager, the range engine, the host-tier bridge and the server's window (R212 to R257). -/

namespace Sys2Proof.Machine

/-! Stored bytes change the contents of tiers 1 and 2 only. -/

theorem Mem.putRaw_eq (m : Mem) (t o : Nat) (bs : List (Option Byte)) :
    ∃ m1 m2, m.putRaw t o bs = { m with mem1 := m1, mem2 := m2 } := by
  induction bs generalizing m o with
  | nil => exact ⟨m.mem1, m.mem2, rfl⟩
  | cons b r ih =>
    cases b with
    | none => exact ih m (o + 1)
    | some b =>
      obtain ⟨m1, m2, h⟩ := ih (m.setByte t o b) (o + 1)
      refine ⟨m1, m2, h.trans ?_⟩
      unfold Mem.setByte
      split <;> rfl

@[simp] theorem Mem.putRaw_heads (m : Mem) (t o : Nat) (bs : List (Option Byte)) : (m.putRaw t o bs).heads = m.heads := by
  obtain ⟨m1, m2, h⟩ := m.putRaw_eq t o bs
  rw [h]

@[simp] theorem Mem.putRaw_images (m : Mem) (t o : Nat) (bs : List (Option Byte)) :
    (m.putRaw t o bs).images = m.images := by
  obtain ⟨m1, m2, h⟩ := m.putRaw_eq t o bs
  rw [h]

/-! The table heads: what leaves them (R213, R217, R219). -/

theorem Polder.setRef_heads (p : Polder) (i : Nat) (r : Option KvRef) : (p.setRef i r).mem.heads = p.mem.heads := by
  unfold Polder.setRef Polder.onMem
  exact Mem.putRaw_heads _ _ _ _

theorem Polder.setRef_images (p : Polder) (i : Nat) (r : Option KvRef) : (p.setRef i r).mem.images = p.mem.images := by
  unfold Polder.setRef Polder.onMem
  exact Mem.putRaw_images _ _ _ _

theorem Polder.countUp_heads (p : Polder) (l : List Pte) : (p.countUp l).mem.heads = p.mem.heads := by
  refine List.foldlRecOn (motive := fun q : Polder => q.mem.heads = p.mem.heads) l _ rfl fun q hq e _ => ?_
  split
  · exact (q.setRef_heads _ _).trans hq
  · exact hq

theorem Mem.release_heads (m : Mem) (t b : Nat) : (m.release t b).heads = m.heads := rfl

theorem Polder.countDown_heads (p : Polder) (e : Pte) : (p.countDown e).1.mem.heads = p.mem.heads := by
  unfold Polder.countDown
  split
  · rw [Polder.raise_mem]
  case h_2 r _ =>
    split
    · rw [Polder.raise_mem]
    · split
      · have hset := p.setRef_heads e.refIdx none
        rw [Polder.count_mem, Polder.onMem_mem, Mem.release_heads, hset]
      · dsimp only
        rw [Polder.setRef_heads]

theorem Polder.sweepCopies_heads (p : Polder) : p.sweepCopies.mem.heads = p.mem.heads :=
  List.foldlRecOn (motive := fun m : Mem => m.heads = p.mem.heads) _ (fun m (q : Nat × Nat) => m.release q.1 q.2) rfl
    fun _ hm _ _ => hm

theorem Polder.reclaim_heads (p : Polder) (i : KvImage) : (p.reclaim i).1.mem.heads = p.mem.heads := by
  refine (Polder.sweepCopies_heads _).trans ?_
  exact List.foldlRecOn (motive := fun q : Polder × Bool => q.1.mem.heads = p.mem.heads) i.ptes _ rfl
    fun q hq e _ => (q.1.countDown_heads e).trans hq

theorem Polder.retire_heads (p : Polder) (a : Nat) : (p.retire a).1.mem.heads = p.mem.heads := by
  unfold Polder.retire
  split
  · rfl
  · dsimp only
    split
    · exact Polder.reclaim_heads _ _
    · rfl

theorem Polder.writeHead_heads (p : Polder) (x : PolCtx) (k : Nat) : (p.writeHead x k).mem.heads = p.mem.heads := by
  unfold Polder.writeHead
  split <;> exact Mem.putRaw_heads _ _ _ _

theorem Polder.writeHead_images (p : Polder) (x : PolCtx) (k : Nat) : (p.writeHead x k).mem.images = p.mem.images := by
  unfold Polder.writeHead
  split <;> exact Mem.putRaw_images _ _ _ _

/-- The head's new image is placed: the heads are as they were but for that one (R213, R219). -/
theorem Polder.placeImage_heads (p : Polder) (x : PolCtx) (k a : Nat) (h : KvHead) (ring : Nat) (l : List Pte) (first : Bool) :
    (p.placeImage x k a h ring l first).1.mem.heads = SMap.insert p.mem.heads k
      { h with cur := a, ver := if first then 1 else if h.ver = 0xFFFFFFFF then 1 else h.ver + 1 } := by
  unfold Polder.placeImage
  dsimp only
  cases first
  case true =>
    rw [if_pos rfl, Polder.writeHead_heads]
    exact (Mem.putRaw_heads _ _ _ _).trans (congrArg (SMap.insert · k _) (p.countUp_heads l))
  case false =>
    rw [if_neg Bool.false_ne_true, Polder.retire_heads, Polder.writeHead_heads]
    exact (Mem.putRaw_heads _ _ _ _).trans (congrArg (SMap.insert · k _) (p.countUp_heads l))

/-- A head's first image is among the images (R213, R218). -/
theorem Polder.placeImage_first_images (p : Polder) (x : PolCtx) (k a : Nat) (h : KvHead) (ring : Nat) :
    (p.placeImage x k a h ring [] true).1.mem.images = p.mem.images ++
      [{ addr := a, head := k, ver := 1, ringLen := ring, ptes := [], pins := 0, current := true }] := by
  unfold Polder.placeImage
  dsimp only
  rw [if_pos rfl, Polder.writeHead_images]
  exact Mem.putRaw_images _ _ _ _

/-- CREATE makes a LIVE head of version 1 over an empty image (R213, R218). -/
theorem editCreate_ok {c : EditCtx} {q r : Polder} (h : editCreate c q = .ok r) :
    ∃ a, SMap.find? r.mem.heads c.k = some ⟨a, 1, .live, c.ctx⟩ ∧
      ∃ i ∈ r.mem.images, i.addr = a ∧ i.head = c.k ∧ i.ver = 1 ∧ i.ptes = [] ∧ i.ringLen = 4096 * c.r.count ∧
        i.pins = 0 ∧ i.current = true := by
  unfold editCreate Polder.newHead at h
  dsimp only at h
  split at h
  case isTrue => cases h
  case isFalse =>
    cases hroom : q.room c.x 1 c.ctx (imageSpace []) 4096 with
    | error e =>
      rw [hroom] at h
      cases h
    | ok pa =>
      obtain ⟨p, a⟩ := pa
      rw [hroom] at h
      obtain rfl := Except.ok.inj h
      refine ⟨a, ?_, { addr := a, head := c.k, ver := 1, ringLen := 4096 * c.r.count, ptes := [], pins := 0, current := true },
        ?_, rfl, rfl, rfl, rfl, rfl, rfl, rfl⟩
      · rw [Polder.placeImage_heads]
        exact SMap.find?_insert_same _ _ _
      · rw [Polder.placeImage_first_images]
        exact List.mem_append_right _ List.mem_cons_self

/-! The edit at the head of the queue (R218, R219). -/

/-- What an edit's failure or success leaves staged is gone (R224). -/
def Polder.swept (q : Polder) : Polder := q.onMem fun m => { m with staged := [] }

section
variable {p : Pid} {s : State} {e : KvEdit} {rest : List KvEdit} {k op : Nat} {row : Instr}
  {f : EditCtx → Polder → KvTry Polder}
  (hrow : exec row s = .next (s.event p 4 fun x q => q.runEdit x op f)) (hl : s.live p 4 = true)
  (he : (s.pol p).mem.edits = e :: rest) (hok : (editRec e.words).ok = true)
  (hk : (s.pol p).headAt (s.ctxOf p) (editRec e.words).seq = .ok k) (hop : (editRec e.words).op = op)
include hrow hl he hok hk hop

theorem exec_edit_waits (hw : (s.pol p).editWaits (editRec e.words) k ≠ []) :
    s.Gives row p (((s.pol p).editWaits (editRec e.words) k).foldl Polder.readBack (s.pol p)) := by
  refine State.gives_event hrow hl ?_
  unfold Polder.runEdit
  rw [he]
  dsimp only
  rw [if_neg (not_not.mpr hop), if_neg (by rw [hok]; decide), hk]
  exact if_pos (by simpa using hw)

theorem exec_edit_runs (hw : (s.pol p).editWaits (editRec e.words) k = []) :
    (∀ q', f ⟨s.ctxOf p, editRec e.words, e.origin.ctx, k⟩ (s.pol p) = .ok q' →
      s.Gives row p (q'.swept.finishEdit e Status.done (q'.mem.verOf k))) ∧
    (∀ q' st, f ⟨s.ctxOf p, editRec e.words, e.origin.ctx, k⟩ (s.pol p) = .error (q', st) →
      s.Gives row p (q'.swept.finishEdit e st 0)) := by
  have hrun : (s.pol p).runEdit (s.ctxOf p) op f =
      match f ⟨s.ctxOf p, editRec e.words, e.origin.ctx, k⟩ (s.pol p) with
      | .ok q => q.swept.finishEdit e Status.done (q.mem.verOf k)
      | .error (q, st) => q.swept.finishEdit e st 0 := by
    unfold Polder.runEdit
    rw [he]
    dsimp only
    rw [if_neg (not_not.mpr hop), if_neg (by rw [hok]; decide), hk]
    exact if_neg (by rw [hw]; decide)
  refine ⟨fun q' hf => State.gives_event hrow hl (hrun.trans (by rw [hf])),
    fun q' st hf => State.gives_event hrow hl (hrun.trans (by rw [hf]))⟩

end

/-- Settles O31: every edit runs by one rule; the heads are followed through `placeImage`. -/
theorem cacheEditsRunInTurn : Obligations.CacheEditsRunInTurn := by
  unfold Obligations.CacheEditsRunInTurn
  refine ⟨fun p s e rest k hl => ?_, fun q x k a ring h l j => ?_, fun c q r => editCreate_ok⟩
  · dsimp only
    intro he hok hk
    exact ⟨exec_edit_runs rfl hl he hok hk, exec_edit_runs rfl hl he hok hk, exec_edit_runs rfl hl he hok hk,
      exec_edit_runs rfl hl he hok hk, exec_edit_runs rfl hl he hok hk, exec_edit_runs rfl hl he hok hk,
      exec_edit_runs rfl hl he hok hk, exec_edit_runs rfl hl he hok hk, exec_edit_waits rfl hl he hok hk,
      exec_edit_waits rfl hl he hok hk, exec_edit_waits rfl hl he hok hk⟩
  · dsimp only
    rw [Polder.placeImage_heads]
    by_cases hj : j = k
    · rw [hj, if_pos rfl]
      exact SMap.find?_insert_same _ _ _
    · rw [if_neg hj]
      exact SMap.find?_insert_ne _ _ hj


/-! Pins, pages and windows (R220, R225, R251, R253, R454). -/

/-- An engine whose descriptor `num` pins nothing (R220). -/
def Eng.withoutPin (v : Eng) (num : Nat) : Eng :=
  { v with descs := v.descs.map fun c => if c.num = num then { c with pin := none } else c }

section
variable {p : Pid} {s : State} (hl : s.live p 4 = true)
include hl

theorem exec_kvPinRelease {i : Nat} {im : KvImage} {e : Nat} {d : Desc} (hi : (s.pol p).mem.images[i]? = some im)
    (hw : (s.pol p).landedWalk im.addr = some (e, d)) :
    s.Gives (.kvPinRelease p i) p
      (((s.pol p).setEng e (((s.pol p).eng e).withoutPin d.num)).unpin (s.ctxOf p) im.addr) := by
  refine State.gives_event rfl hl ?_
  rw [hi]
  dsimp only
  rw [hw]
  rfl

theorem exec_kvPrefetchPageDone_waits {f : KvPrefetch} {rest : List KvPrefetch} {r : Nat} {more : List Nat}
    (hf : (s.pol p).mem.prefetch = f :: rest) (hr : f.pages = r :: more) (ha : (s.pol p).mem.awaited [r] ≠ []) :
    s.Gives (.kvPrefetchPageDone p) p (s.pol p) := by
  refine State.gives_event rfl hl ?_
  rw [hf]
  dsimp only
  rw [hr]
  exact if_pos (by simpa using ha)

theorem exec_kvPrefetchPageDone {f : KvPrefetch} {rest : List KvPrefetch} {r : Nat} {more : List Nat} {q' : Polder}
    (hf : (s.pol p).mem.prefetch = f :: rest) (hr : f.pages = r :: more) (ha : (s.pol p).mem.awaited [r] = [])
    (hb : ((s.pol p).onMem fun m => { m with
      prefetch := if more.isEmpty then rest else { f with pages := more } :: rest }).bringBack (s.ctxOf p) r = .ok q') :
    s.Gives (.kvPrefetchPageDone p) p q' := by
  refine State.gives_event rfl hl ?_
  rw [hf]
  dsimp only
  rw [hr]
  dsimp only
  rw [if_neg (by rw [ha]; decide), hb]

theorem exec_tier3Completion {i : Nat} {r : Tier3Req} {o : PcieOutcome} (hw : o.wf = true)
    (hr : (s.pol p).mem.tier3[i]? = some r) :
    s.Gives (.tier3Completion p i o) p
      (((s.pol p).notePcie o).t3Done (s.ctxOf p) i r (pcieReply o r.len).1 (pcieReply o r.len).2) := by
  refine State.gives_event (if_neg (by rw [hw]; decide)) hl ?_
  rw [hr]

end

/-- The window of every stream begins anew (R454). -/
theorem Inlet.newWindow_stream (i : Inlet) (k : Fin 16) :
    SMap.get (fun _ => Stream.reset) i.newWindow.streams k.val =
      { SMap.get (fun _ => Stream.reset) i.streams k.val with used := 0 } := by
  have hfold := foldl_at (get := fun m k => SMap.get (fun _ => Stream.reset) m k) (f := fun v : Stream => { v with used := 0 })
    (step := fun m k => SMap.set (fun _ => Stream.reset) m k { SMap.get (fun _ => Stream.reset) m k with used := 0 })
    (fun m k j => SMap.get_set _ _ _ _ _) (List.range 16) List.nodup_range i.streams k.val
  unfold Inlet.newWindow
  dsimp only
  rw [hfold, if_pos (List.mem_range.mpr k.isLt)]

theorem exec_bwWindowExpiry {p : Pid} {s : State} (hp : s.mod.powered p = true) :
    s.Gives (.bwWindowExpiry p) p { (((s.pol p).onMem fun m => { m with used := [] }).onFlx fun g =>
      { g with used := [] }) with inlet := (s.pol p).inlet.newWindow } :=
  congrArg Host.Outcome.next ((if_pos hp).trans (s.onPol_eq p _))

/-! The range engine (R243, R247, R255). -/

theorem Mem.valid_setValid (m : Mem) {t : Nat} (g k : Nat) (b : Bool) :
    (m.setValid t g b).valid t k = if k = g then b else m.valid t k := by
  unfold Mem.setValid Mem.valid
  split
  · next ht => exact (SMap.get_set _ _ _ _ _)
  · next ht => exact (SMap.get_set _ _ _ _ _)

/-- Valid bits cleared in a row: the contents and the range under way stay (R243). -/
theorem Mem.clearValid (m : Mem) {t : Nat} (g n : Nat) :
    ((List.range n).foldl (fun m k => m.setValid t (g + k) false) m).mem1 = m.mem1 ∧
    ((List.range n).foldl (fun m k => m.setValid t (g + k) false) m).mem2 = m.mem2 ∧
    ((List.range n).foldl (fun m k => m.setValid t (g + k) false) m).range = m.range ∧
    ∀ k, ((List.range n).foldl (fun m k => m.setValid t (g + k) false) m).valid t k =
      (m.valid t k && !(decide (g ≤ k) && decide (k < g + n))) := by
  induction n with
  | zero =>
    refine ⟨rfl, rfl, rfl, fun k => ?_⟩
    have hout : ¬ (g ≤ k ∧ k < g + 0) := by omega
    rw [← Bool.decide_and, decide_eq_false hout]
    exact (Bool.and_true _).symm
  | succ n ih =>
    obtain ⟨h1, h2, hr, hv⟩ := ih
    rw [List.range_succ, List.foldl_append]
    generalize (List.range n).foldl (fun m k => m.setValid t (g + k) false) m = m' at h1 h2 hr hv ⊢
    have hset : (m'.setValid t (g + n) false).mem1 = m'.mem1 ∧ (m'.setValid t (g + n) false).mem2 = m'.mem2 ∧
        (m'.setValid t (g + n) false).range = m'.range := by
      unfold Mem.setValid
      split <;> exact ⟨rfl, rfl, rfl⟩
    obtain ⟨g1, g2, gr⟩ := hset
    refine ⟨g1.trans h1, g2.trans h2, gr.trans hr, fun k => (m'.valid_setValid _ _ _).trans ?_⟩
    rw [hv]
    split
    case isTrue hk =>
      rw [decide_eq_true (show g ≤ k by omega), decide_eq_true (show k < g + (n + 1) by omega)]
      exact (Bool.and_false _).symm
    case isFalse hk =>
      rw [show decide (k < g + (n + 1)) = decide (k < g + n) from decide_eq_decide.mpr (by omega)]

/-- The register that starts the range engine is none of those that name the range. -/
theorem Polder.rangeOf_wr (q : Polder) (v : W32) : (q.wr (SPW + 0x98) v).rangeOf = q.rangeOf := by
  unfold Polder.rangeOf Polder.pair Polder.rdN
  rw [Polder.rd_wr_ne _ _ (by decide), Polder.rd_wr_ne _ _ (by decide)]
  rfl

/-- The rows that start the range engine with their operations (R255). -/
def rangeRows (p : Pid) (w : Who) : List (Instr × Nat) :=
  [(.rangeClear p w, 0), (.rangeFetch p w, 1), (.rangeEvict p w, 2), (.rangeReservedOp p w, 3)]

theorem exec_range {p : Pid} {s : State} {w : Who} (ha : s.Admits p (SPW + 0x98) w) :
    ∀ e ∈ rangeRows p w, s.GivesW w e.1 p ((s.pol p).rangeGo ((s.noted w).ctxOf p) e.2) := by
  intro e he
  simp only [rangeRows, List.mem_cons, List.not_mem_nil, or_false] at he
  obtain rfl | rfl | rfl | rfl := he <;> exact State.gives_page rfl ha rfl

section
variable {q : Polder} {x : PolCtx} {op : Nat}

theorem Polder.rangeGo_busy (h : q.rangeBusy = true) : q.rangeGo x op = q.wr (SPW + 0x98) (fld 2 op) := if_pos h

theorem Polder.rangeGo_reserved (h : q.rangeBusy = false) :
    q.rangeGo x 3 = (q.wr (SPW + 0x98) (fld 2 3)).endRange Status.internal := by
  unfold Polder.rangeGo
  dsimp only
  rw [if_neg (ne_true_of_eq_false h), if_pos rfl]

theorem Polder.rangeGo_starts (h : q.rangeBusy = false) (hc : x.mod.commit = none) (hop : op < 3) :
    q.rangeGo x op = (q.wr (SPW + 0x98) (fld 2 op)).startRange x op := by
  unfold Polder.rangeGo
  dsimp only
  rw [if_neg (ne_true_of_eq_false h), if_neg (by omega), if_neg (by rw [hc]; simp)]

theorem Polder.startRange_outside (h : q.rangeRegion x op = none) : q.startRange x op = q.endRange Status.addressInvalid := by
  unfold Polder.startRange
  rw [h]

/-- The range operation a region admits is under way (R255). -/
def Polder.ranging (q : Polder) (op : Nat) (g : Region) : Polder :=
  q.onMem fun m => { m with range := some ⟨op, g.tier, gaOff q.rangeOf.1, q.rangeOf.2, Status.done⟩ }

theorem Polder.startRange_clear {g : Region} (h : q.rangeRegion x 0 = some g) : q.startRange x 0 =
    (q.ranging 0 g).onMem fun m => (List.range (q.rangeOf.2 / granule)).foldl
      (fun m k => m.setValid g.tier (gaOff q.rangeOf.1 / granule + k) false) m := by
  unfold Polder.startRange
  rw [h]
  rfl

theorem Polder.startRange_fetch {g : Region} (h : q.rangeRegion x 1 = some g) : q.startRange x 1 =
    (pagesOf (gaOff q.rangeOf.1) q.rangeOf.2).foldl (fun r k => r.startFill x g k) (q.ranging 1 g) := by
  unfold Polder.startRange
  rw [h]
  rfl

theorem Polder.startRange_evict {g : Region} (h : q.rangeRegion x 2 = some g) : q.startRange x 2 =
    (q.ranging 2 g).onMem fun m => { m with frames := m.frames.map fun f =>
      if f.tier = g.tier ∧ (pagesOf (gaOff q.rangeOf.1) q.rangeOf.2).contains f.page ∧ f.st = .high
      then { f with st := .evicting } else f } := by
  unfold Polder.startRange
  rw [h]
  rfl

end

/-- A range ends when its copies have (R247, R255). -/
theorem exec_rangeDone {p : Pid} {s : State} {r : RangeOp} (hl : s.live p 4 = true) (hr : (s.pol p).mem.range = some r) :
    s.Gives (.rangeDone p) p (if (s.pol p).mem.copied r then
      (((s.pol p).mem.frames.filter fun f => f.tier == r.tier && (pagesOf r.off r.len).contains f.page).foldl
        Polder.finishCopy (s.pol p)).endRange r.code else s.pol p) := by
  refine State.gives_event rfl hl ?_
  rw [hr]

/-- Settles O32: each part is its command's equation; CLEAR's valid bits are followed granule by granule. -/
theorem pinsPagesAndRangesEnd : Obligations.PinsPagesAndRangesEnd := by
  unfold Obligations.PinsPagesAndRangesEnd
  refine ⟨fun p s => ?_, fun p s w => ?_⟩
  · dsimp only
    refine ⟨fun hl => ⟨fun i im e d hi hw => exec_kvPinRelease hl hi hw, fun f rest r more hf hr =>
      ⟨fun ha => exec_kvPrefetchPageDone_waits hl hf hr ha, fun ha q' hb => exec_kvPrefetchPageDone hl hf hr ha hb⟩,
      fun i r o hw hr => exec_tier3Completion hl hw hr⟩, fun hp => ?_⟩
    obtain ⟨t, he, ht⟩ := (exec_bwWindowExpiry hp).pol
    refine ⟨t, he, by rw [ht]; rfl, by rw [ht]; rfl, by rw [ht]; rfl, fun k => ?_⟩
    rw [ht]
    exact (s.pol p).inlet.newWindow_stream k
  · dsimp only
    refine ⟨fun ha => ⟨fun hb e he => ?_, fun hb => ?_, fun hb hc => ⟨fun e he hop hn => ?_, fun g hg htier => ?_,
      fun g hg => ?_, fun g hg => ?_⟩⟩, fun hl r hr => ⟨fun hc => ?_, fun hc => ?_⟩⟩
    · have h := exec_range ha e he
      rwa [Polder.rangeGo_busy hb] at h
    · have h := exec_range ha (.rangeReservedOp p w, 3) (by simp [rangeRows])
      rwa [Polder.rangeGo_reserved hb] at h
    · have h := exec_range ha e he
      rwa [Polder.rangeGo_starts hb ((s.noted_commit w).trans hc) hop, Polder.startRange_outside hn] at h
    · have h := exec_range ha (.rangeClear p w, 0) (by simp [rangeRows])
      rw [Polder.rangeGo_starts hb ((s.noted_commit w).trans hc) (show 0 < 3 by decide),
        Polder.startRange_clear hg, Polder.rangeOf_wr] at h
      obtain ⟨t, he, ht⟩ := h.pol
      obtain ⟨h1, h2, hr, hv⟩ := Mem.clearValid (t := g.tier) (Polder.ranging ((s.pol p).wr (SPW + 0x98) (fld 2 0)) 0 g).mem
        (gaOff (s.pol p).rangeOf.1 / granule) ((s.pol p).rangeOf.2 / granule)
      refine ⟨t, he, ?_, by rw [ht]; exact h1, by rw [ht]; exact h2, fun k => by rw [ht]; exact hv k⟩
      rw [ht]
      refine hr.trans ?_
      unfold Polder.ranging
      rw [Polder.rangeOf_wr]
      rfl
    · have h := exec_range ha (.rangeFetch p w, 1) (by simp [rangeRows])
      rw [Polder.rangeGo_starts hb ((s.noted_commit w).trans hc) (show 1 < 3 by decide), Polder.startRange_fetch hg] at h
      unfold Polder.ranging at h
      rwa [Polder.rangeOf_wr] at h
    · have h := exec_range ha (.rangeEvict p w, 2) (by simp [rangeRows])
      rw [Polder.rangeGo_starts hb ((s.noted_commit w).trans hc) (show 2 < 3 by decide), Polder.startRange_evict hg] at h
      unfold Polder.ranging at h
      rwa [Polder.rangeOf_wr] at h
    · have h := exec_rangeDone hl hr
      rwa [if_neg (ne_true_of_eq_false hc)] at h
    · have h := exec_rangeDone hl hr
      rwa [if_pos hc] at h

/-! The server's window (R254, R393, R464). -/

/-- The units of a BAR4 access of `len` bytes (R254). -/
def bar4Units (off : BitVec 36) (len : Nat) : List (Nat × Nat) := bar4Pieces (len / 64 + 2) off.toNat (off.toNat + len)

/-- The server has its answer from a polder (R254). -/
def State.answered (s : State) (p : Pid) (r : HostReply) : State := { s with pols := s.pols.set p ((s.pol p).reply r) }

theorem State.answered_pol (s : State) (p : Pid) (r : HostReply) : (s.answered p r).pol p = (s.pol p).reply r :=
  Quad.get_set_same _ _ _

section
variable {p : Pid} {s : State} {off : BitVec 36}

theorem exec_bar4Read {n : Nat} (hw : (Access.read n).wf = true) (hd : s.mod.denied .keeperAgent .memory false = false)
    (hs : s.mod.serverShut .keeperAgent = false) (hl : s.live p 4 = true) :
    s.Gives (.bar4Access p off (.read n)) p
      ((Polder.bar4Read (s.ctxOf p) (bar4Units off n) (s.pol p) []).1.reply
        (Polder.bar4Read (s.ctxOf p) (bar4Units off n) (s.pol p) []).2) := by
  refine (if_neg (by rw [hw]; decide)).trans (congrArg Host.Outcome.next ?_)
  refine (if_neg (ne_true_of_eq_false hd)).trans ((if_neg (ne_true_of_eq_false hs)).trans ((if_neg (by rw [hl]; decide)).trans ?_))
  exact s.onPol_eq p _

theorem exec_bar4Read_down {n : Nat} (hw : (Access.read n).wf = true) (hd : s.mod.denied .keeperAgent .memory false = false)
    (hs : s.mod.serverShut .keeperAgent = false) (hl : s.live p 4 = false) :
    exec (.bar4Access p off (.read n)) s = .next ((s.standIn p).answered p (.data (List.replicate n 0xFF))) := by
  refine (if_neg (by rw [hw]; decide)).trans (congrArg Host.Outcome.next ?_)
  exact (if_neg (ne_true_of_eq_false hd)).trans ((if_neg (ne_true_of_eq_false hs)).trans
    ((if_pos (by rw [hl]; rfl)).trans (if_neg Bool.false_ne_true)))

theorem exec_bar4Write {bs : List (Option Byte)} (hw : (Access.write bs).wf = true)
    (hd : s.mod.denied .keeperAgent .memory true = false) (hs : s.mod.serverShut .keeperAgent = false)
    (hl : s.live p 4 = true) :
    s.Gives (.bar4Access p off (.write bs)) p
      (Polder.bar4Write (s.ctxOf p) (bar4Units off bs.length) (s.pol p) bs) := by
  refine (if_neg (by rw [hw]; decide)).trans (congrArg Host.Outcome.next ?_)
  refine (if_neg (ne_true_of_eq_false hd)).trans ((if_neg (ne_true_of_eq_false hs)).trans ((if_neg (by rw [hl]; decide)).trans ?_))
  exact s.onPol_eq p _

theorem State.standIn_mem (s : State) (p : Pid) : ((s.standIn p).pol p).mem = (s.pol p).mem := by
  unfold State.standIn
  split
  · rw [State.pol_onPol]
    rfl
  · rfl

/-- A denied access is counted where the basin is up, and leaves memory. -/
def State.abortedBar4 (s : State) (p : Pid) (off : BitVec 36) : State :=
  let s := s.onMod fun m => m.deny .keeperAgent off.toNat
  if s.live p 4 then s.onPol p fun _ q => q.abortBar4 else s

theorem State.abortedBar4_mem (s : State) (p : Pid) (off : BitVec 36) : ((s.abortedBar4 p off).pol p).mem = (s.pol p).mem := by
  unfold State.abortedBar4
  dsimp only
  split
  · rw [State.pol_onPol, State.onMod_pol]
    rfl
  · rw [State.onMod_pol]

theorem exec_bar4Read_denied {n : Nat} (hw : (Access.read n).wf = true)
    (hd : s.mod.denied .keeperAgent .memory false = true) :
    exec (.bar4Access p off (.read n)) s = .next ((s.abortedBar4 p off).answered p .abort) := by
  refine (if_neg (by rw [hw]; decide)).trans (congrArg Host.Outcome.next ?_)
  exact (if_pos hd).trans (if_neg Bool.false_ne_true)

theorem exec_bar4Write_denied {bs : List (Option Byte)} (hw : (Access.write bs).wf = true)
    (hd : s.mod.denied .keeperAgent .memory true = true) :
    exec (.bar4Access p off (.write bs)) s = .next (s.abortedBar4 p off) := by
  refine (if_neg (by rw [hw]; decide)).trans (congrArg Host.Outcome.next ?_)
  exact (if_pos hd).trans (if_pos rfl)

end

/-- Bytes of tiers 1 and 2 read as last written (R231). -/
theorem Mem.byte_putRaw (m : Mem) (t o : Nat) (bs : List (Option Byte)) (u a : Nat) (ht : t = 1 ∨ t = 2) (hu : u = 1 ∨ u = 2) :
    (m.putRaw t o bs).byte u a =
      if u = t ∧ o ≤ a then ((bs[a - o]?).getD none).getD (m.byte u a) else m.byte u a := by
  induction bs generalizing m o with
  | nil => simp [Mem.putRaw]
  | cons b r ih =>
    obtain rfl | hne := eq_or_ne a o
    · cases b with
      | none => simp [Mem.putRaw, ih]
      | some b => simp [Mem.putRaw, ih, Mem.byte_setByte m t a b u a ht hu]
    · have hnext : (u = t ∧ o + 1 ≤ a) ↔ (u = t ∧ o ≤ a) := by omega
      have hidx (h : o ≤ a) : (b :: r)[a - o]? = r[a - (o + 1)]? := by
        rw [show a - o = a - (o + 1) + 1 by omega, List.getElem?_cons_succ]
      cases b with
      | none =>
        rw [Mem.putRaw, ih]
        simp only [hnext]
        split
        · next h => rw [hidx h.2]
        · rfl
      | some b =>
        have hbyte : (m.setByte t o b).byte u a = m.byte u a := by
          rw [Mem.byte_setByte m t o b u a ht hu, if_neg fun h => hne h.2]
        rw [Mem.putRaw, ih, hbyte]
        simp only [hnext]
        split
        · next h => rw [hidx h.2]
        · rfl

/-- Settles O33: the window's equations, then the memory's. -/
theorem serverWindowReachesMemory : Obligations.ServerWindowReachesMemory := by
  unfold Obligations.ServerWindowReachesMemory
  refine ⟨fun p s off n bs => ?_, fun m t o bs u a ht hu => m.byte_putRaw t o bs u a ht hu,
    fun m t o bs h => m.putRaw_wf t o bs h, fun m t g b h => m.setValid_wf t g b h, fun p => ?_⟩
  · dsimp only
    refine ⟨fun hw => ⟨fun hd hs => ⟨fun hl => exec_bar4Read hw hd hs hl, fun hl => ?_⟩, fun hd => ?_⟩,
      fun hw hd hs hl => exec_bar4Write hw hd hs hl, fun hw hd => ⟨_, exec_bar4Write_denied hw hd, s.abortedBar4_mem p off⟩⟩
    · refine ⟨_, exec_bar4Read_down hw hd hs hl, ?_⟩
      rw [State.answered_pol, ← s.standIn_mem p]
      rfl
    · refine ⟨_, exec_bar4Read_denied hw hd, ?_⟩
      rw [State.answered_pol, ← s.abortedBar4_mem p off]
      exact ⟨rfl, rfl, rfl⟩
  · fin_cases p <;> rfl
end Sys2Proof.Machine

/-! PROOFS. The step of the machine, what reset leaves, and the words of the links: flits, headers and transactions
read back as they were formed. -/

namespace Sys2Proof.Machine

/-- Settles O1: the loop of the machine takes the front of the queue, and a command takes its effect on the rest. -/
theorem stepTakesTheFrontCommand : Obligations.StepTakesTheFrontCommand := fun _ _ => rfl

/-- Every polder of the reset state is a polder after power-on. -/
@[simp] theorem State.reset_pol (p : Pid) : State.reset.pol p = Polder.reset := by
  unfold State.pol State.reset
  match p with
  | 0 => rfl
  | 1 => rfl
  | 2 => rfl
  | 3 => rfl

/-- No register of a polder after power-on is stored: each reads its reset value (R505, R519). -/
theorem Polder.reset_rd (off : Nat) : Polder.reset.rd off = polDefault off := by
  unfold Polder.rd
  rw [Nat.mul_zero, Nat.add_zero]
  rfl

/-- Nothing stored: every place reads its default. -/
theorem SMap.get_empty {V : Type} (d : Nat → V) (k : Nat) : SMap.get d [] k = d k := rfl

/-- An image that stores nothing reads every staged register at its reset value (R440). -/
theorem Image.get_of_vals_nil {i : Image} (h : i.vals = []) (p off idx : Nat) :
    i.get p off idx = cfgDefault (cfgKey p off idx) := by
  rw [Image.get, h, SMap.get_empty]

/-- A staged register at its reset value reads it whether its page is restored or not (R440, R508). -/
theorem State.cfg_of_vals_nil {s : State} (h : s.mod.active.vals = []) (p : Pid) (off : Nat) :
    s.cfg p off = cfgDefault (cfgKey p.val off 0) := by
  unfold State.cfg
  rw [Image.get_of_vals_nil h, ite_self]

/-- A staged register of a polder has the reset value of its location, whichever polder it is in. -/
theorem cfgDefault_pol (p : Pid) {off : Nat} (h : off < 2 ^ 29) : cfgDefault (cfgKey p.val off 0) = polDefault off := by
  have hp := p.isLt
  have h1 : cfgKey p.val off 0 / 2 ^ 13 % 2 ^ 29 = off := by unfold cfgKey; omega
  have h2 : cfgKey p.val off 0 / 2 ^ 42 ≠ 4 := by unfold cfgKey; omega
  have h3 : cfgKey p.val off 0 ≠ cfgKey 4 (KQ + 0x44) 0 := by unfold cfgKey; omega
  unfold cfgDefault
  dsimp only
  rw [h1, if_neg h2, if_neg h3]

/-- A staged register of the module that is not slot 0's binding has the reset value of its location (R429, R440). -/
theorem cfgDefault_mod {off idx : Nat} (h : off < 2 ^ 29) (hi : idx < 2 ^ 13) (hne : idx ≠ 0) :
    cfgDefault (cfgKey 4 off idx) = modDefault off := by
  have h1 : cfgKey 4 off idx / 2 ^ 13 % 2 ^ 29 = off := by unfold cfgKey; omega
  have h2 : cfgKey 4 off idx / 2 ^ 42 = 4 := by unfold cfgKey; omega
  have h3 : cfgKey 4 off idx ≠ cfgKey 4 (KQ + 0x44) 0 := by unfold cfgKey; omega
  unfold cfgDefault
  dsimp only
  rw [h1, if_pos h2, if_neg h3]

/-- Settles O9: no register is stored at reset, so each reads its default, and the defaults are those of the pages. -/
theorem resetLeavesTheModuleInReset : Obligations.ResetLeavesTheModuleInReset := by
  refine ⟨rfl, rfl, fun _ => rfl, rfl, rfl, rfl, rfl, ?_, ?_, ?_, ?_, ?_⟩
  · intro g hg
    obtain rfl : g = 0 := List.mem_singleton.mp hg
    show (0#32).toNat < (1#32).toNat
    decide
  · intro p
    rw [State.reset_pol]
    exact ⟨rfl, rfl⟩
  · intro p e he
    rw [State.reset_pol, Polder.reset_rd]
    revert e
    decide
  · intro p e he
    have hoff : e.1 < 2 ^ 29 := by revert e; decide
    rw [State.cfg_of_vals_nil rfl, cfgDefault_pol p hoff]
    revert e
    decide
  · intro k
    show cfgDefault (cfgKey 4 (KQ + 0x44) k.val) = _
    by_cases hk : k = 0
    · rw [hk]; decide
    · rw [if_neg hk, cfgDefault_mod (by decide) (by have := k.isLt; omega) fun h => hk (Fin.ext h)]
      decide


/-- Byte `i` of a little-endian value is byte `i` of the bytes that make it up. -/
theorem natOfBytes_byte (bs : List Byte) (i : Nat) (h : i < bs.length) :
    natOfBytes bs / 256 ^ i % 256 = bs[i].toNat := by
  induction bs generalizing i with
  | nil => simp at h
  | cons b bs ih =>
    have hb := b.isLt
    cases i with
    | zero => simp only [natOfBytes, Nat.pow_zero, Nat.div_one, List.getElem_cons_zero]; omega
    | succ i =>
      have hdiv : (b.toNat + 256 * natOfBytes bs) / 256 = natOfBytes bs := by omega
      rw [natOfBytes, Nat.pow_succ', ← Nat.div_div_eq_div_mul, hdiv, List.getElem_cons_succ]
      exact ih i (Nat.lt_of_succ_lt_succ h)

/-- Bytes made into a word that holds them all read back. -/
theorem bytesOf_wordOf {n : Nat} (bs : List Byte) (h : 8 * bs.length ≤ n) : bytesOf (wordOf n bs) bs.length = bs := by
  refine List.ext_getElem (length_bytesOf _ _) fun i h1 h2 => ?_
  have hpow : 256 ^ i = 2 ^ (8 * i) := by rw [Nat.pow_mul]
  have hbyte : natOfBytes bs / 2 ^ (8 * i) % 2 ^ 8 = bs[i].toNat := hpow ▸ natOfBytes_byte bs i h2
  refine BitVec.eq_of_getLsbD_eq fun j hj => ?_
  have hlt : 8 * i + j < n := by omega
  simp only [bytesOf, List.getElem_map, List.getElem_range]
  rw [BitVec.getLsbD_extractLsb', wordOf, BitVec.getLsbD_ofNat,
    decide_eq_true hj, decide_eq_true hlt, Bool.true_and, Bool.true_and, BitVec.getLsbD, ← hbyte, Nat.testBit_mod_two_pow,
    Nat.testBit_div_two_pow, decide_eq_true hj, Bool.true_and, Nat.add_comm]

/-- A flit's words lie below its parity and its CRC (R297). -/
theorem bits_flit_low {lo w : Nat} (c par : W32) (low : BitVec 1984) (h : lo + w ≤ 1984) :
    bits ((c ++ par ++ low : BitVec 2048)) lo w = bits low lo w :=
  BitVec.extractLsb'_append_eq_of_add_le h

/-- The bytes a CRC covers are those of the parity and the words below it (R299). -/
theorem bytesOf_flit (c par : W32) (low : BitVec 1984) :
    bytesOf ((c ++ par ++ low : BitVec 2048)) 252 = bytesOf (par ++ low) 252 := by
  refine List.map_congr_left fun i hi => ?_
  have hi' : i < 252 := List.mem_range.mp hi
  by_cases h : 8 * i + 8 ≤ 1984
  · exact (bits_flit_low c par low h).trans (BitVec.extractLsb'_append_eq_of_add_le h).symm
  · have hle : 1984 ≤ 8 * i := by omega
    calc bits (c ++ par ++ low : BitVec 2048) (8 * i) 8
        = bits (c ++ par) (8 * i - 1984) 8 := BitVec.extractLsb'_append_eq_of_le hle
      _ = bits par (8 * i - 1984) 8 := BitVec.extractLsb'_append_eq_of_add_le (by omega)
      _ = bits (par ++ low : BitVec 2016) (8 * i) 8 := (BitVec.extractLsb'_append_eq_of_le hle).symm

theorem bits_flit_crc (c par : W32) (low : BitVec 1984) : bits ((c ++ par ++ low : BitVec 2048)) 2016 32 = c :=
  (BitVec.extractLsb'_append_eq_of_le (xhi := c ++ par) (by decide)).trans
    ((BitVec.extractLsb'_append_eq_of_le (xhi := c) (by decide)).trans BitVec.extractLsb'_eq_self)

theorem bits_flit_parity (c par : W32) (low : BitVec 1984) : bits ((c ++ par ++ low : BitVec 2048)) 1984 32 = par :=
  (BitVec.extractLsb'_append_eq_of_le (xhi := c ++ par) (by decide)).trans
    ((BitVec.extractLsb'_append_eq_of_add_le (xhi := c) (by decide)).trans BitVec.extractLsb'_eq_self)

/-- The CRC of a formed flit is right (R299). -/
theorem crcOk_formFlit (w : W64) (pay : BitVec 1920) : crcOk (formFlit w pay) = true := by
  unfold crcOk formFlit
  dsimp only
  rw [bytesOf_flit, bits_flit_crc, beq_self_eq_true]

/-- The parity of a formed flit is right (R297, R300). -/
theorem parityOk_formFlit (w : W64) (pay : BitVec 1920) : parityOk (formFlit w pay) = true := by
  unfold parityOk formFlit
  dsimp only
  rw [bits_flit_parity, bits_flit_low _ _ _ (by decide)]
  have hlow : bits (pay ++ w : BitVec 1984) 0 1984 = pay ++ w := BitVec.extractLsb'_eq_self
  rw [hlow, BitVec.xor_self, BitVec.zero_and]
  rfl

/-- A formed flit's first word is its link header (R297). -/
theorem flitWord_formFlit_zero (w : W64) (pay : BitVec 1920) : flitWord (formFlit w pay) 0 = w :=
  (bits_flit_low _ _ _ (by decide)).trans BitVec.extractLsb'_append_eq_right

/-- A formed flit's next words are its payload (R297). -/
theorem bits_formFlit_pay (w : W64) (pay : BitVec 1920) {lo n : Nat} (h : 64 ≤ lo) (hn : lo + n ≤ 1984) :
    bits (formFlit w pay) lo n = bits pay (lo - 64) n :=
  (bits_flit_low _ _ _ hn).trans (BitVec.extractLsb'_append_eq_of_le h)

theorem flitPay_formFlit (w : W64) (pay : BitVec 1920) : flitPay (formFlit w pay) = pay :=
  (bits_formFlit_pay w pay (by decide) (by decide)).trans BitVec.extractLsb'_eq_self

/-- A link header reads back from its word (R298). -/
theorem linkHdr_word (h : LinkHdr) (ht : h.type < 16) (ha : h.ak < 4) (hc : h.cls < 4) (hr : h.credits < 4096)
    (hcc : h.cclass < 4) (hl : h.low < 2 ^ 18) : linkHdr h.word = h := by
  obtain ⟨type, seq, aseq, ak, cls, credits, cclass, low⟩ := h
  simp (disch := decide) only [linkHdr, LinkHdr.word, bits, bitsN, BitVec.extractLsb'_append_eq_of_le, BitVec.extractLsb'_append_eq_of_add_le,
    Nat.reduceSub, BitVec.extractLsb'_eq_self, BitVec.toNat_ofNat]
  simp only [Nat.mod_eq_of_lt ht, Nat.mod_eq_of_lt ha, Nat.mod_eq_of_lt hc, Nat.mod_eq_of_lt hr, Nat.mod_eq_of_lt hcc,
    Nat.mod_eq_of_lt hl]

/-- The route word reads back (R311). -/
theorem routeOf_word (r : Route) (hd : r.dest < 4096) (hs : r.src < 4096) (hu : r.used < 256) (ht : r.start < 256) :
    routeOf r.word = r := by
  obtain ⟨dest, src, used, start, fseq⟩ := r
  simp (disch := decide) only [routeOf, Route.word, bits, bitsN, BitVec.extractLsb'_append_eq_of_le,
    BitVec.extractLsb'_append_eq_of_add_le, Nat.reduceSub, BitVec.extractLsb'_eq_self, BitVec.toNat_ofNat]
  simp only [Nat.mod_eq_of_lt hd, Nat.mod_eq_of_lt hs, Nat.mod_eq_of_lt hu, Nat.mod_eq_of_lt ht]

/-- Word 1 of a formed flit is the route word of its payload (R297, R311). -/
theorem flitWord_formFlit_one (w : W64) (r : Route) (data : List Byte) :
    flitWord (formFlit w (formPay r data)) 1 = r.word :=
  (bits_formFlit_pay w _ (by decide) (by decide)).trans BitVec.extractLsb'_append_eq_right

/-- The data a flit was formed with reads back while it fits the data area (R311). -/
theorem flitData_formFlit (w : W64) (r : Route) (data : List Byte) (hn : data.length = r.used) (hu : r.used ≤ 232) :
    flitData (formFlit w (formPay r data)) r = data := by
  have hbits : bits (formFlit w (formPay r data)) 128 1856 = wordOf 1856 data :=
    (bits_formFlit_pay w _ (by decide) (by decide)).trans
      ((BitVec.extractLsb'_append_eq_of_le (by decide)).trans BitVec.extractLsb'_eq_self)
  rw [flitData, hbits, Nat.min_eq_right hu, ← hn]
  exact bytesOf_wordOf data (by omega)

/-- The first word of a transaction's header (R314). -/
def txnWord0 (t : Txn) : W64 :=
  t.status ++ BitVec.ofNat 1 (bit01 t.deferred) ++ BitVec.ofNat 1 (bit01 t.chk) ++ t.rinc ++ t.epoch ++ t.len ++ t.tag ++
    t.tinc ++ t.mod ++ t.op

/-- A transaction's bytes: its four header words, its data and the padding (R312, R314). -/
theorem txnBytes_eq (t : Txn) : Txn.bytes t = bytesOf (txnWord0 t) 8 ++ (bytesOf t.addr 8 ++ (bytesOf (t.ctx.setWidth 64) 8 ++
    (bytesOf t.opnd 8 ++ (t.data ++ List.replicate (pad8 t.data.length - t.data.length) 0)))) := by
  have hpad : pad8 (8 + (8 + (8 + (8 + t.data.length)))) - (8 + (8 + (8 + (8 + t.data.length)))) =
      pad8 t.data.length - t.data.length := by unfold pad8; omega
  unfold Txn.bytes
  simp only [List.length_append, length_bytesOf, hpad, List.append_assoc]
  rfl

/-- A flag reads back from the bit it was put at. -/
theorem getLsbD_of_bits {n i : Nat} {v : BitVec n} {b : Bool} (h : bits v i 1 = BitVec.ofNat 1 (bit01 b)) :
    v.getLsbD i = b := by
  have h0 := congrArg (BitVec.getLsbD · 0) h
  cases b <;> simpa [BitVec.getLsbD_extractLsb', bit01] using h0

/-- The fields of a header's first word read back (R314). -/
theorem txnWord0_fields (t : Txn) :
    bits (txnWord0 t) 0 8 = t.op ∧ bits (txnWord0 t) 8 4 = t.mod ∧ bits (txnWord0 t) 12 4 = t.tinc ∧
    bits (txnWord0 t) 16 16 = t.tag ∧ bits (txnWord0 t) 32 10 = t.len ∧ bits (txnWord0 t) 42 8 = t.epoch ∧
    bits (txnWord0 t) 50 4 = t.rinc ∧ (txnWord0 t).getLsbD 54 = t.chk ∧ (txnWord0 t).getLsbD 55 = t.deferred ∧
    bits (txnWord0 t) 56 8 = t.status := by
  refine ⟨?_, ?_, ?_, ?_, ?_, ?_, ?_, getLsbD_of_bits ?_, getLsbD_of_bits ?_, ?_⟩
  all_goals
    simp (disch := decide) only [txnWord0, bits, BitVec.extractLsb'_append_eq_of_le,
      BitVec.extractLsb'_append_eq_of_add_le, Nat.reduceSub, BitVec.extractLsb'_eq_self]

/-- A header word at the front reads back. -/
theorem wordOf_take {n : Nat} (v : BitVec n) (l : List Byte) (h : n ≤ 64) :
    wordOf 64 ((bytesOf v 8 ++ l).take 8) = v.setWidth 64 := by
  rw [List.take_left' (length_bytesOf v 8)]
  exact wordOf_bytesOf v 8 h

/-- Padding keeps what is padded (R312). -/
theorem pad8_ge (n : Nat) : n ≤ pad8 n := by unfold pad8; omega

/-- What stands behind each of four header words. -/
theorem drop_words {a b c d : List Byte} (ha : a.length = 8) (hb : b.length = 8) (hc : c.length = 8) (hd : d.length = 8)
    (r : List Byte) :
    (a ++ (b ++ (c ++ (d ++ r)))).drop 8 = b ++ (c ++ (d ++ r)) ∧ (a ++ (b ++ (c ++ (d ++ r)))).drop 16 = c ++ (d ++ r) ∧
    (a ++ (b ++ (c ++ (d ++ r)))).drop 24 = d ++ r ∧ (a ++ (b ++ (c ++ (d ++ r)))).drop 32 = r := by
  have h8 : (a ++ (b ++ (c ++ (d ++ r)))).drop 8 = b ++ (c ++ (d ++ r)) := List.drop_left' ha
  have h16 : (a ++ (b ++ (c ++ (d ++ r)))).drop (8 + 8) = c ++ (d ++ r) := by
    rw [← List.drop_drop, h8]; exact List.drop_left' hb
  have h24 : (a ++ (b ++ (c ++ (d ++ r)))).drop (8 + 8 + 8) = d ++ r := by
    rw [← List.drop_drop, h16]; exact List.drop_left' hc
  have h32 : (a ++ (b ++ (c ++ (d ++ r)))).drop (8 + 8 + 8 + 8) = r := by
    rw [← List.drop_drop, h24]; exact List.drop_left' hd
  exact ⟨h8, h16, h24, h32⟩

/-- A transaction is parsed from the front of a stream that carries it, and the bytes behind it are left (R312, R314). -/
theorem parseTxn_bytes (t : Txn) (rest : List Byte) (h : t.data.length = dataLen t.op.toNat t.len.toNat) :
    parseTxn t.src.toNat t.dst.toNat t.cls (Txn.bytes t ++ rest) = some (t, rest) := by
  obtain ⟨hop, hmod, htinc, htag, hlen, hepoch, hrinc, hchk, hdef, hst⟩ := txnWord0_fields t
  obtain ⟨pad, hpad⟩ : ∃ pad : List Byte, pad = List.replicate (pad8 t.data.length - t.data.length) 0 := ⟨_, rfl⟩
  have hpl : t.data.length + pad.length = pad8 t.data.length := by
    rw [hpad, List.length_replicate]
    exact Nat.add_sub_cancel' (pad8_ge _)
  have hn : dataLen (bitsN (txnWord0 t) 0 8) (bitsN (txnWord0 t) 32 10) = t.data.length := by
    rw [h, ← hop, ← hlen]
  obtain ⟨l, hl⟩ : ∃ l : List Byte, l = Txn.bytes t ++ rest := ⟨_, rfl⟩
  have hb : l = bytesOf (txnWord0 t) 8 ++ (bytesOf t.addr 8 ++ (bytesOf (t.ctx.setWidth 64) 8 ++
      (bytesOf t.opnd 8 ++ (t.data ++ (pad ++ rest))))) := by
    rw [hl, txnBytes_eq, hpad]
    simp only [List.append_assoc]
  obtain ⟨h8, h16, h24, h32⟩ := drop_words (length_bytesOf (txnWord0 t) 8) (length_bytesOf t.addr 8)
    (length_bytesOf (t.ctx.setWidth 64) 8) (length_bytesOf t.opnd 8) (t.data ++ (pad ++ rest))
  rw [← hb] at h8 h16 h24 h32
  have hw0 : (wordOf 64 (l.take 8) : W64) = txnWord0 t := by
    rw [hb, wordOf_take _ _ (Nat.le_refl _), BitVec.setWidth_eq]
  have hdn : l.drop (32 + pad8 t.data.length) = rest := by
    rw [← List.drop_drop, h32, ← List.append_assoc]
    exact List.drop_left' (by rw [List.length_append, hpl])
  have hlen' : l.length = 32 + pad8 t.data.length + rest.length := by
    rw [hb]
    simp only [List.length_append, length_bytesOf]
    omega
  have hctx : bits ((t.ctx.setWidth 64).setWidth 64) 0 16 = t.ctx := by
    rw [BitVec.setWidth_eq, bits, BitVec.extractLsb'_setWidth_of_le (by decide), BitVec.extractLsb'_eq_self]
  rw [← hl]
  unfold parseTxn
  dsimp only
  rw [if_neg (by omega), hw0, hn, if_neg (by omega), hdn, h32, h8, h16, h24, wordOf_take _ _ (Nat.le_refl _),
    wordOf_take _ _ (Nat.le_refl _), wordOf_take _ _ (Nat.le_refl _), hctx, BitVec.setWidth_eq, BitVec.setWidth_eq,
    hop, hmod, htinc, htag, hlen, hepoch, hrinc, hchk, hdef, hst, BitVec.ofNat_toNat, BitVec.setWidth_eq,
    BitVec.ofNat_toNat, BitVec.setWidth_eq, List.take_left' rfl]

/-- Settles O38: a formed flit's parity and CRC are computed over the words below them, each field of a packed word
lies where it is read, and a stream carries its transactions one after another. -/
theorem flitsAndTransactionsReadBack : Obligations.FlitsAndTransactionsReadBack := by
  refine ⟨fun w pay => ?_, linkHdr_word, fun r w data hd hs hu ht => ?_, parseTxn_bytes⟩
  · exact ⟨crcOk_formFlit w pay, parityOk_formFlit w pay, flitWord_formFlit_zero w pay, flitPay_formFlit w pay⟩
  · refine ⟨routeOf_word r hd hs hu ht, fun hn hle => ⟨?_, flitData_formFlit w r data hn hle⟩⟩
    rw [flitWord_formFlit_one, routeOf_word r hd hs hu ht]
end Sys2Proof.Machine

/-! PROOFS. The Fleavik ports: bring-up in stages, CTRL, and the flits they send and receive. -/

namespace Sys2Proof.Machine

theorem Polder.port_setPort_same (p : Polder) (n : Nat) (v : Port) : (p.setPort n v).port n = v := by
  rw [Polder.port_setPort, if_pos rfl]

theorem Polder.port_setPort_ne (p : Polder) {n k : Nat} (v : Port) (h : k ≠ n) : (p.setPort n v).port k = p.port k := by
  rw [Polder.port_setPort, if_neg h]

theorem Polder.port_congr {p q : Polder} (h : q.ports = p.ports) (k : Nat) : q.port k = p.port k := by
  unfold Polder.port
  rw [h]

@[simp] theorem Polder.port_wr (p : Polder) (off place : Nat) (v : W32) (k : Nat) : (p.wr off v place).port k = p.port k := rfl
@[simp] theorem Polder.port_raise (p : Polder) (page bit k : Nat) : (p.raise page bit).port k = p.port k := rfl
@[simp] theorem Polder.port_count (p : Polder) (off n lo width place k : Nat) :
    (p.count off n lo width place).port k = p.port k := rfl
@[simp] theorem Polder.rd_setPort (p : Polder) (n off place : Nat) (v : Port) :
    (p.setPort n v).rd off place = p.rd off place := rfl
@[simp] theorem Polder.sent_port (p : Polder) (k : Nat) : p.sent.port k = p.port k := rfl

/-- Where a port stands depends on its CTRL and on where it stood. -/
theorem Polder.portSt_congr {p q : Polder} {k : Nat} (hr : q.rd (FLP k + 0x0C) = p.rd (FLP k + 0x0C))
    (hs : (q.port k).st = (p.port k).st) : q.portSt k = p.portSt k := by
  unfold Polder.portSt Polder.portCtl
  dsimp only
  rw [hr, hs]

/-- Where an enabled port stands (R288). -/
theorem Polder.portSt_enabled {p : Polder} {k : Nat} (h : p.portCtl k 0 = true) (hs : (p.port k).st ≠ .disabled) :
    p.portSt k = (p.port k).st := by
  unfold Polder.portSt
  rw [h]
  exact if_neg hs

/-- A port that stands anywhere is enabled (R288). -/
theorem Polder.portCtl_of_portSt {p : Polder} {k : Nat} (h : p.portSt k ≠ .disabled) : p.portCtl k 0 = true := by
  by_contra hc
  refine h (if_pos ?_)
  rw [Bool.not_eq_true] at hc
  rw [hc]
  rfl

theorem Polder.portUp_eq_false {p : Polder} {k : Nat} (h : p.portSt k ≠ .up) : p.portUp k = false :=
  decide_eq_false h

/-- Nothing but the queues of ports that are UP and the FLX counters is changed (R338). -/
def Polder.RoutesOnly (p q : Polder) : Prop :=
  (∀ off, FLX0 + 0x1000 ≤ off → q.rd off = p.rd off) ∧ (∀ k, ∃ l, q.port k = { p.port k with queue := l }) ∧
    ∀ k, p.portUp k = false → q.port k = p.port k

namespace Polder.RoutesOnly

theorem refl (p : Polder) : p.RoutesOnly p := ⟨fun _ _ => rfl, fun _ => ⟨_, rfl⟩, fun _ _ => rfl⟩

theorem portSt {p q : Polder} (h : p.RoutesOnly q) (k : Nat) : q.portSt k = p.portSt k := by
  obtain ⟨hr, hq, -⟩ := h
  obtain ⟨l, hl⟩ := hq k
  exact Polder.portSt_congr (hr _ (by unfold FLP FLX0; omega)) (by rw [hl])

theorem trans {p q r : Polder} (h : p.RoutesOnly q) (g : q.RoutesOnly r) : p.RoutesOnly r := by
  have hst := h.portSt
  obtain ⟨hr, hq, hu⟩ := h
  obtain ⟨gr, gq, gu⟩ := g
  refine ⟨fun off ho => (gr off ho).trans (hr off ho), fun k => ?_, fun k hk => ?_⟩
  · obtain ⟨l, hl⟩ := hq k
    obtain ⟨m, hm⟩ := gq k
    exact ⟨m, by rw [hm, hl]⟩
  · have hqk : q.portUp k = false := by
      unfold Polder.portUp at hk ⊢
      rw [hst k, hk]
    rw [gu k hqk, hu k hk]

theorem unroutable (p : Polder) (n : Nat) : p.RoutesOnly (p.unroutable n) := by
  unfold Polder.unroutable
  split
  · exact refl p
  · refine ⟨fun off ho => ?_, fun k => ⟨_, rfl⟩, fun k _ => rfl⟩
    rw [Polder.rd_raise _ (by omega) (by omega), Polder.count, Polder.rd_wr_ne _ _ (by omega)]


end Polder.RoutesOnly


/-- An output a destination takes is UP (R337, R338). -/
theorem PolCtx.output_up (x : PolCtx) {p : Polder} {dest o : Nat} (h : x.output p dest = some (some o)) :
    p.portUp o = true := by
  unfold PolCtx.output at h
  dsimp only at h
  split at h
  · cases h
  split at h
  case isTrue hu => cases h; exact hu
  split at h
  case isTrue hu => cases h; exact (Bool.and_eq_true _ _ ▸ hu).2
  case isFalse => cases h

namespace Polder.RoutesOnly

theorem enqueue (p : Polder) (x : PolCtx) (i : TxItem) : p.RoutesOnly (p.enqueue x i) := by
  unfold Polder.enqueue
  split
  case h_1 o ho =>
    have hup : p.portUp o = true := x.output_up ho
    refine ⟨fun _ _ => rfl, fun k => ?_, fun k hk => ?_⟩
    · by_cases h : k = o
      · subst h; exact ⟨_, Polder.port_setPort_same _ _ _⟩
      · exact ⟨_, Polder.port_setPort_ne _ _ h⟩
    · refine Polder.port_setPort_ne _ _ ?_
      rintro rfl
      exact absurd (hk.symm.trans hup) (by decide)
  · exact unroutable p _

theorem handBack (p : Polder) (x : PolCtx) (v : Port) : p.RoutesOnly (p.handBack x v) := by
  unfold Polder.handBack
  refine List.foldlRecOn (motive := fun q : Polder => p.RoutesOnly q) v.queue _ (unroutable p _) fun q hq i _ => ?_
  split
  · exact hq.trans (unroutable q _)
  · exact hq.trans (enqueue q x _)

end Polder.RoutesOnly

/-- An enabled port that has been set stands where it was set (R288). -/
theorem Polder.portSt_setPort (p : Polder) {i : Nat} {v : Port} (h : p.portCtl i 0 = true) (hv : v.st ≠ .disabled) :
    (p.setPort i v).portSt i = v.st := by
  have hp := p.port_setPort_same i v
  have hc : (p.setPort i v).portCtl i 0 = true := h
  rw [Polder.portSt_enabled hc (hp.symm ▸ hv), hp]

section
variable (p : Polder) (x : PolCtx) (i : Nat)

/-- A link that leaves UP: its port restarts, and what it held goes to other outputs (R293, R304). -/
theorem Polder.linkDown_up (cause : Nat) (h : p.portUp i = true) :
    (((p.setPort i ((p.port i).restart cause true)).count (FLP i + 0x6C) 1).raise (FLP i) 1).RoutesOnly
      (p.linkDown x i cause) := by
  unfold Polder.linkDown
  dsimp only
  rw [if_pos h, h]
  exact RoutesOnly.handBack _ x _

/-- A link that is not up only restarts (R293). -/
theorem Polder.linkDown_down (cause : Nat) (h : p.portUp i = false) :
    p.linkDown x i cause = p.setPort i ((p.port i).restart cause false) := by
  unfold Polder.linkDown
  dsimp only
  rw [h]
  rfl

/-- Bringing a link down leaves CTRL and restarts the port at LANE_CHECK (R293, R304). -/
theorem Polder.port_linkDown (cause : Nat) (h : p.portCtl i 0 = true) :
    (p.linkDown x i cause).port i = (p.port i).restart cause (p.portUp i) ∧
    (p.linkDown x i cause).portSt i = .laneCheck ∧
    (p.portUp i = true → ((p.linkDown x i cause).rd (FLP i + 0x14)).getLsbD 1 = true) := by
  cases hu : p.portUp i with
  | false =>
    rw [p.linkDown_down x i cause hu]
    refine ⟨p.port_setPort_same i _, ?_, fun h => absurd h (by decide)⟩
    exact p.portSt_setPort h fun h => nomatch h
  | true =>
    have hro := p.linkDown_up x i cause hu
    set q := ((p.setPort i ((p.port i).restart cause true)).count (FLP i + 0x6C) 1).raise (FLP i) 1 with hq
    have hport : q.port i = (p.port i).restart cause true := by
      rw [hq, Polder.port_raise, Polder.port_count, Polder.port_setPort_same]
    have hctl : q.rd (FLP i + 0x0C) = p.rd (FLP i + 0x0C) := by
      rw [hq, Polder.rd_raise _ (by omega) (by omega), Polder.count, Polder.rd_wr_ne _ _ (by omega), Polder.rd_setPort]
    have hst : q.portSt i = .laneCheck := by
      have hc : q.portCtl i 0 = true := by unfold Polder.portCtl at h ⊢; rw [hctl, h]
      rw [Polder.portSt_enabled hc (by rw [hport]; exact fun h => nomatch h), hport]
      rfl
    have hqu : q.portUp i = false := Polder.portUp_eq_false (by rw [hst]; exact fun h => nomatch h)
    refine ⟨(hro.2.2 i hqu).trans hport, (hro.portSt i).trans hst, fun _ => ?_⟩
    rw [hro.1 _ (by unfold FLP FLX0; omega), hq, Polder.rd_raise_event, BitVec.getLsbD_or]
    simp

end

section
variable (p : Polder) (x : PolCtx) (i : Nat)

theorem Polder.refusePeer_port (cause kind : Nat) (v : Port) :
    (p.refusePeer i cause kind v).port i = { v with st := .wait, cause := cause, peerKind := kind } := by
  unfold Polder.refusePeer
  dsimp only
  split
  · exact p.port_setPort_same i _
  · rw [Polder.port_raise, Polder.port_setPort_same]

/-- CTRL of a port lies apart from the events of the lane groups. -/
theorem Polder.portCtl_raise_lne (g bit k : Nat) : (p.raise (LNE g) bit).portCtl i k = p.portCtl i k := by
  unfold Polder.portCtl
  rw [Polder.rd_raise _ (by unfold FLP LNE; omega) (by unfold FLP LNE; omega)]

/-- A peer that the records refuse makes the port wait, with the cause of R291. -/
theorem Polder.roundEnd_refused (lanes : List LaneRx) (peer : Option FinalPage)
    (h : (peerCheck x i (p.portCtl i 3) lanes).1 ≠ 0) :
    ((p.roundEnd x i lanes peer).port i).st = .wait ∧
    ((p.roundEnd x i lanes peer).port i).cause = (peerCheck x i (p.portCtl i 3) lanes).1 := by
  have hctl (c : Prop) [Decidable c] : (if c then p else p.raise (LNE (groupOf i)) 1).portCtl i 3 = p.portCtl i 3 := by
    split
    · rfl
    · exact p.portCtl_raise_lne i _ _ _
  unfold Polder.roundEnd
  dsimp only
  rw [hctl, if_pos h, Polder.refusePeer_port]
  exact ⟨rfl, rfl⟩

/-- A port that enters UP starts its sequence numbers and its credits anew, and keeps its lanes and its queue (R293,
R296, R303). -/
theorem Polder.linkUp_port : (p.linkUp i).port i = { p.port i with
    st := .up, seq := 0, expect := 0, replay := [], resend := 0, replayFrom := none, spent := [], peerFreed := []
    freed := [], cclass := 0, nakSent := false, nakDue := false, unacked := 0, nakRun := 0, nakAge := 0 } := by
  unfold Polder.linkUp
  dsimp only
  have htwin (r : Polder) (f : Twin → Twin) : (r.onTwin f).port i = r.port i := rfl
  by_cases h7 : i = 7
  · rw [if_pos h7]
    split
    · rw [htwin, Polder.port_raise, Polder.port_setPort_same]
    · rw [Polder.port_raise, htwin, Polder.port_raise, Polder.port_setPort_same]
  · rw [if_neg h7]
    split
    · rw [Polder.port_raise, Polder.port_setPort_same]
    · rw [Polder.port_raise, Polder.port_raise, Polder.port_setPort_same]

end

section
variable {s : State} {p : Pid} {port : Fin 8}

/-- LANE_CHECK_DONE (R289). -/
theorem exec_laneCheckDone (hl : s.live p 5 = true) (b : BitVec 8) (hs : (s.pol p).portSt port.val = .laneCheck)
    (hc : cabled port.val = true) (hi : ((s.pol p).port port.val).idle = false) :
    let r := (s.pol p).setPort port.val { (s.pol p).port port.val with
      st := .negotiate, txShort := b, returns := 0, failed := 0, rxOpen := 0, inverted := 0, trained := 0 }
    s.Gives (.laneCheckDone p port b) p (if b = 0 then r else r.raise (LNE (groupOf port.val)) 0) :=
  State.gives_event rfl hl (if_pos (by rw [hs, hc, hi]; rfl))

/-- NEGOTIATE_ROUND_END (R290 to R293). -/
theorem exec_negotiateRoundEnd (hl : s.live p 5 = true) {lanes : List LaneRx} {peer : Option FinalPage}
    (hn : lanes.length = 8) (hs : (s.pol p).portSt port.val = .negotiate) :
    s.Gives (.negotiateRoundEnd p port lanes peer) p ((s.pol p).roundEnd (s.ctxOf p) port.val lanes peer) :=
  State.gives_event (if_neg fun h => h hn) hl (if_pos hs)

/-- Every lane in use trained (R294). -/
theorem exec_trainDone_good (hl : s.live p 5 = true) {f inv : BitVec 8} (hs : (s.pol p).portSt port.val = .train)
    (hf : f &&& ((s.pol p).port port.val).rxUsed = 0) :
    s.Gives (.trainDone p port f inv) p ((s.pol p).setPort port.val { (s.pol p).port port.val with
      trained := ((s.pol p).port port.val).rxUsed &&& ~~~(f &&& ((s.pol p).port port.val).rxUsed)
      inverted := inv &&& ((s.pol p).port port.val).rxUsed, st := .align }) := by
  refine State.gives_event rfl hl ?_
  dsimp only
  rw [if_neg fun h => h hs]
  exact if_pos hf

/-- Lanes that fail send the port back to NEGOTIATE twice, then to LANE_CHECK with CAUSE 7 (R294). -/
theorem exec_trainDone_failed (hl : s.live p 5 = true) {f inv : BitVec 8} (hs : (s.pol p).portSt port.val = .train)
    (hf : f &&& ((s.pol p).port port.val).rxUsed ≠ 0) : ∃ t, exec (.trainDone p port f inv) s = .next t ∧
    (((s.pol p).port port.val).returns < 2 → ((t.pol p).port port.val).st = .negotiate ∧
      ((t.pol p).port port.val).returns = ((s.pol p).port port.val).returns + 1) ∧
    (2 ≤ ((s.pol p).port port.val).returns → ((t.pol p).port port.val).st = .laneCheck ∧
      ((t.pol p).port port.val).cause = 7) := by
  obtain ⟨t, ht, htp⟩ := (State.gives_event (i := .trainDone p port f inv) rfl hl rfl).pol
  refine ⟨t, ht, fun hr => ?_, fun hr => ?_⟩ <;> rw [htp, Polder.sent_port, if_neg fun h => h hs, if_neg hf]
  · rw [if_pos hr, Polder.port_setPort_same]
    exact ⟨rfl, rfl⟩
  · rw [if_neg (Nat.not_lt.mpr hr)]
    have hctl := Polder.portCtl_of_portSt (p := s.pol p) (k := port.val) (by rw [hs]; exact fun h => nomatch h)
    have hport (v : Port) (x : PolCtx) := (Polder.port_linkDown ((s.pol p).setPort port.val v) x port.val 7 hctl).1
    rw [hport]
    exact ⟨rfl, rfl⟩

/-- ALIGN_DONE (R293, R296, R303). -/
theorem exec_alignDone (hl : s.live p 5 = true) (hs : (s.pol p).portSt port.val = .align) :
    s.Gives (.alignDone p port) p ((s.pol p).linkUp port.val) :=
  State.gives_event rfl hl (if_pos hs)

/-- ALIGN_TIMEOUT: the port goes back to LANE_CHECK (R288). -/
theorem exec_alignTimeout (hl : s.live p 5 = true) (hs : (s.pol p).portSt port.val = .align) :
    ∃ t, exec (.alignTimeout p port) s = .next t ∧ ((t.pol p).port port.val).st = .laneCheck := by
  refine ⟨_, congrArg Host.Outcome.next (if_pos (by rw [hl, hs]; rfl)), ?_⟩
  rw [State.pol_onPolFree, Polder.sent_port, Polder.port_setPort_same]
  rfl

/-- WAIT_EXPIRY (R288). -/
theorem exec_waitExpiry (hl : s.live p 5 = true) (hs : (s.pol p).portSt port.val = .wait) :
    s.Gives (.waitExpiry p port) p ((s.pol p).setPort port.val
      (((s.pol p).port port.val).restart ((s.pol p).port port.val).cause false)) :=
  State.gives_event rfl hl (if_pos hs)

/-- LANE_LOST: a port that is UP restarts, its transmitters idle first (R304). -/
theorem exec_laneLost (hl : s.live p 5 = true) (hu : (s.pol p).portUp port.val = true) :
    ∃ t, exec (.laneLost p port) s = .next t ∧ (t.pol p).port port.val = ((s.pol p).port port.val).restart 8 true ∧
      ((t.pol p).rd (FLP port.val + 0x14)).getLsbD 1 = true := by
  obtain ⟨t, ht, htp⟩ := (State.gives_event (i := .laneLost p port) rfl hl (if_pos hu)).pol
  have hctl := Polder.portCtl_of_portSt (p := s.pol p) (k := port.val)
    (by rw [of_decide_eq_true hu]; exact fun h => nomatch h)
  obtain ⟨hport, -, hev⟩ := Polder.port_linkDown (s.pol p) (s.ctxOf p) port.val 8 hctl
  refine ⟨t, ht, ?_, ?_⟩
  · rw [htp, Polder.sent_port, hport, hu]
  · rw [htp, Polder.sent_rd]
    exact hev hu

/-- IN_PACKAGE_BRINGUP with a mask that leaves a width (R293, R306). -/
theorem exec_inPackageBringup (hl : s.live p 5 = true) {bad pg : BitVec 8} {wd : Nat} {l : BitVec 8}
    (hs : (s.pol p).portSt port.val = .laneCheck) (hc : cabled port.val = false)
    (hi : ((s.pol p).port port.val).idle = false)
    (hw : widthOf (if (s.pol p).portCtl port.val 2 then (~~~bad &&& pg) &&& 0x0F#8 else ~~~bad &&& pg) = some (wd, l)) :
    ∃ t, exec (.inPackageBringup p port bad (some pg)) s = .next t ∧ ((t.pol p).port port.val).st = .up ∧
      ((t.pol p).port port.val).width = wd ∧ ((t.pol p).port port.val).lanes = l := by
  obtain ⟨t, ht, htp⟩ := (State.gives_event (i := .inPackageBringup p port bad (some pg)) rfl hl
    (if_pos (by rw [hs, hc, hi]; rfl))).pol
  refine ⟨t, ht, ?_⟩
  dsimp only at htp
  rw [hw] at htp
  rw [htp, Polder.sent_port, Polder.linkUp_port, Polder.port_setPort_same]
  exact ⟨rfl, rfl, rfl⟩

end

section
variable (p : Polder) (x : PolCtx) (i : Nat) (v : W32)

/-- Clearing ENABLE takes the port down (R288, R307). -/
theorem Polder.portCtrl_disable (h : v.getLsbD 0 = false) :
    (p.portCtrl x i v).portSt i = .disabled ∧ ((p.portCtrl x i v).port i).replay = [] ∧
    ((p.portCtrl x i v).port i).cause = 0 := by
  have hen : (v &&& 0xD#32).getLsbD 0 = false := by rw [BitVec.getLsbD_and, h]; rfl
  let o := p.port i
  let q := (p.wr (FLP i + 0x0C) (v &&& 0xD#32)).setPort i
    { Port.reset with peer := o.peer, peerKind := o.peerKind, rxq := o.rxq, tx := o.tx }
  have hq : q.portSt i = .disabled := by
    have hc : q.portCtl i 0 = false := by
      show (((p.wr (FLP i + 0x0C) (v &&& 0xD#32)).rd (FLP i + 0x0C))).getLsbD 0 = false
      rw [Polder.rd_wr_same, hen]
    unfold Polder.portSt
    rw [hc]
    rfl
  have hqp : (q.port i).replay = [] ∧ (q.port i).cause = 0 := by
    rw [Polder.port_setPort_same]
    exact ⟨rfl, rfl⟩
  have hf : p.portCtrl x i v = if p.portUp i then ((q.count (FLP i + 0x6C) 1).raise (FLP i) 1).handBack x o else q := by
    unfold Polder.portCtrl
    rw [h]
    rfl
  rw [hf]
  split
  · let r := (q.count (FLP i + 0x6C) 1).raise (FLP i) 1
    have hr : r.portSt i = .disabled := by
      refine (Polder.portSt_congr (p := q) (q := r) ?_ rfl).trans hq
      show ((q.count (FLP i + 0x6C) 1).raise (FLP i) 1).rd (FLP i + 0x0C) = _
      rw [Polder.rd_raise _ (by omega) (by omega), Polder.count, Polder.rd_wr_ne _ _ (by omega)]
    have hro := Polder.RoutesOnly.handBack r x o
    have hport : (r.handBack x o).port i = q.port i :=
      hro.2.2 i (Polder.portUp_eq_false (by rw [hr]; exact fun h => nomatch h))
    exact ⟨(hro.portSt i).trans hr, by rw [hport]; exact hqp.1, by rw [hport]; exact hqp.2⟩
  · exact ⟨hq, hqp⟩

/-- CTRL of a port as a write with ENABLE leaves it (R307). -/
theorem Polder.portCtl_wr_enable (h : v.getLsbD 0 = true) : (p.wr (FLP i + 0x0C) (v &&& 0xD#32)).portCtl i 0 = true := by
  unfold Polder.portCtl
  rw [Polder.rd_wr_same, BitVec.getLsbD_and, h]
  rfl

/-- Setting ENABLE starts LANE_CHECK (R288). -/
theorem Polder.portCtrl_enable (h : v.getLsbD 0 = true) (hw : p.portCtl i 0 = false) :
    (p.portCtrl x i v).portSt i = .laneCheck := by
  unfold Polder.portCtrl
  dsimp only
  rw [h, hw]
  exact Polder.portSt_setPort _ (p.portCtl_wr_enable i v h) fun h => nomatch h

/-- A write that leaves ENABLE set and asks for no RETRAIN stores CTRL (R307). -/
theorem Polder.portCtrl_keep (h : v.getLsbD 0 = true) (hr : v.getLsbD 1 = false) (hw : p.portCtl i 0 = true) :
    p.portCtrl x i v = p.wr (FLP i + 0x0C) (v &&& 0xD#32) := by
  unfold Polder.portCtrl
  dsimp only
  rw [h, hw, hr]
  rfl

end

/-- Settles O36: each row is its equation; a link that goes down hands its flits to other ports that are UP, so its own
port and CTRL stay as the restart leaves them. -/
theorem portsComeUpInStages : Obligations.PortsComeUpInStages := by
  refine ⟨?_, ?_⟩
  · intro p port s hl
    refine ⟨?_, ?_, ?_, ?_, exec_alignTimeout hl, exec_waitExpiry hl, exec_laneLost hl, ?_, ?_, ?_⟩
    · exact fun b hs hc hi => exec_laneCheckDone hl b hs hc hi
    · intro lanes peer hn hs
      have hg := exec_negotiateRoundEnd (peer := peer) hl hn hs
      refine ⟨hg, fun hc => ?_⟩
      obtain ⟨t, ht, htp⟩ := hg.pol
      refine ⟨t, ht, ?_⟩
      rw [htp, Polder.sent_port]
      exact Polder.roundEnd_refused _ _ _ _ _ hc
    · intro f inv hs
      refine ⟨exec_trainDone_good hl hs, fun hf hr => ?_, fun hf hr => ?_⟩ <;>
        obtain ⟨t, ht, hneg, hchk⟩ := exec_trainDone_failed (inv := inv) hl hs hf
      · exact ⟨t, ht, hneg hr⟩
      · exact ⟨t, ht, hchk hr⟩
    · intro hs
      obtain ⟨t, ht, htp⟩ := (exec_alignDone hl hs).pol
      refine ⟨t, ht, ?_⟩
      dsimp only
      rw [htp, Polder.sent_port, Polder.linkUp_port]
      exact ⟨rfl, rfl, rfl, rfl, rfl, rfl, rfl⟩
    · exact fun hi => State.gives_event rfl hl (if_pos hi)
    · exact fun hi => State.gives_event rfl hl (if_neg (by rw [hi]; decide))
    · exact fun bad pg wd l hs hc hi hw => exec_inPackageBringup hl hs hc hi hw
  · intro p port s w v q i ha
    have hen : s.GivesW w (.portEnableWrite p port w v) p (q.portCtrl ((s.noted w).ctxOf p) i v) :=
      State.gives_page rfl ha rfl
    obtain ⟨t, ht, htp⟩ := hen.pol
    refine ⟨hen, fun h => ⟨t, ht, ?_⟩, fun h hw => ⟨t, ht, ?_⟩, fun h hr hw => ?_, fun h => ?_, fun h => ?_⟩
    · rw [htp]
      exact q.portCtrl_disable _ i v h
    · rw [htp]
      exact q.portCtrl_enable _ i v h hw
    · rw [← q.portCtrl_keep ((s.noted w).ctxOf p) i v h hr hw]
      exact hen
    · exact State.gives_page rfl ha (if_neg (by rw [h]; decide))
    · obtain ⟨t, ht, htp⟩ := (State.gives_page (i := .retrain p port w) rfl ha (if_pos h)).pol
      obtain ⟨hport, hst, -⟩ := q.port_linkDown ((s.noted w).ctxOf p) i 10 h
      refine ⟨t, ht, ?_⟩
      rw [htp]
      refine ⟨hst, ?_⟩
      rw [Polder.sent_port, hport]
      exact ⟨rfl, rfl⟩

section
variable (p : Polder) (x : PolCtx) (i : Nat)

/-- A flit whose CRC or header is wrong is counted and asks for a NAK (R299, R302). -/
theorem Polder.receive_bad {f : BitVec 2048} (h : (crcOk f && (linkHdr (flitWord f 0)).ok) = false) :
    p.receive x i f = (p.count (FLP i + 0x5C) 1).setPort i (p.port i).askNak := by
  unfold Polder.receive
  dsimp only
  rw [h]
  rfl

/-- A header that acknowledges nothing leaves the port but for the credits it carries (R303). -/
theorem Polder.acknowledged_none {h : LinkHdr} (ha : h.ak = 0) :
    ∃ m, p.acknowledged i h = (p.setPort i { p.port i with peerFreed := m }, false) := by
  unfold Polder.acknowledged
  dsimp only
  by_cases hc : h.cclass < 3
  · exact ⟨_, by rw [if_pos ha, if_pos hc]⟩
  · exact ⟨(p.port i).peerFreed, by rw [if_pos ha, if_neg hc]⟩

/-- The flit a port expects, which is another polder's, is acknowledged and waits to be forwarded (R302, R313, R339). -/
theorem Polder.receive_foreign {f : BitVec 2048} (hc : crcOk f = true) (ho : (linkHdr (flitWord f 0)).ok = true)
    (ha : (linkHdr (flitWord f 0)).ak = 0) (ht : (linkHdr (flitWord f 0)).type = 1)
    (hs : (linkHdr (flitWord f 0)).seq = (p.port i).expect) (hp : parityOk f = true)
    (hm : (x.module? p).isSome = true) (hd : (routeOf (flitWord f 1)).dest ≠ x.ownId p) :
    ∃ m, (p.receive x i f).port i = { p.port i with
      peerFreed := m, expect := (p.port i).expect + 1, nakSent := false, nakDue := false
      unacked := (p.port i).unacked + 1, rxq := (p.port i).rxq ++ [f] } := by
  obtain ⟨m, hk⟩ := p.acknowledged_none i ha
  refine ⟨m, ?_⟩
  have hgood : ¬ (!(crcOk f && (linkHdr (flitWord f 0)).ok)) = true := by rw [hc, ho]; decide
  have hmod (v w : Port) : ¬ (x.module? ((p.setPort i v).setPort i w)).isNone = true := by
    have : x.module? ((p.setPort i v).setPort i w) = x.module? p := rfl
    rw [this, Option.isNone_iff_eq_none]
    exact Option.isSome_iff_ne_none.mp hm
  have hown (v w : Port) : x.ownId ((p.setPort i v).setPort i w) = x.ownId p := rfl
  unfold Polder.receive Polder.deliver
  dsimp only
  rw [if_neg hgood, hk]
  dsimp only
  rw [if_neg (by decide), if_neg (by rw [ht]; decide), Polder.port_setPort_same, if_pos hs, if_pos hp, if_neg (hmod _ _),
    hown, if_neg hd, Polder.port_setPort_same, Polder.port_setPort_same]

/-- What a NAK asked for is repeated before anything new (R301, R302). -/
theorem Polder.transmit_again {e : BitVec 12 × Nat × BitVec 1920} (hr : 0 < (p.port i).resend)
    (he : (p.port i).replay[(p.port i).replay.length - (p.port i).resend]? = some e) :
    ∃ m, p.transmit x i = p.setPort i { (p.port i).sent (formFlit ((p.port i).header 1 e.1 e.2.1).word e.2.2) with
      resend := (p.port i).resend - 1, replayFrom := m } := by
  refine ⟨if (p.port i).resend = 1 then none else (p.port i).replayFrom, ?_⟩
  unfold Polder.transmit
  dsimp only
  rw [if_neg (Nat.ne_of_gt hr), he]

/-- Taking the next payload changes nothing of the port but its queue (R303, R312). -/
theorem Polder.nextFlit_port {q : Polder} {c : Nat} {pay : BitVec 1920} (h : p.nextFlit x i = some (q, c, pay)) :
    ∃ l, q.port i = { p.port i with queue := l } := by
  unfold Polder.nextFlit at h
  obtain ⟨a, -, ha⟩ := List.exists_of_findSome?_eq_some h
  split at ha
  · cases ha
  obtain ⟨r, -, hr⟩ := Option.map_eq_some_iff.mp ha
  split at hr <;> cases hr
  · exact ⟨_, p.port_setPort_same i _⟩
  · exact ⟨_, p.port_setPort_same i _⟩

/-- A new flit is sent, and kept until it is acknowledged (R301, R303). -/
theorem Polder.transmit_new {q : Polder} {c : Nat} {pay : BitVec 1920} (hr : (p.port i).resend = 0)
    (hl : (p.port i).replay.length < 512) (hn : p.nextFlit x i = some (q, c, pay)) :
    ((p.transmit x i).port i).tx = some (formFlit ((p.port i).header 1 (p.port i).seq c).word pay) ∧
    ((p.transmit x i).port i).replay = (p.port i).replay ++ [((p.port i).seq, c, pay)] ∧
    ((p.transmit x i).port i).seq = (p.port i).seq + 1 := by
  obtain ⟨l, hq⟩ := p.nextFlit_port x i hn
  unfold Polder.transmit
  dsimp only
  rw [if_pos hr, if_pos hl, hn]
  dsimp only
  rw [Polder.port_wr, Polder.port_setPort_same, hq]
  exact ⟨rfl, rfl, rfl⟩

/-- With nothing to send a NULL flit goes out (R301). -/
theorem Polder.transmit_null (hr : (p.port i).resend = 0) (hl : (p.port i).replay.length < 512)
    (hn : p.nextFlit x i = none) : p.transmit x i =
      p.setPort i ((p.port i).sent (formFlit ((p.port i).header 0 ((p.port i).seq - 1) 0).word 0)) := by
  unfold Polder.transmit
  dsimp only
  rw [if_pos hr, if_pos hl, hn]

end

/-- Settles O37: each row acts on a port that is UP alone, and what the port then sends or takes is what the equations
of `receive` and `transmit` say. -/
theorem flitsAreDeliveredInOrder : Obligations.FlitsAreDeliveredInOrder := by
  intro p port s f hl q i v x h
  refine ⟨fun hu => ?_, fun hu => ?_, fun hm hd => ?_⟩
  · have hne : ¬ q.portUp i = true := by rw [hu]; decide
    exact ⟨State.gives_event rfl hl (if_neg hne), State.gives_event rfl hl (if_neg hne),
      State.gives_event rfl hl (if_neg fun h => hne (Bool.and_eq_true _ _ ▸ h).1)⟩
  · have hrx : s.Gives (.flitReceive p port f) p (q.receive x i f) := State.gives_event rfl hl (if_pos hu)
    have htx : s.Gives (.flitTransmit p port) p (q.transmit x i) := State.gives_event rfl hl (if_pos hu)
    obtain ⟨t, ht, htp⟩ := hrx.pol
    obtain ⟨t', ht', htp'⟩ := htx.pol
    refine ⟨hrx, fun hb => ⟨t, ht, ?_⟩, fun hc ho ha hty hs hp hm hd => ⟨t, ht, ?_⟩, fun e hr he => ⟨t', ht', ?_⟩,
      fun hr hlen q' c pay hn => ⟨t', ht', ?_⟩, fun hr hlen hn => ?_, fun hz => ?_, fun hz => ?_⟩
    · have hok : h.ok = false := of_decide_eq_true (Bool.and_eq_true _ _ ▸ hb).2
      have hbad : (crcOk f && (linkHdr (flitWord f 0)).ok) = false := by
        rw [show (linkHdr (flitWord f 0)).ok = false from hok, Bool.and_false]
      rw [htp, Polder.sent_rd, Polder.sent_port, q.receive_bad x i hbad, Polder.port_setPort_same, Polder.rd_setPort,
        Polder.rd_count]
      exact ⟨rfl, rfl, rfl⟩
    · obtain ⟨m, hport⟩ := q.receive_foreign x i hc ho ha hty hs hp hm hd
      rw [htp, Polder.sent_port, hport]
      exact ⟨rfl, rfl, rfl⟩
    · obtain ⟨m, hport⟩ := q.transmit_again x i hr he
      rw [htp', Polder.sent_port, hport, Polder.port_setPort_same]
      exact ⟨rfl, rfl, rfl⟩
    · rw [htp', Polder.sent_port]
      exact q.transmit_new x i hr hlen hn
    · rw [← q.transmit_null x i hr hlen hn]
      exact htx
    · refine State.gives_event rfl hl (if_neg ?_)
      rw [show (q.port i).unacked = 0 from hz, Bool.and_eq_true]
      exact fun h => absurd h.2 (by decide)
    · refine State.gives_event rfl hl (if_pos ?_)
      rw [hu, show decide (0 < (q.port i).unacked) = true from decide_eq_true hz]
      rfl
  · refine State.gives_event rfl hl (if_pos ?_)
    rw [hm, Bool.true_and]
    exact decide_eq_true hd
end Sys2Proof.Machine

/-! PROOFS. The fabric transaction engine: how requests end, windows, peers and shard maps. -/

namespace Sys2Proof.Machine

/-- A completion leaves the inbound queue. -/
def Polder.dropInbound (q : Polder) (t : Txn) : Polder :=
  match takeFirst (fun (e : Nat × Txn) => e.2 == t) q.flx.inbound with
  | some r => q.onFlx fun g => { g with inbound := r.2 }
  | none => q

theorem Polder.dropInbound_eq (q : Polder) (t : Txn) :
    ∃ l, q.dropInbound t = q.onFlx fun g => { g with inbound := l } := by
  unfold Polder.dropInbound
  split
  · exact ⟨_, rfl⟩
  · exact ⟨q.flx.inbound, rfl⟩

/-- What a completion does once it has left the inbound queue (R320 to R322). -/
def Polder.completeReq (q : Polder) (x : PolCtx) (t : Txn) : Polder :=
  let v := q.view t.src.toNat
  if (v.known && t.tinc ≠ v.inc) || t.rinc ≠ q.wdn.polderInc then (q.count (FLX0 + 0x70) 1).raise FLX0 7
  else
    let q := if v.known then q else q.setView t.src.toNat { v with inc := t.tinc, known := true }
    match q.reqOf t.tag with
    | some r => q.finishReq x r t.status t.deferred t.data
    | none => if q.flx.retired.contains t.tag then q.count (FLX0 + 0x78) 1 else q

section
variable {s : State} {p : Pid} (hl : s.live p 5 = true)
include hl

/-- A completion of a request that need not wait (R330). -/
theorem exec_txnCompletion {t : Txn} {r : OutReq} (hwf : t.wf = true) (hc : Txn.isCpl t = true)
    (hr : (s.pol p).reqOf t.tag = some r) (hf : (s.pol p).fenceWaits r = false) :
    s.Gives (.txnCompletion p t) p (((s.pol p).dropInbound t).completeReq (s.ctxOf p) t) := by
  refine State.gives_event (if_neg (by rw [hwf]; decide)) hl ?_
  dsimp only
  rw [if_neg (by rw [hc]; decide), hr]
  exact if_neg (ne_true_of_eq_false hf)

end

section
variable (q : Polder) (x : PolCtx) (t : Txn)

/-- A completion of another incarnation is counted and dropped (R320, R394). -/
theorem Polder.completeReq_stale (h : ((q.view t.src.toNat).known = true ∧ t.tinc ≠ (q.view t.src.toNat).inc) ∨
      t.rinc ≠ q.wdn.polderInc) :
    (q.dropInbound t).completeReq x t = ((q.dropInbound t).count (FLX0 + 0x70) 1).raise FLX0 7 := by
  obtain ⟨l, hq⟩ := q.dropInbound_eq t
  rw [hq]
  refine if_pos ?_
  have hv : (q.onFlx fun g => { g with inbound := l }).view t.src.toNat = q.view t.src.toNat := rfl
  have hw : (q.onFlx fun g => { g with inbound := l }).wdn = q.wdn := rfl
  rw [hv, hw, Bool.or_eq_true, Bool.and_eq_true, decide_eq_true_eq, decide_eq_true_eq]
  exact h

/-- A completion of the present incarnations ends its request (R316). -/
theorem Polder.completeReq_current {r : OutReq} (hr : q.reqOf t.tag = some r) (hk : (q.view t.src.toNat).known = true)
    (ht : t.tinc = (q.view t.src.toNat).inc) (hw : t.rinc = q.wdn.polderInc) :
    (q.dropInbound t).completeReq x t = (q.dropInbound t).finishReq x r t.status t.deferred t.data := by
  obtain ⟨l, hq⟩ := q.dropInbound_eq t
  rw [hq]
  have hv : (q.onFlx fun g => { g with inbound := l }).view t.src.toNat = q.view t.src.toNat := rfl
  have hwd : (q.onFlx fun g => { g with inbound := l }).wdn = q.wdn := rfl
  have hrq : (q.onFlx fun g => { g with inbound := l }).reqOf t.tag = some r := hr
  unfold Polder.completeReq
  dsimp only
  rw [hv, hwd, hk, ht, hw, if_neg (by simp), if_pos rfl, hrq]

end

/-- Settles O40: the rows are their equations once the request of the tag is known; a completion leaves the inbound
queue before it is judged. -/
theorem requestsSetOutAndEnd : Obligations.RequestsSetOutAndEnd := by
  intro p s hl q x drop
  refine ⟨?_, ?_, ?_, ?_⟩
  · intro t hwf hc hk
    refine State.gives_event (if_neg (by rw [hwf]; decide)) hl (if_neg ?_)
    rw [hc, hk]
    decide
  · intro t r hwf hc hr hf
    have h := exec_txnCompletion hl hwf hc hr hf
    refine ⟨fun hst => ?_, fun hk ht hw => ?_⟩
    · exact (q.completeReq_stale x t hst) ▸ h
    · exact (q.completeReq_current x t hr hk ht hw) ▸ h
  · intro tag r hr
    refine ⟨?_, fun hcls hu => ?_, fun hu => ?_⟩ <;> refine State.gives_event rfl hl ?_ <;> dsimp only <;>
      rw [show (s.pol p).reqOf tag = some r from hr]
    · exact if_pos (by rw [hcls, Bool.and_eq_true]; exact ⟨rfl, hu⟩)
    · exact if_neg (by rw [Bool.and_eq_true]; exact fun h => absurd (hu.symm.trans h.2) (by decide))
  · intro port t hwf hop hk hm
    have hex : exec (.fabricFence p port t) s = _ := if_neg (by rw [hwf]; decide)
    have hgo : ¬ (t.op ≠ opFence || !Txn.known t || (x.module? q).isNone) = true := by
      rw [hop, hk, Option.isNone_eq_false_iff.mpr hm]
      decide
    refine ⟨fun hst => ?_, fun hst hsrc => ⟨fun hh => ?_, fun hh => ?_⟩⟩ <;>
      refine State.gives_event hex hl ?_ <;> dsimp only <;> rw [if_neg hgo]
    · exact if_pos hst
    · rw [if_neg (by rw [hst]; decide)]
      exact if_pos (by rw [hh, Bool.or_true])
    · rw [if_neg (by rw [hst]; decide)]
      refine if_neg ?_
      rw [hh, decide_eq_false hsrc, Bool.false_and]
      decide


/-- A field put into a word is read back (R518). -/
theorem bits_setField_at (v : W32) {lo w : Nat} (n : Nat) (h : lo + w ≤ 32) :
    bits (setField v lo w n) lo w = BitVec.ofNat w n := by
  refine BitVec.eq_of_getLsbD_eq fun j hj => ?_
  have hlt : lo + j < 32 := by omega
  have hmask : (2 ^ w - 1).testBit j = true := by simp only [Nat.testBit_two_pow_sub_one, hj, decide_true]
  simp only [setField, bits, BitVec.getLsbD_extractLsb', BitVec.getLsbD_or, BitVec.getLsbD_and, BitVec.getLsbD_not,
    BitVec.getLsbD_ofNat, Nat.testBit_shiftLeft, Nat.le_add_right, Nat.add_sub_cancel_left, decide_true, Bool.true_and, hj,
    hlt, hmask, Bool.not_true, Bool.and_false, Bool.false_or, Nat.testBit_mod_two_pow]

section
variable (q : Polder) (x : PolCtx)

/-- A window of the register path that no commit holds is opened (R327). -/
theorem Polder.submitOpen_reg (hc : x.mod.commit = none) : q.submitOpen x .regPath = q.doOpen x .regPath false := by
  unfold Polder.submitOpen
  dsimp only
  rw [if_neg (by decide), hc]
  rfl

section
variable {i : Nat} {base : W64} {size : Nat} {mask : BitVec 3} (hi : i < 60) (hb : x.roleBound q i = false)
include hi hb

theorem Polder.openWin_role : ¬ (60 ≤ i || x.roleBound q i) = true := by
  rw [hb, decide_eq_false (by omega)]
  decide

omit hb in
theorem Polder.winSt_eq : q.winSt i = (q.win i).st := if_pos hi

/-- A window that is not CLOSED is not opened (R327). -/
theorem Polder.openWin_busy (hs : (q.win i).st ≠ .closed) : q.openWin x i base size mask = (q, Status.refusedBusy) := by
  unfold Polder.openWin
  rw [if_neg (q.openWin_role x hi hb), q.winSt_eq hi, if_pos hs]

/-- A range that is well-formed and meets no other window is judged by its region (R327). -/
theorem Polder.openWin_range (hs : (q.win i).st = .closed) (ha : base.toNat % 4096 = 0) (hz : size ≠ 0) (hm : mask ≠ 0)
    (ho : q.winOverlaps i base (4096 * size) = false) : q.openWin x i base size mask =
      if x.inRegion q base (4096 * size) then
        (q.setWin i { q.win i with base := base, size := size, mask := mask, st := .open_ }, Status.done)
      else (q, Status.addressInvalid) := by
  have hform : ¬ (base.toNat % 4096 ≠ 0 || size = 0 || mask = 0) = true := by
    simp only [Bool.or_eq_true, decide_eq_true_eq, not_or]
    exact ⟨⟨fun h => h ha, hz⟩, hm⟩
  unfold Polder.openWin
  rw [if_neg (q.openWin_role x hi hb), q.winSt_eq hi, if_neg fun h => h hs, if_neg hform, ho, if_neg (by decide)]
  cases x.inRegion q base (4096 * size) <;> rfl

end

/-- Closing a window of the register path that is OPEN (R329). -/
theorem Polder.closeWin_open (hi : q.rdN (FLX1 + 0x5C) % 64 < 60) (hb : x.roleBound q (q.rdN (FLX1 + 0x5C) % 64) = false)
    (hs : (q.win (q.rdN (FLX1 + 0x5C) % 64)).st = .open_) :
    let i := q.rdN (FLX1 + 0x5C) % 64
    let v := q.win i
    let r := q.setWin i { v with st := .closing, closers := v.closers ++ [.regPath] }
    q.closeWin x .regPath = if v.writes.isEmpty then r.endClose x i else r := by
  unfold Polder.closeWin
  dsimp only
  rw [if_neg (by decide), if_neg (q.openWin_role x hi hb), hs]

/-- The end of a closing that the register path alone waits for (R329). -/
theorem Polder.endClose_reg (i : Nat) (h : (q.win i).closers = [.regPath]) :
    q.endClose x i = (q.setWin i { q.win i with st := .closed, closers := [] }).winCode Status.done := by
  unfold Polder.endClose
  dsimp only
  rw [h]
  rfl

@[simp] theorem Polder.win_setWin_same (i : Nat) (v : Win) : (q.setWin i v).win i = v := by
  rw [Polder.win_setWin, if_pos rfl]

@[simp] theorem Polder.winCode_win (st : Status) (i : Nat) : (q.winCode st).win i = q.win i := rfl
@[simp] theorem Polder.sent_win (i : Nat) : q.sent.win i = q.win i := rfl

theorem Polder.winCode_code (st : Status) : bits ((q.winCode st).rd (FLX1 + 0x6C)) 8 8 = st := by
  unfold Polder.winCode
  rw [Polder.rd_wr_same, bits_setField_at _ _ (by decide), BitVec.ofNat_toNat, BitVec.setWidth_eq]

end

/-- Settles O41: a command of the register path acts on the window selected, and the rows are its equations. -/
theorem windowsOpenAndClose : Obligations.WindowsOpenAndClose := by
  intro p s hl q x i v base z n
  have hopen (o : WinFrom) (hw : o.wf = true) (hr : winRefused o opOpen (x.module? q) = false) :
      s.Gives (.windowOpen p o) p (q.submitOpen x o) :=
    State.gives_event (if_neg (by rw [hw]; decide)) hl (if_neg (by rw [hr]; decide))
  have hclose (o : WinFrom) (hw : o.wf = true) (hr : winRefused o opClose (x.module? q) = false) :
      s.Gives (.windowClose p o) p (q.closeWin x o) :=
    State.gives_event (if_neg (by rw [hw]; decide)) hl (if_neg (by rw [hr]; decide))
  refine ⟨hopen, hclose, fun hc hi hb => ?_, fun k w rest hw => ?_⟩
  · have hdo (r : Polder) (st : Status) (h : q.openWin x i base (bitsN z 0 28) (bits z 28 3) = (r, st)) :
        s.Gives (.windowOpen p .regPath) p (r.winCode st) := by
      have hsub : q.submitOpen x .regPath = r.winCode st := by
        rw [q.submitOpen_reg x hc]
        exact congrArg (fun e : Polder × Status => e.1.winCode e.2) h
      exact hsub ▸ hopen .regPath rfl rfl
    have hcl := hclose .regPath rfl rfl
    refine ⟨fun hs => ?_, fun hs ha hz hm ho => ⟨fun hin => ?_, fun hin => ?_⟩, fun hs hne => ?_, fun hs he hcs => ?_⟩
    · exact hdo q _ (q.openWin_busy x hi hb hs)
    · exact hdo q _ ((q.openWin_range x hi hb hs ha hz hm ho).trans (if_neg (by rw [hin]; decide)))
    · exact hdo _ _ ((q.openWin_range x hi hb hs ha hz hm ho).trans (if_pos hin))
    · have heq := (q.closeWin_open x hi hb hs).trans (if_neg fun h => hne (List.isEmpty_iff.mp h))
      exact heq ▸ hcl
    · have heq := (q.closeWin_open x hi hb hs).trans (if_pos (List.isEmpty_iff.mpr he))
      obtain ⟨t, ht, htp⟩ := hcl.pol
      refine ⟨t, ht, ?_⟩
      rw [heq, Polder.endClose_reg _ _ _ (by
        rw [Polder.win_setWin_same, show (q.win i).closers = [] from hcs, List.nil_append])] at htp
      rw [htp]
      refine ⟨?_, Polder.winCode_code _ _⟩
      rw [Polder.sent_win, Polder.winCode_win, Polder.win_setWin_same, Polder.win_setWin_same, ← hcs]
  · refine State.gives_event rfl hl ?_
    dsimp only
    rw [hw]

section
variable (q : Polder) (x : PolCtx) (k : Nat) (o : Origin)

/-- A table that reads and checks becomes the slot's STAGED map (R352). -/
theorem Polder.stageMap_ok {a : W64} {r : Polder} {m : ShardMap} (h : q.readMap x k a o.ctx = (r, .ok m)) :
    q.stageMap x k a o = (r.setMapSlot k { r.mapSlot k with stg := some m }).mapCode k o Status.done := by
  unfold Polder.stageMap
  rw [h]

theorem Polder.stageMap_error {a : W64} {r : Polder} {st : Status} (h : q.readMap x k a o.ctx = (r, .error st)) :
    q.stageMap x k a o = (r.raise FLX2 3).mapCode k o st := by
  unfold Polder.stageMap
  rw [h]

/-- With no commit pending an activation is asked for at once (R353, R443). -/
theorem Polder.submitActivate_now (hc : x.mod.commit = none) : q.submitActivate x k o = q.askActivate k o := by
  unfold Polder.submitActivate
  rw [hc]
  rfl

end

/-- Settles O43: staging goes by the table read, and an activation that may take effect moves the maps of its slot. -/
theorem shardMapsChangeAtBoundaries : Obligations.ShardMapsChangeAtBoundaries := by
  intro p s q
  refine ⟨fun w ha => ?_, fun hl k o ho => ?_⟩
  · have hctx : (Origin.reg w.ctx).ctx = w.ctx := rfl
    refine ⟨fun r m h => ?_, fun r st h => ?_, fun hc hw => ?_, fun hc hw => ?_, fun hp => ?_, fun hp => ?_, ?_⟩
    · exact State.gives_page rfl ha (Polder.stageMap_ok q _ _ (.reg w.ctx) h)
    · exact State.gives_page rfl ha (Polder.stageMap_error q _ _ (.reg w.ctx) h)
    · refine State.gives_page rfl ha ?_
      rw [Polder.submitActivate_now _ _ _ _ (by rw [← hc]; exact State.noted_commit s w)]
      exact if_pos hw
    · refine State.gives_page rfl ha ?_
      rw [Polder.submitActivate_now _ _ _ _ (by rw [← hc]; exact State.noted_commit s w)]
      exact if_neg (by rw [hw]; decide)
    · refine State.gives_page rfl ha ?_
      exact congrArg (fun r : Polder => r.mapCode _ (.reg w.ctx) Status.done) (if_neg (by rw [hp]; decide))
    · refine State.gives_page rfl ha ?_
      exact congrArg (fun r : Polder => r.mapCode _ (.reg w.ctx) Status.done) (if_pos hp)
    · exact State.gives_page rfl ha rfl
  · refine ⟨fun h => ?_, fun h => ?_⟩ <;> refine State.gives_event rfl hl ?_ <;> dsimp only <;> rw [ho]
    · exact if_neg (by rw [h]; decide)
    · exact if_pos h

/-- A pass over distinct places, while something holds of the state, that changes at each only what is held there. -/
theorem foldl_at_of {α γ : Type} {step : α → Nat → α} {get : α → Nat → γ} {f : Nat → γ → γ} {P : α → Prop}
    (hP : ∀ a k, P a → P (step a k))
    (h : ∀ a k j, P a → get (step a k) j = if j = k then f k (get a k) else get a j) (l : List Nat) (hl : l.Nodup) (a : α)
    (ha : P a) (j : Nat) : get (l.foldl step a) j = if j ∈ l then f j (get a j) else get a j := by
  induction l generalizing a with
  | nil => simp
  | cons k l ih =>
    obtain ⟨hk, hl⟩ := List.nodup_cons.mp hl
    rw [List.foldl_cons, ih hl (step a k) (hP a k ha), h a k j ha]
    by_cases hj : j = k
    · subst hj
      simp [hk]
    · simp [hj]

section
variable {p q : Polder} (h : q.unrestored = p.unrestored) (x : PolCtx)
include h

theorem PolCtx.cfg_congr (off idx : Nat) : x.cfg q off idx = x.cfg p off idx := by
  unfold PolCtx.cfg
  rw [h]

theorem PolCtx.module?_congr : x.module? q = x.module? p := by
  unfold PolCtx.module?
  rw [x.cfg_congr h]

theorem PolCtx.listEntry_congr (off i : Nat) : x.listEntry q off i = x.listEntry p off i := by
  unfold PolCtx.listEntry
  rw [x.cfg_congr h]

theorem PolCtx.listed_congr (off : Nat) : x.listed q off = x.listed p off :=
  List.filterMap_congr fun _ _ => x.listEntry_congr h off _

end

/-- A polder apart from what a request of its own requesters touches: registers, ports, and the requests of the FLX. -/
def Polder.apartRequests (p : Polder) : Polder :=
  { p with
    regs := [], ports := []
    flx := { p.flx with reqs := [], used := [], nextTag := 0, sent := [], inbound := [] } }

/-- Only requests, their counters and the queues of the ports change (R316, R331 to R333, R338). -/
def Polder.RequestsOnly (p q : Polder) : Prop :=
  q.apartRequests = p.apartRequests ∧ ∀ off, off < 2 ^ 26 → off < FLX0 ∨ FLX0 + 0x80 ≤ off → q.rd off = p.rd off

namespace Polder.RequestsOnly

variable {p q r : Polder}

theorem refl (p : Polder) : p.RequestsOnly p := ⟨rfl, fun _ _ _ => rfl⟩

theorem trans (h : p.RequestsOnly q) (g : q.RequestsOnly r) : p.RequestsOnly r :=
  ⟨g.1.trans h.1, fun off hb ho => (g.2 off hb ho).trans (h.2 off hb ho)⟩

theorem unrestored (h : p.RequestsOnly q) : q.unrestored = p.unrestored := (congrArg Polder.unrestored h.1 :)
theorem chans (h : p.RequestsOnly q) : q.chans = p.chans := (congrArg Polder.chans h.1 :)
theorem twin (h : p.RequestsOnly q) : q.twin = p.twin := (congrArg Polder.twin h.1 :)
theorem gauge (h : p.RequestsOnly q) : q.gauge = p.gauge := (congrArg Polder.gauge h.1 :)
theorem views (h : p.RequestsOnly q) : q.flx.views = p.flx.views := (congrArg (fun r : Polder => r.flx.views) h.1 :)
theorem hb (h : p.RequestsOnly q) : q.flx.hb = p.flx.hb := (congrArg (fun r : Polder => r.flx.hb) h.1 :)

theorem count {off n place : Nat} (p : Polder) (h1 : FLX0 ≤ off) (h2 : off < FLX0 + 0x80) :
    p.RequestsOnly (p.count off n (place := place)) := by
  refine ⟨rfl, fun a ha ho => ?_⟩
  unfold Polder.count
  rw [Polder.rd_wr, if_neg (by omega)]

theorem raise (p : Polder) (bit : Nat) : p.RequestsOnly (p.raise FLX0 bit) :=
  ⟨rfl, fun _ _ _ => Polder.rd_raise _ (by omega) (by omega)⟩

theorem countSlot {off : Nat} (p : Polder) (slot : Option Nat) (h1 : FLX0 ≤ off) (h2 : off < FLX0 + 0x80) :
    p.RequestsOnly (p.countSlot off slot) := by
  cases slot with
  | none => exact refl p
  | some s => exact count p h1 h2

theorem unroutable (p : Polder) (n : Nat) : p.RequestsOnly (p.unroutable n) := by
  unfold Polder.unroutable
  split
  · exact refl p
  · exact (count p (by decide) (by decide)).trans (raise _ 5)

theorem enqueue (p : Polder) (x : PolCtx) (i : TxItem) : p.RequestsOnly (p.enqueue x i) := by
  unfold Polder.enqueue
  split
  · exact ⟨rfl, fun _ _ _ => rfl⟩
  · exact unroutable p _

theorem admitEgress (p : Polder) (x : PolCtx) (t : Txn) : p.RequestsOnly (p.admitEgress x t).1 := by
  unfold Polder.admitEgress
  dsimp only
  split
  · exact refl p
  split
  · exact (countSlot p _ (by decide) (by decide)).trans (raise _ 8)
  split
  · exact RequestsOnly.trans (q := p.onFlx _) ⟨rfl, fun _ _ _ => rfl⟩ (countSlot _ _ (by decide) (by decide))
  · exact ⟨rfl, fun _ _ _ => rfl⟩

theorem request (p : Polder) (x : PolCtx) (t : Txn) (a : Asker) : p.RequestsOnly (p.request x t a).1 := by
  unfold Polder.request
  dsimp only
  split
  · exact refl p
  split
  · exact refl p
  split
  · exact refl p
  split
  · exact countSlot p _ (by decide) (by decide)
  have hadm : p.RequestsOnly (if gaId t.addr = x.ownId p then (p, some (t.cls, false)) else p.admitEgress x t).1 := by
    split
    · exact refl p
    · exact admitEgress p x t
  split
  case h_1 q hq => rw [hq] at hadm; exact hadm
  case h_2 q cls above hq =>
    rw [hq] at hadm
    refine hadm.trans ?_
    dsimp only
    split
    · exact ⟨rfl, fun _ _ _ => rfl⟩
    · exact RequestsOnly.trans (q := q.onFlx _) ⟨rfl, fun _ _ _ => rfl⟩ (enqueue _ x _)

end Polder.RequestsOnly

/-- What a polder knows of its peers is kept: views, heartbeats, losses counted, and the lists themselves. -/
structure Polder.PeersKept (p q : Polder) : Prop where
  views : q.flx.views = p.flx.views
  hb : q.flx.hb = p.flx.hb
  unrestored : q.unrestored = p.unrestored
  losses : q.rd (FLX0 + 0x84) = p.rd (FLX0 + 0x84)

theorem Polder.RequestsOnly.peers {p q : Polder} (h : p.RequestsOnly q) : p.PeersKept q :=
  ⟨h.views, h.hb, h.unrestored, h.2 _ (by decide) (by decide)⟩

namespace Polder.PeersKept

theorem refl (p : Polder) : p.PeersKept p := ⟨rfl, rfl, rfl, rfl⟩

theorem trans {p q r : Polder} (h : p.PeersKept q) (g : q.PeersKept r) : p.PeersKept r :=
  ⟨g.views.trans h.views, g.hb.trans h.hb, g.unrestored.trans h.unrestored, g.losses.trans h.losses⟩

theorem foldl {α : Type} {f : Polder → α → Polder} (hf : ∀ (q : Polder) (a : α), q.PeersKept (f q a)) (l : List α) (p : Polder) :
    p.PeersKept (l.foldl f p) :=
  List.foldlRecOn (motive := fun q : Polder => p.PeersKept q) l f (refl p) fun q hq a _ => hq.trans (hf q a)

theorem view {p q : Polder} (h : p.PeersKept q) (id : Nat) : q.view id = p.view id := by
  unfold Polder.view
  rw [h.views]

theorem hbStat {p q : Polder} (h : p.PeersKept q) (i : Nat) : q.hbStat i = p.hbStat i := by
  unfold Polder.hbStat
  rw [h.hb]

theorem onTwin (p : Polder) (f : Twin → Twin) : p.PeersKept (p.onTwin f) := ⟨rfl, rfl, rfl, rfl⟩

theorem raise (p : Polder) {page : Nat} (bit : Nat) (h1 : FLX0 + 0x84 ≠ page + 0x14) (h2 : FLX0 + 0x84 ≠ page + 0x20) :
    p.PeersKept (p.raise page bit) := ⟨rfl, rfl, rfl, Polder.rd_raise _ h1 h2⟩

theorem xferAsk (p : Polder) (x : PolCtx) (v : Xfer) (t : Txn) : p.PeersKept (p.xferAsk x v t) := by
  have hr := (RequestsOnly.request p x t .xfer).peers
  unfold Polder.xferAsk
  split
  case h_1 q _ hq => rw [hq] at hr; exact hr.trans (onTwin q _)
  case h_2 q _ hq => rw [hq] at hr; exact hr.trans (onTwin q _)

theorem xferGo (p : Polder) (x : PolCtx) (v : Xfer) : p.PeersKept (p.xferGo x v) := by
  unfold Polder.xferGo
  dsimp only
  split
  · exact onTwin p _
  split
  · exact xferAsk p x _ _
  · exact xferAsk p x _ _

theorem xferDone (p : Polder) (x : PolCtx) (op : Byte) (st : Status) (data : List Byte) :
    p.PeersKept (p.xferDone x op st data) := by
  unfold Polder.xferDone
  split
  · exact refl p
  split
  · exact refl p
  split
  · exact onTwin p _
  split
  · exact xferAsk p x _ _
  · exact xferGo p x _

theorem sendCpl (p : Polder) (x : PolCtx) (t : Txn) : p.PeersKept (p.sendCpl x t) :=
  (RequestsOnly.enqueue p x _).peers.trans ⟨rfl, rfl, rfl, rfl⟩

/-- However a request ends, the peer table is left (R320, R322, R323). -/
theorem finishReq (p : Polder) (x : PolCtx) (r : OutReq) (st : Status) (d : Bool) (data : List Byte) :
    p.PeersKept (p.finishReq x r st d data) := by
  unfold Polder.finishReq
  dsimp only
  refine PeersKept.trans (q := p.onFlx fun g => { g with reqs := g.reqs.filter fun q => q.txn.tag != r.txn.tag })
    ⟨rfl, rfl, rfl, rfl⟩ ?_
  split
  case h_1 e =>
    split
    · refine ⟨rfl, rfl, rfl, ?_⟩
      unfold Polder.count
      exact Polder.rd_wr_ne _ _ (by decide)
    · exact ⟨rfl, rfl, rfl, rfl⟩
  case h_2 ch => exact ⟨rfl, rfl, rfl, rfl⟩
  case h_3 =>
    split
    · exact refl _
    split
    · exact (onTwin _ _).trans (sendCpl _ x _)
    · exact onTwin _ _
  case h_4 => exact xferDone _ x _ _ _
  all_goals exact refl _

theorem abortTo (p : Polder) (x : PolCtx) (id : Nat) : p.PeersKept (p.abortTo x id) :=
  foldl (fun q r => finishReq q x r _ _ _) _ p

theorem pumpPeerLost (p : Polder) (id : Nat) : p.PeersKept (p.pumpPeerLost id) := ⟨rfl, rfl, rfl, rfl⟩

theorem twinLost (p : Polder) (id : Nat) : p.PeersKept (p.twinLost id) := by
  unfold Polder.twinLost
  dsimp only
  split
  · exact (onTwin p _).trans (raise _ 0 (by decide) (by decide))
  · exact refl p

end Polder.PeersKept

theorem Polder.enqueue_flx (p : Polder) (x : PolCtx) (i : TxItem) : (p.enqueue x i).flx = p.flx := by
  unfold Polder.enqueue Polder.unroutable
  split
  · rfl
  · split <;> rfl

/-- What is sent bare is one transaction of its operation, from a polder that has a MODULE (R315, R334). -/
theorem Polder.sendBare_sent (p : Polder) (x : PolCtx) (op : Byte) (md : BitVec 4) (opnd : W64) (data : List Byte)
    (dest : Nat) : p.RequestsOnly (p.sendBare x op md opnd data dest) ∧
      ((x.module? p).isSome = true →
        ∃ t : Txn, (p.sendBare x op md opnd data dest).flx.sent = p.flx.sent ++ [t] ∧ t.op = op) := by
  unfold Polder.sendBare
  dsimp only
  split
  case isTrue hn => exact ⟨.refl p, fun hs => absurd hs (by rw [Option.isNone_iff_eq_none.mp hn]; decide)⟩
  split
  · exact ⟨⟨rfl, fun _ _ _ => rfl⟩, fun _ => ⟨_, rfl, rfl⟩⟩
  · refine ⟨RequestsOnly.trans (q := p.onFlx _) ⟨rfl, fun _ _ _ => rfl⟩ (.enqueue _ x _), fun _ =>
      ⟨_, congrArg Flx.sent (Polder.enqueue_flx _ x _), rfl⟩⟩

/-- To each of a list of peers one transaction goes (R334). -/
theorem Polder.sendBare_all (p : Polder) (x : PolCtx) (op : Byte) (md : Polder → BitVec 4) (opnd : Polder → W64)
    (ds : List Nat) (hm : (x.module? p).isSome = true) :
    ∃ l : List Txn, (ds.foldl (fun q d => q.sendBare x op (md q) (opnd q) [] d) p).flx.sent = p.flx.sent ++ l ∧
      l.length = ds.length ∧ ∀ t ∈ l, t.op = op := by
  induction ds generalizing p with
  | nil => exact ⟨[], (List.append_nil _).symm, rfl, fun _ h => absurd h List.not_mem_nil⟩
  | cons d ds ih =>
    obtain ⟨hro, hone⟩ := p.sendBare_sent x op (md p) (opnd p) [] d
    obtain ⟨t, ht, hop⟩ := hone hm
    obtain ⟨l, hl, hlen, hall⟩ := ih (p.sendBare x op (md p) (opnd p) [] d) (by
      rw [PolCtx.module?_congr hro.unrestored, hm])
    refine ⟨t :: l, ?_, congrArg (· + 1) hlen, fun u hu => ?_⟩
    · rw [List.foldl_cons, hl, ht, List.append_assoc]
      rfl
    · cases hu with
      | head => exact hop
      | tail _ hu => exact hall u hu

theorem Polder.PeersKept.notifyAll (p : Polder) (x : PolCtx) (kind : BitVec 4) (id : Nat) (inc : BitVec 4) :
    p.PeersKept (p.notifyAll x kind id inc) :=
  .foldl (fun q d => (q.sendBare_sent x _ _ _ _ d).1.peers) _ p

theorem Polder.PeersKept.sendHeartbeats (p : Polder) (x : PolCtx) : p.PeersKept (p.sendHeartbeats x) :=
  .foldl (fun q d => (q.sendBare_sent x _ _ _ _ d).1.peers) _ p

theorem Polder.view_setView_same (p : Polder) (id : Nat) (v : PolderView) : (p.setView id v).view id = v := by
  rw [Polder.view_setView, if_pos rfl]

@[simp] theorem Polder.sent_view (p : Polder) (id : Nat) : p.sent.view id = p.view id := rfl

theorem Polder.hbStat_setHbStat (p : Polder) (n k : Nat) (v : HbStat) :
    (p.setHbStat n v).hbStat k = if k = n then v else p.hbStat k := by
  unfold Polder.setHbStat Polder.hbStat
  exact SMap.get_set _ _ _ _ _

/-- The Warden's peers once a polder is declared lost: its mark is set, and nothing else of them (R323, R335). -/
theorem Polder.declareLost_peers (p : Polder) (x : PolCtx) (id : Nat) (inc : BitVec 4) :
    (p.setView id { p.view id with lost := some inc }).PeersKept (p.declareLost x id inc) :=
  ((PeersKept.abortTo _ x id).trans (PeersKept.pumpPeerLost _ id)).trans (PeersKept.twinLost _ id)

theorem Polder.declareLost_lost (p : Polder) (x : PolCtx) (id : Nat) (inc : BitVec 4) :
    ((p.declareLost x id inc).view id).lost = some inc := by
  rw [(p.declareLost_peers x id inc).view, Polder.view_setView_same]

/-- One entry of the heartbeat list ages by 2 µs (R334). -/
def HbStat.aged (v : HbStat) : HbStat := { v with age := BitVec.ofNat 16 (min 0xFFFF (v.age.toNat + 2)) }

/-- The pass of a heartbeat timer over the list (R334). -/
def Polder.ageEntries (q : Polder) (x : PolCtx) : Polder :=
  (List.range 32).foldl (fun q i =>
    if (x.listEntry q hbList i).isNone then q else q.setHbStat i (q.hbStat i).aged) q

section
variable (p : Polder) (x : PolCtx)

theorem Polder.ageEntries_kept : (p.ageEntries x).unrestored = p.unrestored ∧ (p.ageEntries x).flx.sent = p.flx.sent :=
  List.foldlRecOn (motive := fun q : Polder => q.unrestored = p.unrestored ∧ q.flx.sent = p.flx.sent) (List.range 32) _
    ⟨rfl, rfl⟩ fun q hq i _ => by
      split
      · exact hq
      · exact hq

/-- The listed entries age, the others stay (R334). -/
theorem Polder.hbStat_ageEntries {i : Nat} (hi : i < 32) : (p.ageEntries x).hbStat i =
    if (x.listEntry p hbList i).isSome then (p.hbStat i).aged else p.hbStat i := by
  have h := foldl_at_of (P := fun q : Polder => q.unrestored = p.unrestored) (get := Polder.hbStat)
    (step := fun q i => if (x.listEntry q hbList i).isNone then q else q.setHbStat i (q.hbStat i).aged)
    (f := fun k v => if (x.listEntry p hbList k).isSome then v.aged else v)
    (fun q k hq => by split <;> exact hq)
    (fun q k j hq => by
      rw [PolCtx.listEntry_congr hq]
      cases hn : x.listEntry p hbList k with
      | none =>
        by_cases hj : j = k
        · rw [if_pos hj, hj]; rfl
        · rw [if_neg hj]; rfl
      | some d => exact Polder.hbStat_setHbStat _ _ _ _)
    (List.range 32) List.nodup_range p rfl i
  rw [if_pos (List.mem_range.mpr hi)] at h
  exact h

end

section
variable {s : State} {p : Pid} (hl : s.live p 5 = true)
include hl

/-- HEARTBEAT_TIMER (R334). -/
theorem exec_heartbeatTimer : s.Gives (.heartbeatTimer p) p
    (((s.pol p).ageEntries (s.ctxOf p)).sendHeartbeats (s.ctxOf p)) :=
  State.gives_event rfl hl rfl

/-- A heartbeat timer ages the listed entries and sends each a heartbeat (R334). -/
theorem heartbeatTimer_ages : ∃ t, exec (.heartbeatTimer p) s = .next t ∧
    (∀ i < 32, ((t.pol p).hbStat i).age = if ((s.ctxOf p).listEntry (s.pol p) hbList i).isSome then
      BitVec.ofNat 16 (min 0xFFFF (((s.pol p).hbStat i).age.toNat + 2)) else ((s.pol p).hbStat i).age) ∧
    (((s.ctxOf p).module? (s.pol p)).isSome = true → ∃ l, (t.pol p).flx.sent = (s.pol p).flx.sent ++ l ∧
      l.length = ((s.ctxOf p).listed (s.pol p) hbList).length ∧ ∀ m ∈ l, m.op = opHeartbeat) := by
  obtain ⟨t, ht, htp⟩ := (exec_heartbeatTimer hl).pol
  obtain ⟨hu, hsent⟩ := (s.pol p).ageEntries_kept (s.ctxOf p)
  refine ⟨t, ht, fun i hi => ?_, fun hm => ?_⟩
  · have hage : (t.pol p).hbStat i = ((s.pol p).ageEntries (s.ctxOf p)).hbStat i := by
      rw [htp]
      exact (Polder.PeersKept.sendHeartbeats _ (s.ctxOf p)).hbStat i
    rw [hage, Polder.hbStat_ageEntries _ _ hi]
    split <;> rfl
  · obtain ⟨l, hl, hlen, hall⟩ := Polder.sendBare_all ((s.pol p).ageEntries (s.ctxOf p)) (s.ctxOf p) opHeartbeat
      (fun q => q.hbState) (fun q => BitVec.ofNat 64 (bitsN q.twin.step 0 32))
      ((s.ctxOf p).listed ((s.pol p).ageEntries (s.ctxOf p)) hbList) (by rw [PolCtx.module?_congr hu, hm])
    refine ⟨l, ?_, ?_, hall⟩
    · rw [htp, ← hsent]
      exact hl
    · rw [hlen, PolCtx.listed_congr hu]

/-- An entry that is not LOST and hears nothing for too long is lost, once (R334, R335). -/
theorem peerLossTimeout_loses {e : Fin 32} {id : Nat} (he : (s.ctxOf p).listEntry (s.pol p) hbList e.val = some id)
    (hn : ((s.pol p).hbStat e.val).lost = false) : ∃ t, exec (.peerLossTimeout p e) s = .next t ∧
      ((t.pol p).hbStat e.val).lost = true ∧ ((t.pol p).view id).lost = some ((s.pol p).hbStat e.val).inc ∧
      (t.pol p).rd (FLX0 + 0x84) = addField ((s.pol p).rd (FLX0 + 0x84)) 0 32 1 := by
  let v := (s.pol p).hbStat e.val
  let q := (((s.pol p).setHbStat e.val { v with
    lost := true, age := BitVec.ofNat 16 (max 8 v.age.toNat) }).raise FLX0 0).count (FLX0 + 0x84) 1
  let r := q.declareLost (s.ctxOf p) id v.inc
  have hg : s.Gives (.peerLossTimeout p e) p (r.notifyAll (s.ctxOf p) 1 id v.inc) := by
    refine State.gives_event rfl hl ?_
    dsimp only
    rw [he]
    exact if_neg (ne_true_of_eq_false hn)
  have hnot := Polder.PeersKept.notifyAll r (s.ctxOf p) 1 id v.inc
  have hdec := q.declareLost_peers (s.ctxOf p) id v.inc
  have hq : (q.hbStat e.val).lost = true := by
    have : q.hbStat e.val = _ := (Polder.hbStat_setHbStat (s.pol p) e.val e.val _).trans (if_pos rfl)
    rw [this]
  have hcount : q.rd (FLX0 + 0x84) = addField ((s.pol p).rd (FLX0 + 0x84)) 0 32 1 := by
    rw [Polder.rd_count, Polder.rd_raise _ (by omega) (by omega)]
    rfl
  obtain ⟨t, ht, htp⟩ := hg.pol
  refine ⟨t, ht, ?_, ?_, ?_⟩ <;> rw [htp]
  · exact (congrArg HbStat.lost ((hnot.hbStat e.val).trans (hdec.hbStat e.val))).trans hq
  · exact (congrArg PolderView.lost (hnot.view id)).trans (q.declareLost_lost (s.ctxOf p) id v.inc)
  · exact (hnot.losses.trans hdec.losses).trans hcount

/-- A notice of its kind is queued and takes its kind's effect (R335). -/
theorem gives_notice {t : Txn} {i : Instr} {kind : BitVec 4} {f : PolCtx → Polder → Polder}
    (hi : exec i s = s.onNotice p t kind f) (hw : t.wf = true) (ho : t.op = opNotice) (hk : t.mod = kind)
    (hm : ((s.ctxOf p).module? (s.pol p)).isSome = true) :
    s.Gives i p (f (s.ctxOf p) (((s.pol p).takeInbound 8 t).queueNotice t)) := by
  refine State.gives_event (hi.trans (if_neg (by rw [hw]; decide))) hl (if_neg ?_)
  rw [ho, hk, Option.isNone_eq_false_iff.mpr hm]
  simp

end

/-- Settles O42: what a loss or a heartbeat tells others goes out as transactions, which leave the peer table as it is. -/
theorem peersAreWatchedAndTold : Obligations.PeersAreWatchedAndTold := by
  intro p s q x
  refine ⟨fun hl => ⟨heartbeatTimer_ages hl, ?_, ?_, fun e id he hn => peerLossTimeout_loses hl he hn, ?_⟩, fun w ha => ?_⟩
  · intro t hw ho hk hm
    refine State.gives_event (if_neg (by rw [hw]; decide)) hl (if_neg ?_)
    rw [ho, hk, Option.isNone_eq_false_iff.mpr hm]
    decide
  · intro e id he hn
    refine State.gives_event rfl hl ?_
    dsimp only
    rw [he]
    exact if_pos hn
  · intro t hw ho hm r id
    refine ⟨fun hk hv => ?_, fun hk hv => ?_, fun hk => ?_, fun hk => ?_, fun hk => ?_, fun hk => ?_⟩
    · have h := gives_notice hl (show exec (.noticePeerLost p t) s = execNoticePeerLost p t s from rfl)
        hw ho hk hm
      rwa [if_pos hv] at h
    · have h := gives_notice hl (show exec (.noticePeerLost p t) s = execNoticePeerLost p t s from rfl)
        hw ho hk hm
      rw [if_neg hv] at h
      obtain ⟨u, hu, hup⟩ := State.Gives.pol h
      refine ⟨u, hu, ?_⟩
      rw [hup, Polder.sent_view, Polder.declareLost_lost]
    · obtain ⟨u, hu, hup⟩ := (gives_notice hl (show exec (.noticePeerUp p t) s = execNoticePeerUp p t s from rfl)
        hw ho hk hm).pol
      refine ⟨u, hu, ?_⟩
      rw [hup, Polder.sent_view, Polder.view_setView_same]
    · have h := gives_notice hl (show exec (.noticeRouteChange p t) s = execNoticeRouteChange p t s from rfl)
        hw ho hk hm
      exact h
    · have h := gives_notice hl (show exec (.noticeDrain p t) s = execNoticeDrain p t s from rfl)
        hw ho hk hm
      exact h
    · have h := gives_notice hl (show exec (.noticeUser p t) s = execNoticeUser p t s from rfl)
        hw ho hk hm
      exact h
  · exact ⟨State.gives_page rfl ha rfl, State.gives_page rfl ha rfl⟩
end Sys2Proof.Machine

/-! PROOFS. The Twin's mirror and its transfers, the step boundary, and the Gauge. -/

namespace Sys2Proof.Machine

section
variable (p : Polder) (x : PolCtx)

/-- Putting the oldest record on the wire keeps the records and what has been acknowledged (R363). -/
theorem Polder.mirrorKick_twin : ∃ b n, (p.mirrorKick x).twin = { p.twin with onWire := b, txSeq := n } := by
  unfold Polder.mirrorKick
  split
  case h_1 r rest peer hr hp =>
    split
    · exact ⟨_, _, rfl⟩
    · split <;> exact ⟨_, _, rfl⟩
  · exact ⟨_, _, rfl⟩

/-- SEQ of the record made last (R363). -/
def Polder.lastSeq (p : Polder) : W32 :=
  match p.twin.records.getLast? with
  | some r => bits r 32 32
  | none => p.twin.txSeq

/-- A record follows the one made before it (R363). -/
theorem Polder.mirror_twin (type : Nat) (step : W64) (body : List Byte) : ∃ b n,
    (p.mirror x type step body).twin = { p.twin with
      records := p.twin.records ++ [mirrorRecord type (x.ownId p) (nextSeq p.lastSeq) step body]
      onWire := b, txSeq := n } := by
  obtain ⟨b, n, h⟩ := Polder.mirrorKick_twin (p.onTwin fun w => { w with
    records := w.records ++ [mirrorRecord type (x.ownId p) (nextSeq p.lastSeq) step body] }) x
  exact ⟨b, n, h⟩

/-- A record of another incarnation, one that does not belong in the mailbox, and one that does (R320, R363). -/
theorem Polder.receiveRecord_cases (port : Nat) (t : Txn) :
    ((p.takeInbound port t).staleInc t = true →
      p.receiveRecord x port t = (p.takeInbound port t).answer x t Status.incarnationStale false []) ∧
    ((p.takeInbound port t).staleInc t = false → mboxOk port t = false →
      p.receiveRecord x port t = (p.takeInbound port t).answer x t Status.addressInvalid false []) ∧
    ((p.takeInbound port t).staleInc t = false → mboxOk port t = true → ∀ r st,
      (p.takeInbound port t).placeRecord x t = (r, st) → p.receiveRecord x port t = r.answer x t st false []) := by
  unfold Polder.receiveRecord
  refine ⟨fun hs => ?_, fun hs hm => ?_, fun hs hm r st hr => ?_⟩ <;> dsimp only
  · rw [if_pos hs]
  · rw [hs, if_neg (by decide), hm]
    rfl
  · rw [hs, if_neg (by decide), hm, hr]
    rfl

/-- A record that is placed in the ring is the last one received (R363). -/
theorem Polder.placeRecord_done {t : Txn} {r : Polder} (h : p.placeRecord x t = (r, Status.done)) :
    r.twin.rxSeq = bits (wordOf 512 t.data : BitVec 512) 32 32 := by
  unfold Polder.placeRecord at h
  dsimp only at h
  split at h
  · exact absurd (show Status.addressInvalid = Status.done from congrArg Prod.snd h) (by decide)
  split at h
  case isTrue hn => exact absurd (congrArg Prod.snd h) hn
  obtain rfl := congrArg Prod.fst h
  rfl

end

theorem portRequester_eq (port : Nat) : portRequester port = if port = 7 then Requester.twin else Requester.fabric := rfl

section
variable {s : State} {p : Pid} {w : Who}

/-- A posted record is made while the twin is up (R364). -/
theorem exec_twnPost (ha : s.Admits p (TWN + 0x0C) w) (hm : (s.pol p).mirrors = true) :
    s.GivesW w (.twnPost p w) p ((s.pol p).mirror ((s.noted w).ctxOf p) 1 (s.pol p).twin.step
      ((List.range 4).flatMap fun i => bytesOf ((s.pol p).rd (TWN + 0x64 + 4 * i)) 4)) :=
  State.gives_page rfl ha (if_pos hm)

/-- A record that arrives and the map passes (R363, R466). -/
theorem exec_mirrorRecordRx {port : Fin 8} {t : Txn} (hl : s.live p 5 = true) (hw : t.wf = true) (ho : t.op = opWrite)
    (ht : gaTier t.addr = 4) (hd : s.mod.denied (portRequester port.val) .datapath true = false) :
    s.Gives (.mirrorRecordRx p port t) p ((s.pol p).receiveRecord (s.ctxOf p) port.val t) := by
  have hgo : ¬ (!s.live p 5 || decide (t.op ≠ opWrite) || decide (gaTier t.addr ≠ 4)) = true := by
    rw [hl, ho, ht]
    decide
  have hx : exec (.mirrorRecordRx p port t) s = .next (s.onPol p fun x q => q.receiveRecord x port.val t) := by
    refine (if_neg (by rw [hw]; decide)).trans (congrArg Host.Outcome.next ?_)
    exact (if_neg hgo).trans (if_neg (ne_true_of_eq_false hd))
  rw [State.Gives, hx, State.onPol_eq]

/-- A completion of the oldest record (R363). -/
theorem mirrorRecordCompletion_ends (hl : s.live p 5 = true) {r : BitVec 512} {rest : List (BitVec 512)} {st : Status}
    (hr : (s.pol p).twin.records = r :: rest) (hw : (s.pol p).twin.onWire = true) :
    ∃ t, exec (.mirrorRecordCompletion p st) s = .next t ∧
      (st = Status.done → (t.pol p).twin.records = rest ∧ (t.pol p).twin.txAck = bits r 32 32) ∧
      (st ≠ Status.done → (t.pol p).twin.records = r :: rest ∧ (t.pol p).twin.txAck = (s.pol p).twin.txAck) := by
  obtain ⟨t, ht, htp⟩ := (State.gives_event (i := .mirrorRecordCompletion p st) rfl hl rfl).pol
  rw [hr] at htp
  dsimp only at htp
  rw [hw, if_neg (by decide)] at htp
  refine ⟨t, ht, fun hd => ?_, fun hd => ?_⟩
  · rw [if_pos hd] at htp
    obtain ⟨b, n, h⟩ := Polder.mirrorKick_twin ((((s.pol p).onFlx fun g =>
      { g with reqs := g.reqs.filter fun a => a.asker != .mirror }).onTwin fun w => { w with onWire := false }).onTwin
        fun w => { w with records := rest, txAck := bits r 32 32 }) (s.ctxOf p)
    rw [htp]
    exact ⟨congrArg Twin.records h, congrArg Twin.txAck h⟩
  · rw [if_neg hd] at htp
    obtain ⟨b, n, h⟩ := Polder.mirrorKick_twin ((((s.pol p).onFlx fun g =>
      { g with reqs := g.reqs.filter fun a => a.asker != .mirror }).onTwin fun w =>
        { w with onWire := false }).raise TWN 3) (s.ctxOf p)
    rw [htp]
    exact ⟨(congrArg Twin.records h :).trans hr, (congrArg Twin.txAck h :)⟩

/-- A GO of the transfer engine (R372). -/
theorem exec_xfer (ha : s.Admits p (TWN + 0x94) w) (zero : Bool) :
    s.GivesW w (if zero then Instr.xfZero p w else .xfCopy p w) p
      ((s.pol p).xferStart ((s.noted w).ctxOf p) zero w.ctx) := by
  cases zero
  · exact State.gives_page rfl ha rfl
  · exact State.gives_page rfl ha rfl

end

/-- Settles O44: mirroring changes the records only at their ends, and the transfer engine's GO is its equation. -/
theorem twinMirrorsRecordsAndTransfers : Obligations.TwinMirrorsRecordsAndTransfers := by
  refine ⟨fun p s => ⟨fun w ha => ⟨fun hm => ?_, fun hm => ?_⟩, ?_, ?_⟩, fun p s => ⟨fun w ha zero => ?_, ?_⟩⟩
  · exact State.gives_page rfl ha (if_neg (by rw [hm]; decide))
  · obtain ⟨t, ht, htp⟩ := (exec_twnPost ha hm).pol
    obtain ⟨b, n, h⟩ := (s.pol p).mirror_twin ((s.noted w).ctxOf p) 1 (s.pol p).twin.step
      ((List.range 4).flatMap fun i => bytesOf ((s.pol p).rd (TWN + 0x64 + 4 * i)) 4)
    refine ⟨t, ht, ?_⟩
    dsimp only
    rw [htp]
    exact ⟨(congrArg Twin.records h :), (congrArg Twin.step h :)⟩
  · intro hl port t hw ho ht hd x q'
    have hg := exec_mirrorRecordRx hl hw ho ht hd
    obtain ⟨hstale, hother, hmail⟩ := (s.pol p).receiveRecord_cases x port.val t
    refine ⟨fun hs => hstale hs ▸ hg, fun hs hm => hother hs hm ▸ hg, fun hs hm r st hr => ⟨hmail hs hm r st hr ▸ hg, ?_⟩⟩
    rintro rfl
    exact q'.placeRecord_done x hr
  · intro hl r rest st hr
    refine ⟨fun hw => ?_, fun hw => mirrorRecordCompletion_ends hl hr hw⟩
    refine State.gives_event rfl hl ?_
    rw [hr]
    exact if_pos (by rw [hw]; rfl)
  · intro row c r x v
    have hg := exec_xfer ha zero
    refine ⟨fun hx => ?_, fun hx hz ho => ?_, fun hx ho => ?_, fun hx ho hv => ?_⟩
    · have heq : (s.pol p).xferStart x zero w.ctx = s.pol p := if_pos hx
      exact heq ▸ hg
    all_goals
      have hnone : ¬ (s.pol p).twin.xf.isSome = true := by rw [hx]; decide
    · have hcond : (!zero && !x.isOwn r v.src) = true := by
        rw [show x.isOwn r v.src = false from ho, hz]
        rfl
      have heq : (s.pol p).xferStart x zero w.ctx =
          r.onTwin fun t => { t with xf := some { v with code := some Status.addressInvalid } } :=
        (if_neg hnone).trans (if_pos hcond)
      exact heq ▸ hg
    all_goals
      have hown : ¬ (!zero && !x.isOwn r v.src) = true := by
        rcases ho with ho | ho
        · rw [ho, Bool.not_true, Bool.false_and]; decide
        · rw [show x.isOwn r v.src = true from ho, Bool.not_true, Bool.and_false]; decide
      have heq : (s.pol p).xferStart x zero w.ctx = r.xferGo x v := (if_neg hnone).trans (if_neg hown)
    · exact heq ▸ hg
    · have hgo : r.xferGo x v = r.onTwin fun t => { t with xf := some { v with code := some Status.done } } :=
        if_pos (Nat.le_of_eq hv)
      exact (heq.trans hgo) ▸ hg
  · intro hl v st hx hc
    refine State.gives_event rfl hl ?_
    rw [hx]
    exact if_pos hc


/-! ### The step boundary -/

/-- The loss scale and the count of clean steps a boundary leaves (R412). -/
def Polder.lossOutcome (p : Polder) (x : PolCtx) : BitVec 5 × BitVec 16 :=
  if (x.cfg p (GAU + 0x40)).getLsbD 0 then
    let c := x.cfg p (GAU + 0x44)
    match lossDecision p.gauge.outcomes p.gauge.k.toNat p.gauge.clean.toNat (bitsN c 0 5) (bitsN c 8 5) (bitsN c 16 16) with
    | some d => (BitVec.ofNat 5 d.1, BitVec.ofNat 16 d.2.1)
    | none => (p.gauge.k, p.gauge.clean)
  else (p.gauge.k, p.gauge.clean)

/-- Journalling and the tensor scales leave the loss scale, the outcomes, the Twin and the grid. -/
structure Polder.LossKept (p q : Polder) : Prop where
  twin : q.twin = p.twin
  grid : q.grid = p.grid
  outcomes : q.gauge.outcomes = p.gauge.outcomes
  loss : (q.gauge.k, q.gauge.clean) = (p.gauge.k, p.gauge.clean)

namespace Polder.LossKept

theorem refl (p : Polder) : p.LossKept p := ⟨rfl, rfl, rfl, rfl⟩

theorem trans {p q r : Polder} (h : p.LossKept q) (g : q.LossKept r) : p.LossKept r :=
  ⟨g.twin.trans h.twin, g.grid.trans h.grid, g.outcomes.trans h.outcomes, g.loss.trans h.loss⟩

theorem post (p : Polder) (x : PolCtx) (policy action subject : Nat) (detail : W64) :
    p.LossKept (p.post x policy action subject detail) := by
  unfold Polder.post
  dsimp only
  split <;> exact ⟨rfl, rfl, rfl, rfl⟩

theorem scaleStep (p : Polder) (x : PolCtx) : p.LossKept (p.scaleStep x) := by
  unfold Polder.scaleStep
  refine List.foldlRecOn (motive := fun q : Polder => p.LossKept q) _ _ (refl p) fun q hq e _ => hq.trans ?_
  dsimp only
  split
  · exact ⟨rfl, rfl, rfl, rfl⟩
  split
  · exact LossKept.trans (q := (q.onGauge _).raise GAU 2) ⟨rfl, rfl, rfl, rfl⟩ (post _ x _ _ _ _)
  · exact ⟨rfl, rfl, rfl, rfl⟩

end Polder.LossKept

section
variable (p : Polder) (x : PolCtx)

/-- The loss scale at a step boundary (R412): the outcomes are judged and gone. -/
theorem Polder.lossStep_spec : (p.lossStep x).twin = p.twin ∧ (p.lossStep x).grid = p.grid ∧
    (p.lossStep x).gauge.outcomes = [] ∧
    ((p.lossStep x).gauge.k, (p.lossStep x).gauge.clean) = p.lossOutcome x := by
  have hcfg (off : Nat) : x.cfg (p.onGauge fun g => { g with outcomes := [] }) off = x.cfg p off := rfl
  have hk : (p.onGauge fun g => { g with outcomes := [] }).gauge.k = p.gauge.k := rfl
  have hc : (p.onGauge fun g => { g with outcomes := [] }).gauge.clean = p.gauge.clean := rfl
  unfold Polder.lossStep Polder.lossOutcome
  dsimp only
  rw [hcfg, hcfg, hk, hc]
  cases hen : (x.cfg p (GAU + 0x40)).getLsbD 0 with
  | false => exact ⟨rfl, rfl, rfl, rfl⟩
  | true =>
    rw [if_neg (by decide), if_pos rfl]
    cases hd : lossDecision p.gauge.outcomes p.gauge.k.toNat p.gauge.clean.toNat (bitsN (x.cfg p (GAU + 0x44)) 0 5)
        (bitsN (x.cfg p (GAU + 0x44)) 8 5) (bitsN (x.cfg p (GAU + 0x44)) 16 16) with
    | none => exact ⟨rfl, rfl, rfl, rfl⟩
    | some d =>
      obtain ⟨k', clean, act, ran⟩ := d
      let r := (p.onGauge fun g => { g with outcomes := [] }).onGauge fun g =>
        { g with k := BitVec.ofNat 5 k', clean := BitVec.ofNat 16 clean }
      let r' := if k' = p.gauge.k.toNat then r else (r.raise GAU 0).count (GAU + 0xA0) 1 24 8
      have hr : r.LossKept r' := by
        show r.LossKept (if k' = p.gauge.k.toNat then r else _)
        split
        · exact .refl r
        · exact ⟨rfl, rfl, rfl, rfl⟩
      have hq : r.LossKept (if act = 0 then r' else r'.post x 1 act 0
          (BitVec.ofNat 64 (p.gauge.k.toNat + 256 * k' + 65536 * (ran % 65536)))) := by
        split
        · exact hr
        · exact hr.trans (.post r' x _ _ _ _)
      exact ⟨hq.twin, hq.grid, hq.outcomes, hq.loss⟩

/-- The Gauge's decisions at a step boundary (R411). -/
theorem Polder.gaugeStep_spec : (p.gaugeStep x).twin = p.twin ∧ (p.gaugeStep x).grid = p.grid ∧
    (p.gaugeStep x).gauge.outcomes = [] ∧
    ((p.gaugeStep x).gauge.k, (p.gaugeStep x).gauge.clean) = p.lossOutcome x := by
  obtain ⟨ht, hg, ho, hk⟩ := p.lossStep_spec x
  have hs := Polder.LossKept.scaleStep (p.lossStep x) x
  exact ⟨hs.twin.trans ht, hs.grid.trans hg, hs.outcomes.trans ho, hs.loss.trans hk⟩

end

/-- Mirroring changes of the grid, the Gauge and the Twin only the records and what is on the wire (R363). -/
structure Polder.MirrorsOnly (p q : Polder) : Prop where
  grid : q.grid = p.grid
  gauge : q.gauge = p.gauge
  twin : q.twin = { p.twin with records := q.twin.records, onWire := q.twin.onWire, txSeq := q.twin.txSeq }

namespace Polder.MirrorsOnly

theorem refl (p : Polder) : p.MirrorsOnly p := ⟨rfl, rfl, rfl⟩

theorem trans {p q r : Polder} (h : p.MirrorsOnly q) (g : q.MirrorsOnly r) : p.MirrorsOnly r :=
  ⟨g.grid.trans h.grid, g.gauge.trans h.gauge, g.twin.trans (by rw [h.twin])⟩

theorem mirrorKick (p : Polder) (x : PolCtx) : p.MirrorsOnly (p.mirrorKick x) := by
  unfold Polder.mirrorKick
  split
  case h_1 r rest peer hr hp =>
    split
    · exact refl p
    · split <;> exact ⟨rfl, rfl, rfl⟩
  · exact refl p

theorem mirror (p : Polder) (x : PolCtx) (type : Nat) (step : W64) (body : List Byte) :
    p.MirrorsOnly (p.mirror x type step body) :=
  MirrorsOnly.trans (q := p.onTwin fun w => { w with
    records := w.records ++ [mirrorRecord type (x.ownId p) (nextSeq p.lastSeq) step body] })
    ⟨rfl, rfl, rfl⟩ (mirrorKick _ x)

theorem mirrorImage (x : PolCtx) (step : W64) (n : Nat) :
    ∀ (a : Nat) (bs : List Byte) (p : Polder), p.MirrorsOnly (Polder.mirrorImage x step n a bs p) := by
  induction n with
  | zero => exact fun _ _ p => refl p
  | succ n ih =>
    intro a bs p
    unfold Polder.mirrorImage
    split
    · exact refl p
    · exact (mirror p x _ _ _).trans (ih _ _ _)

end Polder.MirrorsOnly

/-- What a step boundary leaves (R84, R91, R365, R411). -/
theorem Polder.stepBoundary_spec (p : Polder) (x : PolCtx) : let r := p.stepBoundary x
    r.twin.step = p.twin.step + 1 ∧ r.twin.stepWait = false ∧ r.twin.rejects = 0 ∧ r.twin.silent = false ∧
    r.gauge.outcomes = [] ∧ r.grid = p.grid.rngStepBoundary ((p.rd (GRD + 0x114)).getLsbD 0) ∧
    (r.gauge.k, r.gauge.clean) = p.lossOutcome x ∧ (p.mirrors = false → r.twin.records = p.twin.records) := by
  let a := (p.onTwin fun w => { w with step := p.twin.step + 1, stepWait := false }).onGrid fun g =>
    g.rngStepBoundary ((p.rd (GRD + 0x114)).getLsbD 0)
  obtain ⟨ht, hg, ho, hk⟩ := a.gaugeStep_spec x
  let b := (a.gaugeStep x).mirror x 2 p.twin.step (a.gaugeStep x).stepBody
  let c := if p.mirrors then
    Polder.mirrorImage x p.twin.step ((b.gaugeImage x).length + 1) 0 (b.gaugeImage x) b else a.gaugeStep x
  have hm : (a.gaugeStep x).MirrorsOnly c := by
    show Polder.MirrorsOnly _ (if p.mirrors then _ else _)
    split
    · exact (Polder.MirrorsOnly.mirror _ x _ _ _).trans (.mirrorImage x _ _ _ _ _)
    · exact .refl _
  have hr : p.stepBoundary x = c.onTwin fun w => { w with rejects := 0, closes := [], silent := false } := rfl
  have htwin := hm.twin
  rw [ht] at htwin
  dsimp only
  rw [hr]
  refine ⟨(congrArg Twin.step htwin :), (congrArg Twin.stepWait htwin :), rfl, rfl, ?_, hm.grid.trans hg, ?_, fun hn => ?_⟩
  · exact (congrArg Gauge.outcomes hm.gauge :).trans ho
  · exact (congrArg (fun g : Gauge => (g.k, g.clean)) hm.gauge :).trans hk
  · have hc : c = a.gaugeStep x := if_neg (ne_true_of_eq_false hn)
    exact ((congrArg (fun q : Polder => q.twin.records) hc :).trans (congrArg Twin.records ht :) :)

/-- The random step at a boundary with no register write held (R91). -/
theorem Grid.rngStepBoundary_spec (g : Grid) (auto : Bool) : (g.rngStepBoundary auto).rngHeld = [] ∧
    (g.rngHeld = [] → (g.rngStepBoundary auto).rngStep = if auto then g.rngStep + 1 else g.rngStep) := by
  refine ⟨rfl, fun h => ?_⟩
  unfold Grid.rngStepBoundary
  dsimp only
  rw [h]
  cases auto <;> rfl

section
variable {outs : List Outcome'} {k clean lo hi n : Nat}

/-- A counted outcome at the current scale that is not finite lowers it (R412). -/
theorem lossDecision_down (h : ∃ o ∈ outs, o.nonfinite = true ∧ o.k.toNat = k) :
    lossDecision outs k clean lo hi n = some (max (k - 1) lo, 0, if k ≤ lo then 3 else 1, clean) := by
  refine if_pos (List.any_eq_true.mpr ?_)
  obtain ⟨o, ho, hn, hk⟩ := h
  exact ⟨o, ho, by rw [hn, hk]; exact beq_self_eq_true k⟩

theorem not_down_of_finite (h : ∀ o ∈ outs, o.nonfinite = false) :
    ¬ (outs.any fun o => o.nonfinite && o.k.toNat == k) = true := by
  rw [List.any_eq_true]
  rintro ⟨o, ho, hn⟩
  rw [h o ho, Bool.false_and] at hn
  exact absurd hn (by decide)

/-- Finite outcomes with a step that was taken make a clean step (R412). -/
theorem lossDecision_clean (h : ∀ o ∈ outs, o.nonfinite = false) (hs : ∃ o ∈ outs, o.skipStep = false) :
    lossDecision outs k clean lo hi n = if clean + 1 < n then some (k, clean + 1, 0, clean + 1)
      else some (min (k + 1) hi, 0, if hi ≤ k then 3 else 2, clean + 1) := by
  refine (if_neg (not_down_of_finite h)).trans (if_pos ?_)
  obtain ⟨o, ho, hn⟩ := hs
  have hfin : outs.any (·.nonfinite) = false := List.any_eq_false.mpr fun a ha => by rw [h a ha]; decide
  have htaken : outs.any (fun o => !o.skipStep) = true := List.any_eq_true.mpr ⟨o, ho, by rw [hn]; rfl⟩
  rw [hfin, htaken]
  rfl

/-- With no step taken nothing is decided (R412). -/
theorem lossDecision_none (h : ∀ o ∈ outs, o.nonfinite = false ∧ o.skipStep = true) :
    lossDecision outs k clean lo hi n = none := by
  refine (if_neg (not_down_of_finite fun o ho => (h o ho).1)).trans (if_neg ?_)
  have hskip : outs.any (fun o => !o.skipStep) = false :=
    List.any_eq_false.mpr fun a ha => by rw [(h a ha).2]; decide
  rw [hskip, Bool.and_false]
  decide

/-- The scale moves by at most one and stays within its bounds (R412). -/
theorem lossDecision_bounds (hlo : lo ≤ k) (hhi : k ≤ hi) {d : Nat × Nat × Nat × Nat}
    (h : lossDecision outs k clean lo hi n = some d) :
    lo ≤ d.1 ∧ d.1 ≤ hi ∧ (d.1 = k ∨ d.1 + 1 = k ∨ d.1 = k + 1) := by
  unfold lossDecision at h
  split at h
  · obtain rfl := Option.some.inj h
    dsimp only
    omega
  split at h
  · split at h <;> obtain rfl := Option.some.inj h <;> dsimp only <;> omega
  · cases h

end

/-- Settles O45: the boundary's parts are the Gauge's decision, the mirror's records and the random step, each of which
leaves the others; the decision of the loss scale is its three cases. -/
theorem stepBoundariesAdvanceTheStep : Obligations.StepBoundariesAdvanceTheStep := by
  refine ⟨fun p s => ⟨fun w ha => State.gives_page rfl ha rfl, fun hl => ⟨fun h => ?_, fun hw hr => ?_, ?_⟩⟩,
    fun outs k clean lo hi n hlo hhi => ⟨fun h => ?_, fun h hs => ?_, lossDecision_none, ?_⟩⟩
  · refine State.gives_event rfl hl (if_neg ?_)
    rcases h with h | h <;> rw [h, Bool.and_eq_true]
    · exact fun hc => absurd hc.1 (by decide)
    · exact fun hc => absurd hc.2 (by decide)
  · have hg : s.Gives (.stepBoundary p) p ((s.pol p).stepBoundary (s.ctxOf p)) :=
      State.gives_event rfl hl (if_pos (by rw [hw, hr]; rfl))
    obtain ⟨t, ht, htp⟩ := hg.pol
    obtain ⟨hstep, hwait, hrej, hsil, hout, hgrid, hloss, hrec⟩ := (s.pol p).stepBoundary_spec (s.ctxOf p)
    obtain ⟨hheld, hrng⟩ := (s.pol p).grid.rngStepBoundary_spec (((s.pol p).rd (GRD + 0x114)).getLsbD 0)
    refine ⟨t, ht, ?_⟩
    dsimp only
    rw [htp]
    refine ⟨hstep, hwait, hrej, hsil, hout, ?_, fun hn => ?_, hloss, hrec⟩
    · exact (congrArg Grid.rngHeld hgrid :).trans hheld
    · exact (congrArg Grid.rngStep hgrid :).trans (hrng hn)
  · exact State.gives_event rfl hl rfl
  · exact ⟨_, _, lossDecision_down h⟩
  · refine ⟨fun hc => (lossDecision_clean h hs).trans (if_pos hc), fun hc => ⟨_, _, (lossDecision_clean h hs).trans
      (if_neg (Nat.not_lt.mpr hc))⟩⟩
  · exact fun d hd => lossDecision_bounds hlo hhi hd
end Sys2Proof.Machine

/-! PROOFS. The Pumps: what memory and the fabric leave of their channels, arming, closing, the sums and the update
pass. -/

namespace Sys2Proof.Machine

/-- The Pump channels and the Gauge are left. -/
structure Polder.Steady (p q : Polder) : Prop where
  chans : q.chans = p.chans
  gauge : q.gauge = p.gauge

theorem Polder.RequestsOnly.steady {p q : Polder} (h : p.RequestsOnly q) : p.Steady q := ⟨h.chans, h.gauge⟩

namespace Polder.Steady

theorem refl (p : Polder) : p.Steady p := ⟨rfl, rfl⟩

theorem trans {p q r : Polder} (h : p.Steady q) (g : q.Steady r) : p.Steady r :=
  ⟨g.chans.trans h.chans, g.gauge.trans h.gauge⟩

theorem foldl {α : Type} {f : Polder → α → Polder} (hf : ∀ (q : Polder) (a : α), q.Steady (f q a)) (l : List α)
    (p : Polder) : p.Steady (l.foldl f p) :=
  List.foldlRecOn (motive := fun q : Polder => p.Steady q) l f (refl p) fun q hq a _ => hq.trans (hf q a)

theorem chan {p q : Polder} (h : p.Steady q) (n : Nat) : q.chan n = p.chan n := by
  unfold Polder.chan
  rw [h.chans]

theorem onMem (p : Polder) (f : Mem → Mem) : p.Steady (p.onMem f) := ⟨rfl, rfl⟩
theorem raise (p : Polder) (page bit : Nat) : p.Steady (p.raise page bit) := ⟨rfl, rfl⟩
theorem count (p : Polder) (off n lo width place : Nat) : p.Steady (p.count off n lo width place) := ⟨rfl, rfl⟩
theorem wr (p : Polder) (off : Nat) (v : W32) (place : Nat) : p.Steady (p.wr off v place) := ⟨rfl, rfl⟩
theorem recordErr (p : Polder) (page : Nat) (code : Status) (ev kind src : Nat) (addr : W64) :
    p.Steady (p.recordErr page code ev kind src addr) :=
  ⟨p.recordErr_chans page code ev kind src addr, p.recordErr_gauge page code ev kind src addr⟩

/-! Reads of memory count and record its errors, and touch frames (R236, R247). -/

theorem logRow (p : Polder) (o : Nat) (hard : Bool) : p.Steady (p.logRow o hard) := by
  unfold Polder.logRow
  dsimp only
  split
  · exact refl p
  split
  · exact refl p
  · exact onMem p _

theorem noteCe (p : Polder) (t o : Nat) : p.Steady (p.noteCe t o) := by
  unfold Polder.noteCe
  dsimp only
  split
  · split
    · exact Steady.trans (q := ((p.count _ 1).raise _ 1).onMem _) ⟨rfl, rfl⟩ (logRow _ o false)
    · exact ⟨rfl, rfl⟩
  · exact ⟨rfl, rfl⟩

theorem noteUe (p : Polder) (x : PolCtx) (t o kind src : Nat) : p.Steady (p.noteUe x t o kind src) := by
  have h (pg : Nat) (a : W64) :
      p.Steady (((p.count (pg + 0x54) 1).raise pg 2).recordErr pg Status.dataUncorrectable 2 kind src a) :=
    ((count p _ _ _ _ _).trans (raise _ _ _)).trans (recordErr _ _ _ _ _ _ _)
  unfold Polder.noteUe
  dsimp only
  split
  · exact (h _ _).trans (logRow _ o true)
  · exact h _ _

theorem readBurst (p : Polder) (x : PolCtx) (by_ : MemBy) (t b : Nat) : p.Steady (p.readBurst x by_ t b).1 := by
  unfold Polder.readBurst
  split
  · exact refl p
  · dsimp only
    split
    · exact (onMem p _).trans (noteCe _ t _)
    · exact (onMem p _).trans (noteUe _ x t _ _ _)
    · exact noteUe p x t _ _ _

theorem readBursts (x : PolCtx) (by_ : MemBy) (t : Nat) (l : List Nat) :
    ∀ (p : Polder) (n : Nat), p.Steady (Polder.readBursts x by_ t l p n).1 := by
  induction l with
  | nil => exact fun p _ => refl p
  | cons b l ih =>
    intro p n
    unfold Polder.readBursts
    dsimp only
    split
    · exact (readBurst p x by_ t b).trans (ih _ _)
    · exact readBurst p x by_ t b

theorem readPiece (p : Polder) (x : PolCtx) (by_ : MemBy) (t o len : Nat) : p.Steady (p.readPiece x by_ t o len).1 := by
  have h (bm : Bool) (a b : Polder × Nat × Option (List Byte)) (ha : a.1 = p) (hb : p.Steady b.1) :
      p.Steady (if bm && !p.mem.valid t (o / granule) then a else b).1 := by
    split
    · rw [ha]; exact refl p
    · exact hb
  exact h _ _ _ rfl (readBursts x by_ _ _ p 0)

theorem readPieces (x : PolCtx) (by_ : MemBy) (t : Nat) (l : List (Nat × Nat)) :
    ∀ (p : Polder) (n : Nat) (acc : List Byte), p.Steady (Polder.readPieces x by_ t l p n acc).1 := by
  induction l with
  | nil => exact fun p _ _ => refl p
  | cons q l ih =>
    intro p n acc
    unfold Polder.readPieces
    dsimp only
    split
    · exact readPiece p x by_ t _ _
    · exact (readPiece p x by_ t _ _).trans (ih _ _ _)

theorem touch (p : Polder) (t o : Nat) : p.Steady (p.touch t o) := by
  unfold Polder.touch
  split
  · exact onMem p _
  · exact refl p

theorem fetchData (p : Polder) (x : PolCtx) (by_ : MemBy) (t o len : Nat) : p.Steady (p.fetchData x by_ t o len).p := by
  have h := (touch p t o).trans (readPieces x by_ t (granules o len) (p.touch t o) 0 [])
  unfold Polder.fetchData
  dsimp only
  split <;> exact h

theorem pumpRead (p : Polder) (x : PolCtx) (a : W64) (n : Nat) : p.Steady (p.pumpRead x a n).p := by
  unfold Polder.pumpRead
  split
  · exact refl p
  split
  · exact fetchData p x _ _ _ _
  · exact refl p

/-! Writes of memory land bytes and end page copies (R242, R247). -/

theorem landHome (p : Polder) (t o : Nat) (bs : List (Option Byte)) : p.Steady (p.landHome t o bs) := by
  unfold Polder.landHome
  split <;> exact ⟨rfl, rfl⟩

theorem landAt (p : Polder) (t o : Nat) (bs : List (Option Byte)) : p.Steady (p.landAt t o bs) := by
  unfold Polder.landAt
  split
  · exact landHome p t o bs
  split
  · exact onMem p _
  · exact landHome p t o bs
  · exact onMem p _

theorem writePiece (p : Polder) (x : PolCtx) (t o : Nat) (bs : List (Option Byte)) :
    p.Steady (p.writePiece x t o bs) := by
  have h (bm : Bool) (q : Polder) (part full : List (Option Byte)) (off g : Nat) : q.Steady
      (if !part.any Option.isSome then q
      else if bm && !q.mem.valid t g then
        if part.length = granule && part.all Option.isSome then (q.onMem fun m => m.setValid t g true).landAt t o part
        else ((q.onMem fun m => m.setValid t g true).count off 1).landAt t (g * granule) full
      else q.landAt t o part) := by
    split
    · exact refl q
    split
    · split
      · exact (onMem q _).trans (landAt _ t o part)
      · exact ((onMem q _).trans (count _ _ _ _ _ _)).trans (landAt _ t _ full)
    · exact landAt q t o part
  exact Steady.trans (q := p.scrub (p.mem.locate t o).1 (p.mem.locate t o).2 bs.length) ⟨rfl, rfl⟩ (h _ _ _ _ _ _)

theorem finishCopy (p : Polder) (f : SpillFrame) : p.Steady (p.finishCopy f) := by
  unfold Polder.finishCopy
  split
  · split
    · exact (onMem p _).trans (onMem _ _)
    split
    · exact onMem p _
    · exact refl p
  · exact ((foldl (fun q g => landHome q _ _ _) f.dirty p).trans (count _ _ _ _ _ _)).trans (onMem _ _)
  · exact refl p

theorem awaitPage (p : Polder) (t o : Nat) : p.Steady (p.awaitPage t o).1 := by
  unfold Polder.awaitPage
  split
  · exact refl p
  split
  · exact refl p
  · exact finishCopy p _

theorem putMem (p : Polder) (x : PolCtx) (t o : Nat) (bs : List Byte) : p.Steady (p.putMem x t o bs) :=
  ((awaitPage p t o).trans (touch _ t o)).trans (foldl (fun q _ => writePiece q x t _ _) _ _)

theorem normSend (p : Polder) (x : PolCtx) (ch : Fin 4) (t : Txn) : p.Steady (p.normSend x ch t) :=
  (RequestsOnly.request p x t _).steady

theorem countOf (p : Polder) (x : PolCtx) (t : UpdTable) (b : Nat) : p.Steady (p.countOf x t b).1 := pumpRead p x _ _
theorem setCount (p : Polder) (x : PolCtx) (t : UpdTable) (b n : Nat) : p.Steady (p.setCount x t b n) := putMem p x _ _ _
theorem blockOf (p : Polder) (x : PolCtx) (t : UpdTable) (b : Nat) : p.Steady (p.blockOf x t b).1 := pumpRead p x _ _
theorem clearCounts (p : Polder) (x : PolCtx) (t : UpdTable) : p.Steady (p.clearCounts x t) := putMem p x _ _ _

theorem landBlock (p : Polder) (x : PolCtx) (t : UpdTable) (b e n : Nat) (vals : List W32) :
    p.Steady (p.landBlock x t b e n vals).1 := by
  unfold Polder.landBlock
  have hc := countOf p x t b
  split
  case h_1 q _ hq => rw [hq] at hc; exact hc
  case h_2 q c hq =>
    rw [hq] at hc
    have hb : q.Steady (if c = 0 then (q, Except.ok []) else q.blockOf x t b).1 := by
      split
      · exact refl q
      · exact blockOf q x t b
    split
    case h_1 r _ hr => rw [hr] at hb; exact hc.trans hb
    case h_2 r _ hr =>
      rw [hr] at hb
      exact ((hc.trans hb).trans (putMem _ x _ _ _)).trans (setCount _ x t _ _)

end Polder.Steady


/-- A channel apart from what a failed read or request of its update and its snapshot leave in it. -/
def Chan.calm (v : Chan) : Chan := { v with err := 0, bad := 0, snap := .none, snapAt := 0 }

/-- The Gauge and the other channels are left, and of its own channel all but what failures and the snapshot touch. -/
structure Polder.PumpKept (ch : Nat) (p q : Polder) : Prop where
  own : (q.chan ch).calm = (p.chan ch).calm
  others : ∀ n, n ≠ ch → q.chan n = p.chan n
  gauge : q.gauge = p.gauge

theorem Polder.chan_setChan_same (p : Polder) (n : Nat) (v : Chan) : (p.setChan n v).chan n = v := by
  rw [Polder.chan_setChan, if_pos rfl]

theorem Polder.chan_setChan_ne (p : Polder) {n k : Nat} (v : Chan) (h : k ≠ n) : (p.setChan n v).chan k = p.chan k := by
  rw [Polder.chan_setChan, if_neg h]

theorem Polder.Steady.pump {p q : Polder} (h : p.Steady q) (ch : Nat) : p.PumpKept ch q :=
  ⟨by rw [h.chan], fun n _ => h.chan n, h.gauge⟩

theorem Chan.calm_replied (v : Chan) (st : Status) : (v.replied st).calm = v.calm := by
  unfold Chan.replied
  split <;> rfl

namespace Polder.PumpKept

variable {ch : Nat}

theorem refl (p : Polder) : p.PumpKept ch p := ⟨rfl, fun _ _ => rfl, rfl⟩

theorem trans {p q r : Polder} (h : p.PumpKept ch q) (g : q.PumpKept ch r) : p.PumpKept ch r :=
  ⟨g.own.trans h.own, fun n hn => (g.others n hn).trans (h.others n hn), g.gauge.trans h.gauge⟩

theorem foldl {α : Type} {f : Polder → α → Polder} (hf : ∀ (q : Polder) (a : α), q.PumpKept ch (f q a)) (l : List α)
    (p : Polder) : p.PumpKept ch (l.foldl f p) :=
  List.foldlRecOn (motive := fun q : Polder => p.PumpKept ch q) l f (refl p) fun q hq a _ => hq.trans (hf q a)

theorem setChan (p : Polder) {v : Chan} (h : v.calm = (p.chan ch).calm) : p.PumpKept ch (p.setChan ch v) :=
  ⟨by rw [Polder.chan_setChan_same, h], fun _ hn => Polder.chan_setChan_ne p v hn, rfl⟩

theorem failed (p : Polder) (e : W32) (st : Status) :
    p.PumpKept ch (p.setChan ch { p.chan ch with err := e, bad := st }) := setChan p rfl

theorem snapped (p : Polder) (st : SnapSt) (n : Nat) :
    p.PumpKept ch (p.setChan ch { p.chan ch with snap := st, snapAt := n }) := setChan p rfl

theorem pumpSend (p : Polder) (x : PolCtx) (ch : Fin 4) (t : Txn) : p.PumpKept ch.val (p.pumpSend x ch t) := by
  have h := (RequestsOnly.request p x t (.pump ch)).steady.pump ch.val
  unfold Polder.pumpSend
  split
  case h_1 q _ hq => rw [hq] at h; exact h
  case h_2 q st hq => rw [hq] at h; exact h.trans (setChan q (Chan.calm_replied _ st))

theorem pumpUe (p : Polder) (shard blk : Nat) (a : W64) (st : Status) : p.PumpKept ch (p.pumpUe ch shard blk a st) := by
  refine (failed p (fld 0 (shard % 65536) ||| fld 16 (blk % 65536))
    (if (p.chan ch).bad = Status.done then st else (p.chan ch).bad)).trans (Steady.pump (Steady.trans ?_ (Steady.recordErr _ _ _ _ _ _ _)) ch)
  exact (Steady.count _ _ _ _ _ _).trans (Steady.raise _ _ _)

theorem setStream (p : Polder) (k : Nat) (v : Stream) : p.PumpKept ch (p.setStream k v) := ⟨rfl, fun _ _ => rfl, rfl⟩

/-! The hand-off channels and the snapshot of an update (R172, R277, R279, R458). -/

theorem startHand (p : Polder) (x : PolCtx) (ch : Fin 4) (t : UpdTable) : p.PumpKept ch.val (p.startHand x ch t) :=
  PumpKept.trans (q := (p.wr (GRD + 0x148 + 8 * ch.val) t.seq).wr (GRD + 0x148 + 8 * ch.val + 4) 0)
    ⟨rfl, fun _ _ => rfl, rfl⟩ (foldl (fun q _ => (pumpSend q x ch _).trans (pumpSend _ x ch _)) t.hlist _)

/-- Announcing every chunk leaves the channel with them announced. -/
theorem allHand (p : Polder) (x : PolCtx) (ch : Fin 4) (t : UpdTable) :
    (p.setChan ch.val { p.chan ch.val with chunks := t.nchunk }).PumpKept ch.val (p.allHand x ch t) :=
  PumpKept.trans (q := (p.wr (GRD + 0x14C + 8 * ch.val) (BitVec.ofNat 32 t.nchunk)).setChan ch.val
      { p.chan ch.val with chunks := t.nchunk }) ⟨rfl, fun _ _ => rfl, rfl⟩
    (foldl (fun q _ => pumpSend q x ch _) t.hlist _)

/-- Announcing the next chunk leaves the channel with it announced. -/
theorem stepHand (p : Polder) (x : PolCtx) (ch : Fin 4) (t : UpdTable) :
    (p.setChan ch.val { p.chan ch.val with chunks := (p.chan ch.val).chunks + 1 }).PumpKept ch.val (p.stepHand x ch t) :=
  PumpKept.trans (q := (p.wr (GRD + 0x14C + 8 * ch.val) (BitVec.ofNat 32 ((p.chan ch.val).chunks + 1))).setChan ch.val
      { p.chan ch.val with chunks := (p.chan ch.val).chunks + 1 }) ⟨rfl, fun _ _ => rfl, rfl⟩
    (foldl (fun q _ => pumpSend q x ch _) t.hlist _)

theorem handHighs (x : PolCtx) (t : UpdTable) (l : List (Nat × Shard)) :
    ∀ (at_ : Nat) (p : Polder) (o room : Nat) (acc : List Byte),
      p.PumpKept ch (Polder.handHighs x ch t l at_ p o room acc).1 := by
  induction l with
  | nil => exact fun _ p _ _ _ => refl p
  | cons e l ih =>
    intro at_ p o room acc
    obtain ⟨i, s⟩ := e
    unfold Polder.handHighs
    dsimp only
    split
    · exact refl p
    split
    · exact ih _ _ _ _ _
    · refine PumpKept.trans ?_ (ih _ _ _ _ _)
      have hr := (Steady.pumpRead p x (s.high + BitVec.ofNat 64 (o - at_)) (min room (2 * s.count - (o - at_)))).pump ch
      split
      · exact hr
      · exact hr.trans (pumpUe _ _ _ _ _)

theorem handOver (p : Polder) (x : PolCtx) (t : UpdTable) : p.PumpKept ch (p.handOver x ch t) := by
  unfold Polder.handOver
  dsimp only
  split
  · exact refl p
  · exact ((handHighs x t _ _ p _ _ _).trans (setStream _ _ _)).trans (setChan _ rfl)

theorem abortSnap (p : Polder) (x : PolCtx) (t : UpdTable) : p.PumpKept ch (p.abortSnap x ch t) := by
  have h : p.PumpKept ch (((p.setChan ch { p.chan ch with snap := .aborted }).count (INL + 0x78) 1).raise INL 6) :=
    (snapped p .aborted (p.chan ch).snapAt).trans (((Steady.count _ _ _ _ _ _).trans (Steady.raise _ _ _)).pump ch)
  unfold Polder.abortSnap
  dsimp only
  split
  · exact h.trans (setStream _ _ _)
  · exact h

theorem startUpdate (p : Polder) (x : PolCtx) (ch : Fin 4) (t : UpdTable) : p.PumpKept ch.val (p.startUpdate x ch t) := by
  unfold Polder.startUpdate Polder.startSnap
  split
  · exact refl p
  split
  · exact abortSnap p x t
  · exact ((setStream p _ _).trans (snapped _ .sending 0)).trans (handOver _ x t)

/-- A root's total is sent once; of the channel only that is noted (R270). -/
theorem rootTotal_eq (p : Polder) (x : PolCtx) (ch : Fin 4) (forced : Bool) :
    ∃ b, (p.setChan ch.val { p.chan ch.val with rooted := b }).PumpKept ch.val (p.rootTotal x ch forced) := by
  have hself : (p.setChan ch.val { p.chan ch.val with rooted := (p.chan ch.val).rooted }).PumpKept ch.val p :=
    ⟨by rw [Polder.chan_setChan_same], fun n hn => (Polder.chan_setChan_ne p _ hn).symm, rfl⟩
  unfold Polder.rootTotal
  dsimp only
  split
  · exact ⟨_, hself⟩
  case h_2 t ht =>
    split
    · exact ⟨_, hself⟩
    have hr := Steady.pumpRead p x t.norm 16
    split
    · refine ⟨true, PumpKept.trans (q := (p.pumpRead x t.norm 16).p.setChan ch.val
        { (p.pumpRead x t.norm 16).p.chan ch.val with rooted := true }) ⟨?_, fun n hn => ?_, hr.gauge⟩ ?_⟩
      · rw [Polder.chan_setChan_same, Polder.chan_setChan_same, hr.chan]
      · rw [Polder.chan_setChan_ne _ _ hn, Polder.chan_setChan_ne _ _ hn, hr.chan]
      · exact foldl (fun q _ => (Steady.normSend q x ch _).pump ch.val) t.mlist _
    · exact ⟨_, hself.trans (hr.pump ch.val)⟩

/-! The pass over a shard reads, writes and sends (R272, R278). -/

theorem readAll (x : PolCtx) (l : List (W64 × Nat)) :
    ∀ (p : Polder) (acc : List (List Byte)), p.PumpKept ch (Polder.readAll x l p acc).1 := by
  induction l with
  | nil => exact fun p _ => refl p
  | cons e l ih =>
    intro p acc
    obtain ⟨a, n⟩ := e
    have hr := (Steady.pumpRead p x a n).pump ch
    unfold Polder.readAll
    dsimp only
    split
    · exact hr.trans (ih _ _)
    · exact hr

theorem updateBlock (x : PolCtx) (t : UpdTable) (k : Nat) (s : Shard) (free : Nat) (skip : Bool) (vh : List W32)
    (a : Pass) (j : Nat) : a.p.PumpKept ch (updateBlock x ch t k s free skip vh a j).p := by
  unfold Machine.updateBlock
  dsimp only
  have hr := readAll (ch := ch) x ((t.cntBase + BitVec.ofNat 64 (2 * ((gaOff s.win - gaOff t.winBase) / 1024 + j)), 2) ::
    (s.win + BitVec.ofNat 64 (4 * (256 * j)), 4 * min 256 (s.count - 256 * j)) ::
    s.arrays.map fun q => (q.1 + BitVec.ofNat 64 (q.2 * (256 * j)), q.2 * min 256 (s.count - 256 * j))) a.p []
  split
  case h_1 p ad st hp => rw [hp] at hr; exact hr.trans (pumpUe _ _ _ _ _)
  case h_2 p l hp =>
    rw [hp] at hr
    refine hr.trans (PumpKept.trans ?_ ((Steady.setCount _ x t _ 0).pump ch))
    split
    · exact refl p
    · refine ((Steady.foldl (fun q _ => Steady.putMem q x _ _ _) _ p).trans (Steady.foldl (fun q _ => ?_) _ _)).pump ch
      split
      · exact .refl q
      · exact Steady.putMem q x _ _ _

theorem updateBlocks (x : PolCtx) (t : UpdTable) (k : Nat) (s : Shard) (free : Nat) (skip : Bool) (vh : List W32)
    (off : Bool) (l : List Nat) (a : Pass) : a.p.PumpKept ch
      (l.foldl (fun a j => if off then a else Machine.updateBlock x ch t k s free skip vh a j) a).p :=
  List.foldlRecOn (motive := fun b : Pass => a.p.PumpKept ch b.p) l _ (refl a.p) fun b hb j _ => by
    split
    · exact hb
    · exact hb.trans (updateBlock x t k s free skip vh b j)

theorem sendDelta (x : PolCtx) (ch : Fin 4) (ctx : BitVec 16) (n : Nat) :
    ∀ (p : Polder) (a : W64) (bs : List Byte), p.PumpKept ch.val (Polder.sendDelta x ch ctx n p a bs) := by
  induction n with
  | zero => exact fun p _ _ => refl p
  | succ n ih =>
    intro p a bs
    unfold Polder.sendDelta
    dsimp only
    split
    · exact refl p
    · exact (pumpSend p x ch _).trans (ih _ _ _)

end Polder.PumpKept

namespace Polder.PumpKept

variable {ch : Nat} {p q : Polder} (h : p.PumpKept ch q)
include h

theorem st : (q.chan ch).st = (p.chan ch).st := (congrArg Chan.st h.own :)
theorem tab : (q.chan ch).tab = (p.chan ch).tab := (congrArg Chan.tab h.own :)
theorem k : (q.chan ch).k = (p.chan ch).k := (congrArg Chan.k h.own :)
theorem blocks : (q.chan ch).blocks = (p.chan ch).blocks := (congrArg Chan.blocks h.own :)
theorem sumsq : (q.chan ch).sumsq = (p.chan ch).sumsq := (congrArg Chan.sumsq h.own :)
theorem pooled : (q.chan ch).pooled = (p.chan ch).pooled := (congrArg Chan.pooled h.own :)
theorem poolOld : (q.chan ch).poolOld = (p.chan ch).poolOld := (congrArg Chan.poolOld h.own :)
theorem skipped : (q.chan ch).skipped = (p.chan ch).skipped := (congrArg Chan.skipped h.own :)
theorem norm : (q.chan ch).norm = (p.chan ch).norm := (congrArg Chan.norm h.own :)
theorem clip : (q.chan ch).clip = (p.chan ch).clip := (congrArg Chan.clip h.own :)
theorem chunks : (q.chan ch).chunks = (p.chan ch).chunks := (congrArg Chan.chunks h.own :)
theorem shards : (q.chan ch).shards = (p.chan ch).shards := (congrArg Chan.shards h.own :)
theorem held : (q.chan ch).held = (p.chan ch).held := (congrArg Chan.held h.own :)
theorem skips : (q.chan ch).skips = (p.chan ch).skips := (congrArg Chan.skips h.own :)
theorem lostMember : (q.chan ch).lostMember = (p.chan ch).lostMember := (congrArg Chan.lostMember h.own :)

end Polder.PumpKept

section
variable (p : Polder) (x : PolCtx) (ch : Nat)

/-- The deadline policy leaves the channels (R419). -/
theorem Polder.deadlinePolicy_chans (full byDeadline : Bool) (spread : W32) :
    (p.deadlinePolicy x ch full byDeadline spread).chans = p.chans := by
  have hpost (q : Polder) (policy action subject : Nat) (detail : W64) :
      (q.post x policy action subject detail).chans = q.chans := by
    unfold Polder.post
    dsimp only
    split <;> rfl
  have hset (c : Prop) [Decidable c] (q : Polder) (new action : Nat) (detail : W64) :
      (if c then q else ((q.wr (PMP + 0x140) (BitVec.ofNat 32 new)).raise GAU 5).post x 4 action ch detail).chans =
        q.chans := by
    split
    · rfl
    · exact hpost _ _ _ _ _
  unfold Polder.deadlinePolicy
  dsimp only
  split
  · rfl
  split
  · split
    · rfl
    · exact hset _ _ _ _ _
  split
  · split
    · rfl
    · exact hset _ _ _ _ _
  · rfl

theorem Polder.deadlinePolicy_chan (full byDeadline : Bool) (spread : W32) (n : Nat) :
    (p.deadlinePolicy x ch full byDeadline spread).chan n = p.chan n := by
  unfold Polder.chan
  rw [Polder.deadlinePolicy_chans]

/-- A reduction that is not OPEN is not closed (R266). -/
theorem Polder.closeChan_shut (full byDeadline : Bool) (h : (p.chan ch).st ≠ .open_) :
    p.closeChan x ch full byDeadline = p :=
  if_pos h

/-- A reduction closed short is closing, with DONE_PARTIAL (R266). -/
theorem Polder.closeChan_open (byDeadline : Bool) (h : (p.chan ch).st = .open_) :
    (p.closeChan x ch false byDeadline).chan ch = { p.chan ch with st := .closing, close := Status.donePartial } := by
  unfold Polder.closeChan
  dsimp only
  rw [if_neg fun hn => hn h]
  rw [Polder.deadlinePolicy_chan]
  exact p.chan_setChan_same ch { p.chan ch with st := .closing, close := Status.donePartial }

/-- The entries an earlier reduction pooled are merged in turn: each leaves the pool (R268). -/
theorem Polder.mergePool_poolOld (t : UpdTable) (n : Nat) : ∀ (p : Polder) (l : List Nat),
    ((Polder.mergePool x ch t n p l).1.chan ch).poolOld = (p.chan ch).poolOld - n := by
  induction n with
  | zero => exact fun p l => rfl
  | succ n ih =>
    intro p l
    let v := p.chan ch
    let r := p.pumpRead x (t.pool + BitVec.ofNat 64 (2048 * v.poolAt)) 2048
    let q := r.p.setChan ch { v with
      pooled := v.pooled - 1, poolOld := v.poolOld - 1, poolAt := (v.poolAt + 1) % max 1 t.poolCap }
    have hq : (q.chan ch).poolOld = (p.chan ch).poolOld - 1 :=
      congrArg Chan.poolOld (r.p.chan_setChan_same ch _)
    have hkept {q' : Polder} (h : (q'.chan ch).poolOld = (q.chan ch).poolOld) (l : List Nat) :
        ((Polder.mergePool x ch t n q' l).1.chan ch).poolOld = (p.chan ch).poolOld - (n + 1) := by
      rw [ih, h, hq]
      omega
    unfold Polder.mergePool
    dsimp only
    split
    · exact hkept (Polder.PumpKept.poolOld (Polder.PumpKept.pumpUe _ _ _ _ _)) _
    split
    · exact hkept rfl _
    have hland := (Polder.Steady.landBlock q x t (leN r.data 0 4) 0 (leN r.data 4 2)
      (f32s ((r.data.drop 64).take 1024))).pump ch
    split
    case h_1 q' st h =>
      rw [h] at hland
      exact hkept (Polder.PumpKept.poolOld (hland.trans (Polder.PumpKept.pumpUe _ _ _ _ _))) _
    case h_2 q' c c' _ h =>
      rw [h] at hland
      refine hkept ?_ _
      rw [Polder.chan_setChan_same]
      split <;> exact hland.poolOld

theorem Polder.sweepBlock_poolOld (t : UpdTable) (merged : List Nat) (b : Nat) :
    ((Polder.sweepBlock x ch t merged p b).chan ch).poolOld = (p.chan ch).poolOld := by
  have hc := (Polder.Steady.countOf p x t b).pump ch
  unfold Polder.sweepBlock
  split
  case h_1 q st h =>
    rw [h] at hc
    exact Polder.PumpKept.poolOld (hc.trans (Polder.PumpKept.pumpUe _ _ _ _ _))
  case h_2 q n h =>
    rw [h] at hc
    split
    · exact hc.poolOld
    have hb := (Polder.Steady.blockOf q x t b).pump ch
    split
    case h_1 r st h' =>
      rw [h'] at hb
      exact Polder.PumpKept.poolOld ((hc.trans hb).trans (Polder.PumpKept.pumpUe _ _ _ _ _))
    case h_2 r l h' =>
      rw [h'] at hb
      dsimp only
      rw [Polder.chan_setChan_same]
      exact Polder.PumpKept.poolOld (hc.trans hb)

theorem Polder.countsOf_steady (t : UpdTable) (bs : List Nat) :
    ∀ (p : Polder) (l : List (Nat × Nat)), p.Steady (Polder.countsOf x t bs p l).1 := by
  induction bs with
  | nil => exact fun p _ => .refl p
  | cons b bs ih =>
    intro p l
    have hc := Polder.Steady.countOf p x t b
    unfold Polder.countsOf
    split
    case h_1 q st h => rw [h] at hc; exact hc
    case h_2 q n h => rw [h] at hc; exact hc.trans (ih q _)

theorem Polder.slicesOf_steady (n : Nat) (as : List W64) :
    ∀ (p : Polder) (l : List (List W32)), p.Steady (Polder.slicesOf x n as p l).1 := by
  induction as with
  | nil => exact fun p _ => .refl p
  | cons a as ih =>
    intro p l
    have hr := Polder.Steady.pumpRead p x a (4 * n)
    unfold Polder.slicesOf
    dsimp only
    split
    · exact hr.trans (ih _ _)
    · exact hr

theorem Polder.tieShard_poolOld (t : UpdTable) (k : Nat) (s : Shard) :
    ((Polder.tieShard x ch t p k s).chan ch).poolOld = (p.chan ch).poolOld := by
  unfold Polder.tieShard
  dsimp only
  split
  · rfl
  have hc := (Polder.countsOf_steady x t (s.slices.flatMap fun o => t.blocksOf o (4 * s.count)).eraseDups p []).pump ch
  split
  case h_1 q st h =>
    rw [h] at hc
    exact Polder.PumpKept.poolOld (hc.trans (Polder.PumpKept.pumpUe _ _ _ _ _))
  case h_2 q counts h =>
    rw [h] at hc
    have hs := (Polder.slicesOf_steady x s.count
      ((List.range s.nslice).map fun i => s.win + BitVec.ofNat 64 (i * s.stride.toNat)) q []).pump ch
    split
    case h_1 r st h' =>
      rw [h'] at hs
      exact Polder.PumpKept.poolOld ((hc.trans hs).trans (Polder.PumpKept.pumpUe _ _ _ _ _))
    case h_2 r xs h' =>
      rw [h'] at hs
      rw [Polder.chan_setChan_same]
      refine Polder.PumpKept.poolOld ((hc.trans hs).trans (Polder.Steady.pump ?_ ch))
      exact (Polder.Steady.putMem r x _ _ _).trans (Polder.Steady.foldl (fun q _ => Polder.Steady.setCount q x t _ _) _ _)

end

theorem Polder.sendNorm_steady (p : Polder) (x : PolCtx) (ch : Fin 4) (t : UpdTable) : p.Steady (p.sendNorm x ch t) :=
  Polder.Steady.foldl (fun q _ => (Polder.Steady.normSend q x ch _).trans (Polder.Steady.normSend _ x ch _)) _ p

@[simp] theorem Polder.sent_chan (p : Polder) (n : Nat) : p.sent.chan n = p.chan n := rfl

section
variable {s : State} {p : Pid} (hl : s.live p 4 = true) {ch : Fin 4}
include hl

/-- What a drain leaves before the total is tried: the pooled entries, the partial blocks and the ties are summed. -/
def Polder.summed (q : Polder) (x : PolCtx) (ch : Nat) (t : UpdTable) : Polder :=
  let m := Polder.mergePool x ch t (q.chan ch).poolOld q []
  let q := (List.range (min t.tieFrom t.winBlocks)).foldl (Polder.sweepBlock x ch t m.2) m.1
  (t.shards.zip (List.range t.shards.length)).foldl (fun q s => Polder.tieShard x ch t q s.2 s.1) q

omit hl in
theorem Polder.summed_poolOld (q : Polder) (x : PolCtx) (ch : Nat) (t : UpdTable) :
    ((q.summed x ch t).chan ch).poolOld = 0 := by
  have hm : ((Polder.mergePool x ch t (q.chan ch).poolOld q []).1.chan ch).poolOld = 0 := by
    rw [Polder.mergePool_poolOld, Nat.sub_self]
  unfold Polder.summed
  refine List.foldlRecOn (motive := fun q : Polder => (q.chan ch).poolOld = 0) _ _ ?_ fun a ha b _ =>
    (a.tieShard_poolOld x ch t b.2 b.1).trans ha
  exact List.foldlRecOn (motive := fun q : Polder => (q.chan ch).poolOld = 0) _ _ hm fun a ha b _ =>
    (a.sweepBlock_poolOld x ch t _ b).trans ha

/-- REDUCTION_DRAINED of a closing reduction with no write under way (R267 to R270). -/
theorem exec_reductionDrained {t : UpdTable} (ht : ((s.pol p).chan ch.val).tab = some t)
    (hs : ((s.pol p).chan ch.val).st = .closing)
    (hw : (SMap.get (fun _ => Win.reset) (s.pol p).flx.wins (60 + ch.val)).writes = []) :
    let r := (s.pol p).summed (s.ctxOf p) ch.val t
    s.Gives (.reductionDrained p ch) p
      (((r.setChan ch.val { r.chan ch.val with st := .summing }).sendNorm (s.ctxOf p) ch t).rootTotal (s.ctxOf p) ch
        false) := by
  have hgo : ¬ (decide (((s.pol p).chan ch.val).st ≠ .closing) ||
      !(SMap.get (fun _ => Win.reset) (s.pol p).flx.wins (60 + ch.val)).writes.isEmpty) = true := by
    rw [hs, hw]
    decide
  refine State.gives_event rfl hl ?_
  dsimp only
  rw [ht]
  exact if_neg hgo

omit hl in
/-- After the sums go out a channel is SUMMING, and no pooled entry is old (R268, R270). -/
theorem Polder.sendNorm_rootTotal (r : Polder) (x : PolCtx) (t : UpdTable) :
    let u := ((r.setChan ch.val { r.chan ch.val with st := .summing }).sendNorm x ch t).rootTotal x ch false
    (u.chan ch.val).st = .summing ∧ (u.chan ch.val).poolOld = (r.chan ch.val).poolOld := by
  obtain ⟨v, hv⟩ : ∃ v, v = r.setChan ch.val { r.chan ch.val with st := .summing } := ⟨_, rfl⟩
  dsimp only
  rw [← hv]
  obtain ⟨b, hb⟩ := Polder.PumpKept.rootTotal_eq (v.sendNorm x ch t) x ch false
  have hv' : (v.sendNorm x ch t).chan ch.val = { r.chan ch.val with st := .summing } := by
    rw [(v.sendNorm_steady x ch t).chan, hv, Polder.chan_setChan_same]
  rw [hb.st, hb.poolOld, Polder.chan_setChan_same, hv']
  exact ⟨rfl, rfl⟩

/-- The drain of a closing reduction ends in SUMMING, with no entry of an earlier reduction pooled (R267 to R270). -/
theorem reductionDrained_sums {t : UpdTable} (ht : ((s.pol p).chan ch.val).tab = some t)
    (hs : ((s.pol p).chan ch.val).st = .closing)
    (hw : (SMap.get (fun _ => Win.reset) (s.pol p).flx.wins (60 + ch.val)).writes = []) :
    ∃ u, exec (.reductionDrained p ch) s = .next u ∧ ((u.pol p).chan ch.val).st = .summing ∧
      ((u.pol p).chan ch.val).poolOld = 0 := by
  obtain ⟨u, hu, hup⟩ := (exec_reductionDrained hl ht hs hw).pol
  obtain ⟨hst, hold⟩ := Polder.sendNorm_rootTotal (ch := ch) ((s.pol p).summed (s.ctxOf p) ch.val t) (s.ctxOf p) t
  refine ⟨u, hu, ?_⟩
  rw [hup, Polder.sent_chan]
  exact ⟨hst, hold.trans (Polder.summed_poolOld _ _ _ _)⟩

end

/-! ### Arming -/

/-- A read of a table that succeeds leaves the channels and the Gauge. -/
def ArmM.Keeps {α : Type} (m : ArmM α) : Prop := ∀ p a q, EStateM.run m p = .ok a q → p.Steady q

namespace ArmM.Keeps

theorem pure {α : Type} (a : α) : Keeps (pure a : ArmM α) := by
  intro p b q h
  cases h
  exact .refl p

theorem get : Keeps (get : ArmM Polder) := by
  intro p b q h
  cases h
  exact .refl p

theorem throw {α : Type} (st : Status) : Keeps (throw st : ArmM α) := fun _ _ _ h => nomatch h

theorem bind {α β : Type} {m : ArmM α} {f : α → ArmM β} (hm : Keeps m) (hf : ∀ a, Keeps (f a)) : Keeps (m >>= f) := by
  intro p b r h
  cases hr : EStateM.run m p with
  | ok a q =>
    have hb : EStateM.run (m >>= f) p = EStateM.run (f a) q := by
      show EStateM.bind m f p = _
      unfold EStateM.bind
      rw [show m p = .ok a q from hr]
      rfl
    exact (hm p a q hr).trans (hf a q b r (hb.symm.trans h))
  | error e q =>
    have hb : EStateM.run (m >>= f) p = .error e q := by
      show EStateM.bind m f p = _
      unfold EStateM.bind
      rw [show m p = .error e q from hr]
    exact absurd (hb.symm.trans h) (fun h => nomatch h)

theorem ite {α : Type} {c : Prop} [Decidable c] {m n : ArmM α} (hm : Keeps m) (hn : Keeps n) :
    Keeps (if c then m else n) := by
  split
  · exact hm
  · exact hn

theorem armNeed (b : Bool) (st : Status) : Keeps (armNeed b st) := by
  unfold Machine.armNeed
  exact ite (pure ()) (throw st)

theorem armRead (x : PolCtx) (a : W64) (n : Nat) : Keeps (armRead x a n) := by
  intro p b q h
  have hr := Polder.Steady.pumpRead p x a n
  have hrun : EStateM.run (Machine.armRead x a n) p =
      EStateM.run (if (p.pumpRead x a n).st = Status.done then Pure.pure (p.pumpRead x a n).data
        else MonadExcept.throw (p.pumpRead x a n).st : ArmM (List Byte)) (p.pumpRead x a n).p := rfl
  rw [hrun] at h
  exact hr.trans (ite (pure _) (throw _) _ _ _ h)

theorem readProg (x : PolCtx) (n : Nat) : ∀ a, Keeps (readProg x n a) := by
  induction n with
  | zero => exact fun _ => throw _
  | succ n ih =>
    intro a
    unfold Machine.readProg
    refine bind (armRead x a 4) fun bs => bind (armNeed _ _) fun _ => ite (pure _) (bind (ih _) fun r => pure _)

theorem readProgs (x : PolCtx) (l : List Shard) : ∀ acc, Keeps (readProgs x l acc) := by
  induction l with
  | nil => exact fun acc => pure acc
  | cons s l ih =>
    intro acc
    unfold Machine.readProgs
    exact ite (ih acc) (bind (readProg x 64 s.prog) fun r => ih _)

/-- Reading a table leaves the channels and the Gauge (R260 to R263). -/
theorem readUpdTable (x : PolCtx) (ch : Nat) (a : W64) : Keeps (readUpdTable x ch a) := by
  unfold Machine.readUpdTable
  refine bind get fun p => bind (armNeed _ _) fun _ => bind (armRead _ _ _) fun h => bind (armNeed _ _) fun _ =>
    bind (armRead _ _ _) fun hb => bind (armRead _ _ _) fun sb => bind (armNeed _ _) fun _ => bind (armNeed _ _) fun _ =>
    bind (armNeed _ _) fun _ => bind (armNeed _ _) fun _ => bind (readProgs x _ _) fun progs =>
    bind (armNeed _ _) fun _ => bind (armNeed _ _) fun _ => bind (armRead _ _ _) fun cl => bind (armRead _ _ _) fun ml =>
    bind (armRead _ _ _) fun hl => pure _

end ArmM.Keeps

section
variable (q : Polder) (x : PolCtx) (ch : Fin 4) (a : W64) (w : Who)

/-- With no commit pending an arm reads its table at once (R263, R443). -/
theorem Polder.submitArm_now (o : Origin) (hc : x.mod.commit = none) : q.submitArm x ch a o = q.armChan x ch a o := by
  unfold Polder.submitArm
  rw [hc]
  rfl

/-- A channel that is neither IDLE nor LATE refuses an arm (R263). -/
theorem Polder.armChan_busy (h1 : (q.chan ch.val).st ≠ .idle) (h2 : (q.chan ch.val).st ≠ .late) :
    q.armChan x ch a (.reg w.ctx) = (q.setChan ch.val { q.chan ch.val with code := Status.refusedBusy }).raise PMP 7 := by
  unfold Polder.armChan
  dsimp only
  rw [decide_eq_true h1, decide_eq_true h2]
  rfl

theorem Polder.armChan_free (h : (q.chan ch.val).st = .idle ∨ (q.chan ch.val).st = .late) :
    ¬ (decide ((q.chan ch.val).st ≠ .idle) && decide ((q.chan ch.val).st ≠ .late)) = true := by
  rcases h with h | h <;> rw [h] <;> decide

/-- An arm that fails reports its code (R263). -/
theorem Polder.armChan_error (h : (q.chan ch.val).st = .idle ∨ (q.chan ch.val).st = .late) {st : Status} {r : Polder}
    (hr : EStateM.run (readUpdTable x ch.val a) q = .error st r) :
    q.armChan x ch a (.reg w.ctx) = (r.setChan ch.val { r.chan ch.val with code := st }).raise PMP 7 := by
  unfold Polder.armChan
  dsimp only
  rw [if_neg (q.armChan_free ch h), hr]
  rfl

/-- An arm that succeeds opens the channel with its table and nothing summed (R263, R264, R268). -/
theorem Polder.armChan_ok (h : (q.chan ch.val).st = .idle ∨ (q.chan ch.val).st = .late) {t : UpdTable} {r : Polder}
    (hr : EStateM.run (readUpdTable x ch.val a) q = .ok t r) :
    let c := (q.armChan x ch a (.reg w.ctx)).chan ch.val
    c.st = .open_ ∧ c.tab = some t ∧ c.k = q.gauge.k ∧ c.blocks = 0 ∧ c.sumsq = 0 ∧ c.pooled = (q.chan ch.val).pooled := by
  have hread := ArmM.Keeps.readUpdTable x ch.val a q t r hr
  let u := (if t.zeroCnt then r.putMem x 1 (gaOff t.cntBase) (List.replicate (2 * t.winBlocks) 0) else r).putMem x 1
    (gaOff t.norm) (List.replicate 64 0)
  let v : Chan := { Chan.reset with
    st := .open_, tab := some t, k := u.gauge.k, pooled := (q.chan ch.val).pooled, poolAt := (q.chan ch.val).poolAt
    poolOld := (q.chan ch.val).pooled }
  have hu : u.gauge = q.gauge := by
    refine (Steady.putMem _ x _ _ _).gauge.trans (Eq.trans ?_ hread.gauge)
    split
    · exact (Steady.putMem _ x _ _ _).gauge
    · rfl
  have heq : q.armChan x ch a (.reg w.ctx) = (u.setChan ch.val v).startHand x ch t := by
    unfold Polder.armChan
    dsimp only
    rw [if_neg (q.armChan_free ch h), hr]
    rfl
  have hk := PumpKept.startHand (u.setChan ch.val v) x ch t
  have hv : (u.setChan ch.val v).chan ch.val = v := u.chan_setChan_same ch.val v
  dsimp only
  rw [heq, hk.st, hk.tab, hk.k, hk.blocks, hk.sumsq, hk.pooled, hv]
  exact ⟨rfl, rfl, congrArg Gauge.k hu, rfl, rfl, rfl⟩

end

/-! ### The step decision -/

section
variable (q : Polder) (x : PolCtx) (ch : Fin 4) (t : UpdTable) (total : W32)

/-- The Gauge has the outcome, and the layers' actions are taken (R410, R417). -/
def Polder.judged (nonf : Bool) : Polder := (q.takeActions x t).1.outcome nonf false (q.chan ch.val).k

theorem Polder.judged_outcomes (nonf : Bool) :
    (q.judged x ch t nonf).gauge.outcomes = q.gauge.outcomes ++ [⟨nonf, false, (q.chan ch.val).k⟩] := by
  unfold Polder.judged Polder.outcome
  dsimp only
  split <;> rfl

theorem Polder.judged_chan (nonf : Bool) (n : Nat) : (q.judged x ch t nonf).chan n = q.chan n := by
  unfold Polder.judged Polder.outcome
  dsimp only
  split <;> rfl

variable (hacts : (q.takeActions x t).2 = [])
include hacts

/-- A total that is not finite skips the step (R271, R412). -/
theorem Polder.decideStep_skip (hn : (f32 total).isFinite = false) : q.decideStep x ch t total =
    ((((((q.judged x ch t true).setChan ch.val { q.chan ch.val with st := .updating, skipped := true }).count
      (PMP + 0x154) 1).raise PMP 3).clearCounts x t).allHand x ch t).startUpdate x ch t := by
  unfold Polder.decideStep Polder.judged
  rcases hta : q.takeActions x t with ⟨r, acts⟩
  rw [hta] at hacts
  obtain rfl : acts = [] := hacts
  dsimp only
  rw [hn]
  rfl

/-- The clip factor of a step (R271). -/
def clipFactor (t : UpdTable) (total : W32) : W32 :=
  let g := f64 (toF64 (f32 total).sqrt)
  if t.clipMax = 0 || g.isZero then 0x3F800000
  else if (Num.fin false 1 0).lt ((f32 t.clipMax).div g) then 0x3F800000 else toF32 ((f32 t.clipMax).div g)

/-- A finite total leaves the norm and the clip factor, and the update begins (R271, R412). -/
theorem Polder.decideStep_go (hn : (f32 total).isFinite = true) : q.decideStep x ch t total =
    (((q.judged x ch t false).setChan ch.val { q.chan ch.val with
      st := .updating, norm := toF32 (f64 (toF64 (f32 total).sqrt)), clip := clipFactor t total, skips := []
      held := false }).count (GAU + 0xA0) 0 0 8).startUpdate x ch t := by
  unfold Polder.decideStep Polder.judged clipFactor
  rcases hta : q.takeActions x t with ⟨r, acts⟩
  rw [hta] at hacts
  obtain rfl : acts = [] := hacts
  dsimp only
  rw [hn]
  rfl

/-- What a skipped step leaves of its channel and of the Gauge. -/
theorem Polder.decideStep_skip_spec (hn : (f32 total).isFinite = false) :
    let r := q.decideStep x ch t total
    let v := r.chan ch.val
    v.st = .updating ∧ v.skipped = true ∧ v.chunks = t.nchunk ∧
      r.gauge.outcomes = q.gauge.outcomes ++ [⟨true, false, (q.chan ch.val).k⟩] := by
  let a := (q.judged x ch t true).setChan ch.val { q.chan ch.val with st := .updating, skipped := true }
  let b := ((a.count (PMP + 0x154) 1).raise PMP 3).clearCounts x t
  have hab : a.Steady b :=
    ((Steady.count a _ _ _ _ _).trans (Steady.raise _ _ _)).trans (Steady.clearCounts _ x t)
  have hchan : b.chan ch.val = { q.chan ch.val with st := .updating, skipped := true } :=
    (hab.chan ch.val).trans ((q.judged x ch t true).chan_setChan_same ch.val _)
  have hk : (b.setChan ch.val { b.chan ch.val with chunks := t.nchunk }).PumpKept ch.val
      ((b.allHand x ch t).startUpdate x ch t) := (PumpKept.allHand b x ch t).trans (PumpKept.startUpdate _ x ch t)
  have heq : q.decideStep x ch t total = (b.allHand x ch t).startUpdate x ch t := q.decideStep_skip x ch t total hacts hn
  dsimp only
  rw [heq, hk.st, hk.skipped, hk.chunks, hk.gauge, Polder.chan_setChan_same, hchan]
  exact ⟨rfl, rfl, rfl, (congrArg Gauge.outcomes hab.gauge).trans (q.judged_outcomes x ch t true)⟩

/-- What a step that is taken leaves of its channel and of the Gauge. -/
theorem Polder.decideStep_go_spec (hn : (f32 total).isFinite = true) :
    let r := q.decideStep x ch t total
    let v := r.chan ch.val
    v.st = .updating ∧ v.skipped = (q.chan ch.val).skipped ∧ v.norm = toF32 (f64 (toF64 (f32 total).sqrt)) ∧
      r.gauge.outcomes = q.gauge.outcomes ++ [⟨false, false, (q.chan ch.val).k⟩] ∧ v.clip = clipFactor t total := by
  let v : Chan := { q.chan ch.val with
    st := .updating, norm := toF32 (f64 (toF64 (f32 total).sqrt)), clip := clipFactor t total, skips := []
    held := false }
  let a := ((q.judged x ch t false).setChan ch.val v).count (GAU + 0xA0) 0 0 8
  have hchan : a.chan ch.val = v := (q.judged x ch t false).chan_setChan_same ch.val v
  have hk := PumpKept.startUpdate a x ch t
  have heq : q.decideStep x ch t total = a.startUpdate x ch t := q.decideStep_go x ch t total hacts hn
  dsimp only
  rw [heq, hk.st, hk.skipped, hk.norm, hk.clip, hk.gauge, hchan]
  exact ⟨rfl, rfl, rfl, q.judged_outcomes x ch t false, rfl⟩

end

/-- The end of a norm's read: a total of the reduction's own SEQ decides the step (R270, R271). -/
theorem exec_normTotalReady {s : State} {p : Pid} (hl : s.live p 4 = true) {ch : Fin 4} {t : UpdTable}
    (ht : ((s.pol p).chan ch.val).tab = some t) (hs : ((s.pol p).chan ch.val).st = .summing) :
    let r := ((s.pol p).rootTotal (s.ctxOf p) ch false).pumpRead (s.ctxOf p) t.norm 24
    s.Gives (.normTotalReady p ch) p (if r.st = Status.done && BitVec.ofNat 32 (leN r.data 20 4) == t.seq then
      r.p.decideStep (s.ctxOf p) ch t (BitVec.ofNat 32 (leN r.data 16 4)) else r.p) := by
  refine State.gives_event rfl hl ?_
  dsimp only
  rw [ht]
  exact if_neg fun h => h hs

/-- Settles O34: each row is its equation, and the channel's fields are followed through the memory accesses and
requests a row makes, none of which touches them. -/
theorem pumpsArmCloseAndSum : Obligations.PumpsArmCloseAndSum := by
  refine ⟨fun p ch s w => ⟨fun ha => ?_, fun hl => ?_⟩, fun q x ch t total hacts => ⟨q.decideStep_skip_spec x ch t total hacts,
    fun hn => ?_⟩⟩
  · have hoff : PMP + 0x48 + 0x40 * ch.val = PMP + 0x40 + 0x40 * ch.val + 8 := by omega
    have harm (hc : s.mod.commit = none) : s.GivesW w (.pumpArm p ch w) p ((s.pol p).armChan ((s.noted w).ctxOf p) ch
        ((s.pol p).pair (PMP + 0x40 + 0x40 * ch.val) &&& 0xFFFFFFFFFFFFFFC0#64) (.reg w.ctx)) := by
      refine State.gives_page rfl ha ?_
      exact Polder.submitArm_now _ _ _ _ _ ((State.noted_commit s w).trans hc)
    have hclose : s.GivesW w (.pumpClose p ch w) p
        ((s.pol p).closeChan ((s.noted w).ctxOf p) ch.val false false) :=
      State.gives_page rfl (by rw [hoff]; exact ha) rfl
    refine ⟨fun hc h1 h2 => ?_, fun hc h => ⟨fun st r hr => ?_, fun t r hr => ?_⟩, fun h => ?_, fun h => ?_⟩
    · have heq := (s.pol p).armChan_busy ((s.noted w).ctxOf p) ch
        ((s.pol p).pair (PMP + 0x40 + 0x40 * ch.val) &&& 0xFFFFFFFFFFFFFFC0#64) w h1 h2
      exact heq ▸ harm hc
    · have heq := (s.pol p).armChan_error ((s.noted w).ctxOf p) ch _ w h hr
      exact heq ▸ harm hc
    · obtain ⟨u, hu, hup⟩ := (harm hc).pol
      refine ⟨u, hu, ?_⟩
      dsimp only
      rw [hup, Polder.sent_chan]
      exact (s.pol p).armChan_ok ((s.noted w).ctxOf p) ch _ w h hr
    · have heq := (s.pol p).closeChan_shut ((s.noted w).ctxOf p) ch.val false false h
      exact heq ▸ hclose
    · obtain ⟨u, hu, hup⟩ := hclose.pol
      refine ⟨u, hu, ?_⟩
      rw [hup, Polder.sent_chan]
      exact (s.pol p).closeChan_open _ ch.val false h
  · refine ⟨fun h => ?_, fun h ho => ?_, fun h hm ho => ?_, fun h hm => ?_, fun t ht hs hw => reductionDrained_sums hl ht hs hw,
      fun t ht hs => ?_⟩
    · exact State.gives_event rfl hl (if_neg (by rw [h]; decide))
    · obtain ⟨u, hu, hup⟩ := (State.gives_event (i := .pumpDeadlineExpiry p ch) rfl hl (if_pos h)).pol
      refine ⟨u, hu, ?_⟩
      rw [hup, Polder.sent_chan]
      exact (s.pol p).closeChan_open _ ch.val true ho
    · have hchan := (s.pol p).closeChan_open (s.ctxOf p) ch.val false ho
      have hg : s.Gives (.pumpGraceExpiry p ch) p ((s.pol p).closeChan (s.ctxOf p) ch.val false false) := by
        refine State.gives_event rfl hl ?_
        dsimp only
        rw [if_pos h, hchan]
        exact if_neg (ne_true_of_eq_false hm)
      obtain ⟨u, hu, hup⟩ := hg.pol
      refine ⟨u, hu, ?_⟩
      rw [hup, Polder.sent_chan]
      exact hchan
    · refine State.gives_event rfl hl ?_
      dsimp only
      rw [if_neg (ne_true_of_eq_false h)]
      exact if_pos hm
    · have hg := exec_normTotalReady hl ht hs
      dsimp only at hg
      refine ⟨fun hn => ?_, fun hd hq => ?_⟩
      · rw [if_neg (by
          rw [Bool.and_eq_true, decide_eq_true_eq, beq_iff_eq]
          exact fun h => hn.elim (fun hn => hn h.1) fun hn => hn h.2)] at hg
        exact hg
      · rw [if_pos (by
          rw [Bool.and_eq_true, decide_eq_true_eq, beq_iff_eq]
          exact ⟨hd, hq⟩)] at hg
        exact hg
  · obtain ⟨hst, hsk, hnorm, hout, hclip⟩ := q.decideStep_go_spec x ch t total hacts hn
    refine ⟨hst, hsk, hnorm, hout, fun h => hclip.trans (if_pos ?_), fun h1 h2 => hclip.trans (if_neg ?_)⟩
    · rw [Bool.or_eq_true, decide_eq_true_eq]
      exact h
    · rw [show (f64 (toF64 (f32 total).sqrt)).isZero = false from h2, Bool.or_false, decide_eq_true_eq]
      exact h1

/-! ### The update pass -/

theorem Polder.PumpKept.ite {ch : Nat} {p q r : Polder} {c : Prop} [Decidable c] (hq : p.PumpKept ch q)
    (hr : p.PumpKept ch r) : p.PumpKept ch (if c then q else r) := by
  split
  · exact hq
  · exact hr

section
variable (p : Polder) (x : PolCtx) (ch : Fin 4) (t : UpdTable) (k : Nat) (s : Shard)

/-- A pass over a shard keeps the channel, and of the Gauge all but the ratio it reports (R272, R280). -/
theorem Polder.updateShard_spec : ∃ q l, p.PumpKept ch.val q ∧
    p.updateShard x ch t k s = { q with gauge := { q.gauge with ratios := q.gauge.ratios ++ l } } ∧
    if (p.chan ch.val).skips.contains s.tensor then l = [] else ∃ r : RatioSum, l = [r] ∧ r.ch = ch ∧ r.tensor = s.tensor := by
  let skip := (p.chan ch.val).skips.contains s.tensor
  let vread := p.pumpRead x s.v s.factorBytes
  let facs := f32s vread.data
  let p1 := if vread.st = Status.done then vread.p else vread.p.pumpUe ch.val k 0 s.v vread.st
  let fx := if s.rule = 4 then factored t s facs (p1.peekGrads ch.val t s) else ([], [])
  let a := (List.range ((s.count + 255) / 256)).foldl
    (fun a j => if s.rule = 4 && vread.st ≠ Status.done then a
      else updateBlock x ch.val t k s x.free skip fx.2 a j) ⟨p1, 0, 0, 0, []⟩
  let last := if s.rule = 4 then fx.1 ++ (List.range (s.cols + 1)).map fun i => Config.factors x.free i else []
  let write := s.rule = 4 && !skip && vread.st = Status.done
  let p2 := if write then a.p.putMem x (gaTier s.v) (gaOff s.v) (bytesOf32 last) else a.p
  let p3 := if a.nans = 0 then p2 else (p2.count (PMP + 0x164) a.nans).raise PMP 6
  let pieces := ((List.range 4).flatMap fun i => (a.delta.filter fun d => d.1 == i).map (·.2)) ++
    if write then [(s.imageAt 4, xorBytes vread.data (bytesOf32 last))] else []
  let p4 := if s.par = 0 then p3
    else (joinRuns pieces).foldl (fun p q =>
      Polder.sendDelta x ch t.ctx (q.2.length + 1) p (s.par + BitVec.ofNat 64 q.1) q.2) p3
  let p5 := p4.wr (PMP + 0x15C) (p4.rd (PMP + 0x15C) (1 + s.pump) + BitVec.ofNat 32 s.count) (1 + s.pump)
  have h1 : p.PumpKept ch.val p1 := by
    have hr := (Polder.Steady.pumpRead p x s.v s.factorBytes).pump ch.val
    exact .ite hr (hr.trans (.pumpUe _ _ _ _ _))
  have ha : p.PumpKept ch.val a.p := h1.trans (.updateBlocks x t k s x.free skip fx.2 _ _ ⟨p1, 0, 0, 0, []⟩)
  have h2 : p.PumpKept ch.val p2 := .ite (ha.trans ((Polder.Steady.putMem a.p x _ _ _).pump ch.val)) ha
  have h3 : p.PumpKept ch.val p3 :=
    .ite h2 (h2.trans (((Polder.Steady.count p2 _ _ _ _ _).trans (.raise _ _ _)).pump ch.val))
  have h4 : p.PumpKept ch.val p4 := .ite h3 (h3.trans (.foldl (fun q e => .sendDelta x ch t.ctx _ q _ _) _ p3))
  have h5 : p.PumpKept ch.val p5 := h4.trans ((Polder.Steady.wr p4 _ _ _).pump ch.val)
  have heq : p.updateShard x ch t k s = if skip then p3
      else { p5 with gauge := { p5.gauge with
        ratios := p5.gauge.ratios ++ [⟨ch, s.tensor, a.num, a.den, a.nans⟩] } } := rfl
  by_cases hs : (p.chan ch.val).skips.contains s.tensor = true
  · refine ⟨p3, [], h3, ?_, by rw [if_pos hs]⟩
    rw [heq, if_pos hs, List.append_nil]
  · refine ⟨p5, [⟨ch, s.tensor, a.num, a.den, a.nans⟩], h5, ?_, by rw [if_neg hs]; exact ⟨_, rfl, rfl, rfl⟩⟩
    rw [heq, if_neg hs]

/-- Announcing chunks leaves the shards and the Gauge (R277). -/
theorem Polder.advanceHand_kept (n : Nat) : ∀ p : Polder,
    ((Polder.advanceHand x ch t n p).chan ch.val).shards = (p.chan ch.val).shards ∧
    (Polder.advanceHand x ch t n p).gauge = p.gauge := by
  induction n with
  | zero => exact fun p => ⟨rfl, rfl⟩
  | succ n ih =>
    intro p
    unfold Polder.advanceHand
    dsimp only
    split
    · have hk := Polder.PumpKept.stepHand p x ch t
      obtain ⟨h1, h2⟩ := ih (p.stepHand x ch t)
      refine ⟨h1.trans (hk.shards.trans ?_), h2.trans hk.gauge⟩
      rw [Polder.chan_setChan_same]
    · exact ⟨rfl, rfl⟩

end

/-- The state a row leaves that draws on the free values and changes nothing. -/
theorem State.onPolFree_eq (s : State) (p : Pid) {f : PolCtx → Polder → Polder} {q : Polder}
    (h : f (s.ctxOf p) (s.pol p) = q) :
    s.onPolFree p f = { s.settle p (s.pol p).summary q with free := s.free + 1 } := by
  unfold State.onPolFree
  rw [State.onPol_eq, h]

section
variable {s : State} {p : Pid} (hl : s.live p 4 = true) {ch : Fin 4} {t : UpdTable}
  (ht : ((s.pol p).chan ch.val).tab = some t) (hu : ((s.pol p).chan ch.val).st = .updating) {k : Nat} {sh : Shard}
  (hk : t.shards[k]? = some sh)
include hl ht hu hk

omit hu in
/-- A shard that is not its Pump's next, or that the snapshot has not taken, waits (R272, R279). -/
theorem pumpShardComplete_waits
    (h : ((s.pol p).chan ch.val).isNext t k sh = false ∨ ((s.pol p).chan ch.val).handed t k = false) :
    exec (.pumpShardComplete p ch k) s = .next { s.settle p (s.pol p).summary (s.pol p) with free := s.free + 1 } := by
  refine congrArg Host.Outcome.next ((if_pos hl).trans (s.onPolFree_eq p ?_))
  dsimp only
  rw [ht]
  dsimp only
  rw [hk]
  refine if_neg ?_
  rcases h with h | h <;> rw [h] <;> simp

/-- The next shard of its Pump completes: it is updated, noted, and its chunks are announced (R272, R277). -/
theorem pumpShardComplete_completes (hsk : ((s.pol p).chan ch.val).skipped = false)
    (hh : ((s.pol p).chan ch.val).held = false) (hn : ((s.pol p).chan ch.val).isNext t k sh = true)
    (hd : ((s.pol p).chan ch.val).handed t k = true) :
    let q := (s.pol p).updateShard (s.ctxOf p) ch t k sh
    exec (.pumpShardComplete p ch k) s = .next { s.settle p (s.pol p).summary
      (Polder.advanceHand (s.ctxOf p) ch t (t.nchunk + 1)
        (q.setChan ch.val { q.chan ch.val with shards := (q.chan ch.val).shards ++ [k] })) with free := s.free + 1 } := by
  refine congrArg Host.Outcome.next ((if_pos hl).trans (s.onPolFree_eq p ?_))
  dsimp only
  rw [ht]
  dsimp only
  rw [hk]
  exact if_pos (by rw [hu, hsk, hh, hn, hd]; rfl)

end

/-- Settles O35: a shard's pass keeps its channel and adds one ratio, and the other rows are their equations. -/
theorem updatesTakeShardsInTurn : Obligations.UpdatesTakeShardsInTurn := by
  intro p ch s t hl q v x ht hu
  refine ⟨fun k sh hk hsk hh => ⟨pumpShardComplete_waits hl ht hk, fun hn hd => ?_⟩, fun ho => ?_, fun ho => ?_,
    fun hh ha => ?_, fun hs ha => ?_⟩
  · obtain ⟨r, l, hkept, heq, hratio⟩ := q.updateShard_spec x ch t k sh
    have hex := pumpShardComplete_completes hl ht hu hk hsk hh hn hd
    dsimp only at hex
    obtain ⟨hshards, hgauge⟩ := Polder.advanceHand_kept x ch t (t.nchunk + 1)
      ((q.updateShard x ch t k sh).setChan ch.val { (q.updateShard x ch t k sh).chan ch.val with
        shards := ((q.updateShard x ch t k sh).chan ch.val).shards ++ [k] })
    obtain ⟨z, hz⟩ : ∃ z, z = Polder.advanceHand x ch t (t.nchunk + 1)
      ((q.updateShard x ch t k sh).setChan ch.val { (q.updateShard x ch t k sh).chan ch.val with
        shards := ((q.updateShard x ch t k sh).chan ch.val).shards ++ [k] }) := ⟨_, rfl⟩
    rw [← hz] at hex hshards hgauge
    have hpol : State.pol { s.settle p (s.pol p).summary z with free := s.free + 1 } p = z.sent := s.pol_settle p (s.pol p).summary z
    have hchan : (q.updateShard x ch t k sh).chan ch.val = r.chan ch.val := by rw [heq]; rfl
    have hrat : z.sent.gauge.ratios = q.gauge.ratios ++ l := by
      show z.gauge.ratios = _
      rw [hgauge, ← hkept.gauge]
      exact congrArg (fun p : Polder => p.gauge.ratios) heq
    refine ⟨_, hex, rfl, ?_⟩
    rw [hpol, Polder.sent_chan, hshards, Polder.chan_setChan_same, hrat]
    refine ⟨by rw [hchan, hkept.shards], fun hc => ?_, fun hc => ?_⟩
    · rw [if_pos hc] at hratio
      rw [hratio, List.append_nil]
    · rw [if_neg (ne_true_of_eq_false hc)] at hratio
      obtain ⟨e, rfl, he⟩ := hratio
      exact ⟨e, rfl, he⟩
  all_goals
    refine State.gives_event rfl hl ?_
    dsimp only
    rw [show ((s.pol p).chan ch.val).tab = some t from ht]
  · exact if_pos ho
  · exact if_neg (ne_true_of_eq_false ho)
  · refine if_pos ?_
    rw [show ((s.pol p).chan ch.val).st = .updating from hu, show ((s.pol p).chan ch.val).held = false from hh,
      decide_eq_true (show ((s.pol p).chan ch.val).snapAt < t.image from ha)]
    rfl
  · refine if_pos ?_
    rw [show ((s.pol p).chan ch.val).st = .updating from hu, show ((s.pol p).chan ch.val).snap = .sending from hs,
      decide_eq_true (show ((s.pol p).chan ch.val).snapAt < t.image from ha)]
    rfl
end Sys2Proof.Machine

/-! PROOFS. The Gauge: its reports and ratios, the release of held updates, and its state image (R410, R414, R417,
R425). -/

namespace Sys2Proof.Machine

/-- A pass in which one element alone makes a difference. -/
theorem foldl_only {α β : Type} {f : α → β → α} {a b : α} {k : β} (hk : f a k = b) (ha : ∀ j, j ≠ k → f a j = a)
    (hb : ∀ j, j ≠ k → f b j = b) {l : List β} (hl : l.Nodup) (hm : k ∈ l) : l.foldl f a = b := by
  induction l with
  | nil => cases hm
  | cons j l ih =>
    obtain ⟨hj, hl⟩ := List.nodup_cons.mp hl
    rw [List.foldl_cons]
    by_cases hjk : j = k
    · subst hjk
      rw [hk]
      exact List.foldlRecOn (motive := (· = b)) l f rfl fun c hc i hi => by
        rw [hc]
        exact hb i fun h => hj (h ▸ hi)
    · rw [ha j hjk]
      exact ih hl ((List.mem_cons.mp hm).resolve_left fun h => hjk h.symm)

/-- What GAUGE_RELEASE does to one channel (R417). -/
def Polder.releaseHeld (x : PolCtx) (q : Polder) (ch : Fin 4) : Polder :=
  match (q.chan ch.val).tab with
  | some t =>
    if (q.chan ch.val).held then (q.setChan ch.val { q.chan ch.val with held := false }).startUpdate x ch t else q
  | none => q

theorem execGaugeRelease_eq (p : Pid) (w : Who) (s : State) : execGaugeRelease p w s =
    .next (s.writePage p (GAU + 0x0C) w fun x q => (List.finRange 4).foldl (Polder.releaseHeld x) q) := rfl

theorem Polder.releaseHeld_free {q : Polder} {ch : Fin 4} (x : PolCtx) (h : (q.chan ch.val).held = false) :
    q.releaseHeld x ch = q := by
  unfold Polder.releaseHeld
  split
  · exact if_neg (by rw [h]; decide)
  · rfl

theorem Polder.releaseHeld_held {q : Polder} {ch : Fin 4} {t : UpdTable} (x : PolCtx) (ht : (q.chan ch.val).tab = some t)
    (h : (q.chan ch.val).held = true) :
    q.releaseHeld x ch = (q.setChan ch.val { q.chan ch.val with held := false }).startUpdate x ch t := by
  unfold Polder.releaseHeld
  rw [ht]
  exact if_pos h

/-- The one held update is released (R417). -/
theorem Polder.foldl_releaseHeld {q : Polder} {ch : Fin 4} {t : UpdTable} (x : PolCtx)
    (ht : (q.chan ch.val).tab = some t) (h : (q.chan ch.val).held = true)
    (ho : ∀ n < 4, n ≠ ch.val → (q.chan n).held = false) :
    (List.finRange 4).foldl (Polder.releaseHeld x) q =
      (q.setChan ch.val { q.chan ch.val with held := false }).startUpdate x ch t := by
  have hk := Polder.PumpKept.startUpdate (q.setChan ch.val { q.chan ch.val with held := false }) x ch t
  refine foldl_only (Polder.releaseHeld_held x ht h) (fun j hj => ?_) (fun j hj => ?_) (List.nodup_finRange 4)
    (List.mem_finRange ch)
  · exact Polder.releaseHeld_free x (ho j.val j.isLt fun e => hj (Fin.ext e))
  · have hne : j.val ≠ ch.val := fun e => hj (Fin.ext e)
    refine Polder.releaseHeld_free x ?_
    rw [hk.others j.val hne, Polder.chan_setChan_ne _ _ hne]
    exact ho j.val j.isLt hne

/-- Reports to the Gauge (R410, R414). -/
theorem Polder.takeAmax_cases (q : Polder) (x : PolCtx) :
    (q.gauge.inbox = [] → q.takeAmax x = q) ∧
    (∀ r rest, q.gauge.inbox = r :: rest →
      (x.scaleEntry q r.tensor = none → q.takeAmax x =
        ((q.onGauge fun g => { g with inbox := rest }).count (GAU + 0x94) 1 16 16).raise GAU 9) ∧
      (∀ e, x.scaleEntry q r.tensor = some e →
        let src := x.cfg q (GAU + 0x54) e.1
        let t := x.sourceT q (bits src 0 16) + x.sourceT q (bits src 16 16)
        let g := { q.gauge with inbox := rest }
        q.takeAmax x = { q with gauge := g.setScale e.1 { g.scale e.1 with
            max := maxMag (g.scale e.1).max (toF32 ((f32 r.value).scale (-t))) } })) := by
  have hent : ∀ (f : Gauge → Gauge) t, x.scaleEntry (q.onGauge f) t = x.scaleEntry q t := fun _ _ => rfl
  refine ⟨fun h => ?_, fun r rest h => ⟨fun hn => ?_, fun e he => ?_⟩⟩
  all_goals
    unfold Polder.takeAmax
    rw [h]
  · dsimp only
    rw [hent, hn]
  · dsimp only
    rw [hent, he]
    rfl

/-- Settles O46: each row is its equation, once a report's maximum and a layer's ratio are said by lemmas of their
own. -/
theorem gaugeTakesReports : Obligations.GaugeTakesReports := by
  intro p s q
  refine ⟨fun hl => ?_, fun w ha => ?_⟩
  · obtain ⟨hnil, hcons⟩ := q.takeAmax_cases (s.ctxOf p)
    have hlay : ∀ (f : Gauge → Gauge) n t, (s.ctxOf p).layerEntry ((q.onGauge f).count (GAU + 0x94) n 0 16) t =
      (s.ctxOf p).layerEntry q t := fun _ _ _ => rfl
    refine ⟨fun h => State.gives_event rfl hl (hnil h), fun r rest h => ?_,
      fun ch h => State.gives_event rfl hl ?_, fun ch t h => ⟨fun hn => ?_, fun i hi => ?_⟩⟩
    · obtain ⟨hnone, hsome⟩ := hcons r rest h
      exact ⟨fun hn => State.gives_event rfl hl (hnone hn), fun e he => State.gives_event rfl hl (hsome e he)⟩
    · rw [h]
    all_goals
      refine State.gives_event rfl hl ?_
      rw [h]
      dsimp only
      rw [hlay]
    · rw [hn]
    · rw [hi]
  · refine ⟨fun h => State.gives_page (execGaugeRelease_eq p w s) ha ?_,
      fun ch t ht h ho => State.gives_page (execGaugeRelease_eq p w s) ha (Polder.foldl_releaseHeld _ ht h ho),
      fun o ho => State.gives_page rfl ha ?_, fun h => State.gives_page rfl ha (if_pos h),
      fun h => State.gives_page rfl ha (if_neg (by rw [h]; decide))⟩
    · exact List.foldl_fixed' (fun ch => Polder.releaseHeld_free _ (h ch.val ch.isLt)) _
    · rw [ho]

end Sys2Proof.Machine

/-! PROOFS. The Warden: watchdogs, resets and their ladders, recovery, and the guilty-context probe (R384 to R405). -/

namespace Sys2Proof.Machine

/-! What leaves the Warden as it was. -/

/-- The Warden and its limits register are left (R391). -/
structure Polder.WardenKept (p q : Polder) : Prop where
  wdn : q.wdn = p.wdn
  limits : q.rd (WDN + 0x40) = p.rd (WDN + 0x40)

theorem Polder.RequestsOnly.warden {p q : Polder} (h : p.RequestsOnly q) : p.WardenKept q :=
  ⟨(congrArg Polder.wdn h.1 :), h.2 _ (by decide) (.inl (by decide))⟩

namespace Polder.WardenKept

theorem refl (p : Polder) : p.WardenKept p := ⟨rfl, rfl⟩

theorem trans {p q r : Polder} (h : p.WardenKept q) (g : q.WardenKept r) : p.WardenKept r :=
  ⟨g.wdn.trans h.wdn, g.limits.trans h.limits⟩

theorem foldl {α : Type} {f : Polder → α → Polder} (hf : ∀ (q : Polder) (a : α), q.WardenKept (f q a)) (l : List α)
    (p : Polder) : p.WardenKept (l.foldl f p) :=
  List.foldlRecOn (motive := fun q : Polder => p.WardenKept q) l f (refl p) fun q hq a _ => hq.trans (hf q a)

theorem ite {p q r : Polder} {c : Prop} [Decidable c] (hq : p.WardenKept q) (hr : p.WardenKept r) :
    p.WardenKept (if c then q else r) := by
  split
  · exact hq
  · exact hr

theorem onMem (p : Polder) (f : Mem → Mem) : p.WardenKept (p.onMem f) := ⟨rfl, rfl⟩
theorem onGrid (p : Polder) (f : Grid → Grid) : p.WardenKept (p.onGrid f) := ⟨rfl, rfl⟩
theorem setEng (p : Polder) (e : Nat) (v : Eng) : p.WardenKept (p.setEng e v) := ⟨rfl, rfl⟩
theorem putEng (p : Polder) (e : Nat) (v : Eng) : p.WardenKept (p.putEng e v) := ⟨rfl, rfl⟩

theorem wr (p : Polder) {off : Nat} (v : W32) (h : WDN + 0x40 ≠ off) : p.WardenKept (p.wr off v) :=
  ⟨rfl, Polder.rd_wr_ne p v h⟩

theorem count (p : Polder) {off : Nat} (n lo width : Nat) (h : WDN + 0x40 ≠ off) :
    p.WardenKept (p.count off n lo width) := wr p _ h

theorem raise (p : Polder) {page : Nat} (bit : Nat) (h1 : WDN + 0x40 ≠ page + 0x14) (h2 : WDN + 0x40 ≠ page + 0x20) :
    p.WardenKept (p.raise page bit) := ⟨rfl, p.rd_raise h1 h2⟩

theorem raiseEng (p : Polder) (e bit : Nat) : p.WardenKept (p.raise (ENGP e) bit) :=
  raise p bit (by unfold WDN ENGP; omega) (by unfold WDN ENGP; omega)

theorem endCmd (p : Polder) (o : Origin) (st : Status) (d : Bool) (v : W64) : p.WardenKept (p.endCmd o st d v) := by
  rw [p.endCmd_eq]
  exact ⟨rfl, rfl⟩

theorem updateHold (p : Polder) : p.WardenKept p.updateHold := by
  obtain ⟨h, hh⟩ := p.updateHold_eq
  rw [hh]
  exact onGrid p _

theorem post (p : Polder) (x : PolCtx) (policy action subject : Nat) (detail : W64) :
    p.WardenKept (p.post x policy action subject detail) := by
  unfold Polder.post
  dsimp only
  split
  · exact (count p _ _ _ (by decide)).trans (raise _ _ (by decide) (by decide))
  · exact ⟨rfl, rfl⟩

theorem postFault (p : Polder) (x : PolCtx) (action target cause : Nat) (code : Status) (inc : BitVec 4) :
    p.WardenKept (p.postFault x action target cause code inc) := post p x _ _ _ _

/-! Pins and images (R217 to R220). -/

theorem countDown (p : Polder) (e : Pte) : p.WardenKept (p.countDown e).1 := by
  unfold Polder.countDown
  split
  · exact raise p _ (by decide) (by decide)
  · split
    · exact raise p _ (by decide) (by decide)
    split
    · exact WardenKept.trans (q := (p.setRef e.refIdx none).onMem _) ⟨rfl, rfl⟩ (count _ _ _ _ (by decide))
    · exact ⟨rfl, rfl⟩

theorem reclaim (p : Polder) (i : KvImage) : p.WardenKept (p.reclaim i).1 :=
  have h : p.WardenKept (i.ptes.foldl (fun (q : Polder × Bool) e => ((q.1.countDown e).1, q.2 && (q.1.countDown e).2))
      (p, true)).1 :=
    List.foldlRecOn (motive := fun q : Polder × Bool => p.WardenKept q.1) i.ptes _ (refl p) fun q hq e _ =>
      hq.trans (countDown q.1 e)
  h.trans ⟨rfl, rfl⟩

theorem retire (p : Polder) (a : Nat) : p.WardenKept (p.retire a).1 := by
  unfold Polder.retire
  split
  · exact refl p
  · dsimp only
    split
    · exact WardenKept.trans (q := p.onMem _) ⟨rfl, rfl⟩ (reclaim _ _)
    · exact ⟨rfl, rfl⟩

theorem writeHead (p : Polder) (x : PolCtx) (k : Nat) : p.WardenKept (p.writeHead x k) := by
  unfold Polder.writeHead
  split <;> exact onMem p _

theorem endHead (p : Polder) (x : PolCtx) (k : Nat) : p.WardenKept (p.endHead x k) := by
  unfold Polder.endHead
  split
  · exact refl p
  · split
    · exact ((retire p _).trans (onMem _ _)).trans (writeHead _ x k)
    · exact refl p

theorem unpin (p : Polder) (x : PolCtx) (a : Nat) : p.WardenKept (p.unpin x a) := by
  unfold Polder.unpin
  split
  · exact refl p
  case h_2 i _ =>
    have h : p.WardenKept ((p.onMem fun m => m.setImage { i with pins := i.pins - 1 }).writePins
      { i with pins := i.pins - 1 }) := ⟨rfl, rfl⟩
    exact (ite (h.trans (reclaim _ _)) h).trans (endHead _ x _)

theorem unpinAll (p : Polder) (x : PolCtx) (l : List Desc) : p.WardenKept (p.unpinAll x l) :=
  foldl (fun q a => unpin q x a) _ p

/-! The end of what runs (R146, R171, R182, R385). -/

theorem askHold (p : Polder) (e : Nat) : p.WardenKept (p.askHold e) := by
  unfold Polder.askHold
  dsimp only
  split
  · exact refl p
  split
  · exact (setEng p _ _).trans (raiseEng _ e 1)
  · exact ite (setEng p _ _) (refl p)

theorem endEngine (x : PolCtx) (p : Polder) (e : Nat) : p.WardenKept (p.endEngine x e) := by
  unfold Polder.endEngine
  dsimp only
  split
  · exact refl p
  · refine WardenKept.trans ?_ (updateHold _)
    have h (v : Eng) (l : List Nat) : p.WardenKept (l.foldl (fun p a => p.unpin x a) (p.setEng e v)) :=
      (setEng p e v).trans (foldl (fun q a => unpin q x a) l _)
    exact ite (h _ _) ((h _ _).trans (raiseEng _ e 6))

theorem plotEnded (p : Polder) (x : PolCtx) (r : Rect) : p.WardenKept (p.plotEnded x r) :=
  foldl (fun q e => endEngine x q e) _ p

theorem finishIssue (p : Polder) (x : PolCtx) (i : Issue) (code : Status) (check : Nat) :
    p.WardenKept (p.finishIssue x i code check) := by
  unfold Polder.finishIssue
  dsimp only
  have h : ∀ q : Polder, p.WardenKept q → p.WardenKept (if check = 0 then q else q.raise GRD 12) := fun q hq =>
    ite hq (hq.trans (raise q _ (by decide) (by decide)))
  have h1 : ∀ q : Polder, p.WardenKept q → p.WardenKept ((q.raise GRD 11).endCmd i.origin code false 0) := fun q hq =>
    (hq.trans (raise q _ (by decide) (by decide))).trans (endCmd _ _ _ _ _)
  refine ite (WardenKept.trans ?_ (plotEnded _ x _)) ?_
  all_goals exact h1 _ (h _ (ite ((onGrid p _).trans (wr _ _ (by decide))) (onGrid p _)))

theorem endPipe (p : Polder) (x : PolCtx) (r : PipeRun) (code : Status) : p.WardenKept (p.endPipe x r code) := by
  unfold Polder.endPipe
  dsimp only
  have h : ∀ q : Polder, p.WardenKept q → p.WardenKept ((q.raise GRD 14).endCmd r.origin code false 0) := fun q hq =>
    (hq.trans (raise q _ (by decide) (by decide))).trans (endCmd _ _ _ _ _)
  refine ite (WardenKept.trans ?_ (foldl (fun q s => plotEnded q x _) _ _)) ?_
  all_goals exact h _ (ite ((onGrid p _).trans (wr _ _ (by decide))) (onGrid p _))

theorem endWork (p : Polder) (x : PolCtx) (r : Rect) (code : Status) (all : Bool) :
    p.WardenKept (p.endWork x r code all) := by
  unfold Polder.endWork
  dsimp only
  split
  · exact ite ((foldl (fun q i => finishIssue q x i code 0) _ p).trans (endPipe _ x _ code))
      (foldl (fun q i => finishIssue q x i code 0) _ p)
  · exact foldl (fun q i => finishIssue q x i code 0) _ p

theorem stopEngine (p : Polder) (x : PolCtx) (e : Nat) : p.WardenKept (p.stopEngine x e) := by
  unfold Polder.stopEngine
  dsimp only
  split
  · exact refl p
  · exact (((putEng p e _).trans (unpinAll _ x _)).trans (askHold _ e)).trans (updateHold _)

theorem stopPlot (p : Polder) (x : PolCtx) (r : Rect) : p.WardenKept (p.stopPlot x r) :=
  (onGrid p _).trans (foldl (fun q e => stopEngine q x e) _ _)

/-! The first cycle of a reset (R386, R387). -/

theorem dropHold (p : Polder) (hit : Nat → Bool) : p.WardenKept (p.dropHold hit) := by
  have h (m : SMap Eng) : p.WardenKept (Polder.updateHold { p with engines := m }) :=
    WardenKept.trans (q := { p with engines := m }) ⟨rfl, rfl⟩ (updateHold _)
  exact h _

theorem resetWork (p : Polder) (x : PolCtx) (d : Dom) : p.WardenKept (p.resetWork x d) := by
  have h := dropHold p (p.hasEng d)
  cases d with
  | plot r => exact h.trans (endWork _ x r _ true)
  | engine e => exact h
  | die k => exact ite (h.trans (endWork _ x _ _ true)) h
  | polder => exact h.trans (foldl (fun q k => endWork q x _ _ true) _ _)
  | power => exact h.trans (foldl (fun q k => endWork q x _ _ true) _ _)

theorem sendHeartbeats (p : Polder) (x : PolCtx) : p.WardenKept (p.sendHeartbeats x) :=
  foldl (fun q d => (q.sendBare_sent x _ _ _ _ d).1.warden) _ p

theorem notifyAll (p : Polder) (x : PolCtx) (kind : BitVec 4) (id : Nat) (inc : BitVec 4) :
    p.WardenKept (p.notifyAll x kind id inc) :=
  foldl (fun q d => (q.sendBare_sent x _ _ _ _ d).1.warden) _ p

end Polder.WardenKept

/-! What the Warden acts on. -/

section
variable {s : State} {p : Pid} {i : Instr} {f : PolCtx → Polder → Polder} {q : Polder}

theorem State.gives_warden (hi : exec i s = .next (s.warden p f)) (hq : f (s.ctxOf p) (s.pol p) = q) :
    s.GivesWdn i p q := by
  subst hq
  exact hi

theorem State.gives_watch (hi : exec i s = s.watch p f) (h : s.wdnLive p = true)
    (hq : f (s.ctxOf p) (s.pol p) = q) : s.GivesWdn i p q :=
  State.gives_warden (hi.trans (congrArg Host.Outcome.next (if_pos h))) hq

end

/-! Halting a plot (R385). -/

section
variable (q : Polder) (x : PolCtx) (r : Rect) (cause : Nat) (code : Status)

theorem Polder.haltPlot_wdn : (q.haltPlot x r cause code).wdn = { q.wdn with cause := causeWord cause 1 0 code } := by
  have h := (WardenKept.stopPlot q x r).trans (.endWork _ x r code false)
  exact congrArg (fun w : Warden => { w with cause := causeWord cause 1 0 code }) h.wdn

theorem Polder.haltPlot_limits : (q.haltPlot x r cause code).rd (WDN + 0x40) = q.rd (WDN + 0x40) := by
  have h := (WardenKept.stopPlot q x r).trans (.endWork _ x r code false)
  exact (Polder.rd_raise _ (by decide) (by decide)).trans h.limits

/-- With RESET_EN clear the plot is left halted (R385). -/
theorem Polder.halt_stays (h : (q.rd (WDN + 0x40)).getLsbD 8 = false) :
    (q.halt x r cause code).wdn =
      { q.wdn with cause := causeWord cause 1 0 code, halted := q.wdn.halted ++ [r] } := by
  have hr : (q.raise WDN 0).rd (WDN + 0x40) = q.rd (WDN + 0x40) := q.rd_raise (by decide) (by decide)
  unfold Polder.halt
  dsimp only
  rw [if_neg (by rw [Polder.haltPlot_limits, hr, h]; decide)]
  exact congrArg (fun w : Warden => { w with halted := w.halted ++ [r] }) (Polder.haltPlot_wdn _ x r cause code)

/-- With it set, a CEILING of 0 forbids the reset (R391). -/
theorem Polder.halt_forbidden (h : (q.rd (WDN + 0x40)).getLsbD 8 = true) (hc : q.ceiling = 0) :
    (q.halt x r cause code).wdn = { q.wdn with cause := causeWord cause 1 0 code } := by
  have hr : (q.raise WDN 0).rd (WDN + 0x40) = q.rd (WDN + 0x40) := q.rd_raise (by decide) (by decide)
  have hl := (Polder.haltPlot_limits (q.raise WDN 0) x r cause code).trans hr
  have hc0 : ((q.raise WDN 0).haltPlot x r cause code).ceiling = 0 := by
    unfold Polder.ceiling at hc ⊢
    rw [hl, hc]
  unfold Polder.halt
  dsimp only
  rw [if_pos (by rw [hl, h])]
  unfold Polder.ownReset
  rw [if_pos (by rw [hc0]; exact Nat.one_pos)]
  exact congrArg (fun w : Warden => { w with cause := causeWord cause 1 0 code })
    (Polder.haltPlot_wdn (q.raise WDN 0) x r cause code)

end

/-- Settles O47: a watchdog's row is a reset or a halt of the Warden; what a halted plot and a reset leave is said
once for all of them. -/
theorem watchdogsHaltAndReset : Obligations.WatchdogsHaltAndReset := by
  refine ⟨fun p s => ?_, fun q x r cause code => ⟨fun h => ?_, fun h hc => ?_⟩⟩
  · intro q x hl
    refine ⟨fun c hp hst hd => ?_, fun h => State.gives_watch rfl hl ?_, fun k cause code h => State.gives_watch rfl hl ?_,
      fun e he hr hd hpr => ?_, fun hf hs hd => State.gives_watch rfl hl ?_, fun k => State.gives_watch rfl hl rfl,
      State.gives_watch rfl hl rfl, State.gives_watch rfl hl rfl, fun j hj hd => ?_, fun i hc hen hup hd => ?_,
      State.gives_warden (congrArg Host.Outcome.next (if_pos hl)) rfl⟩
    · subst hp
      refine State.gives_watch rfl hl (if_pos ?_)
      rw [hst, hd]
      rfl
    · rw [h]
    · rw [h]
    · subst he
      refine State.gives_watch rfl hl (if_neg ?_)
      rw [hd, hpr]
      have hne : (((q.eng e.key).reqs.isEmpty && (q.eng e.key).txns.isEmpty) || false || false) = false := by
        obtain h | h := hr <;> simp [h]
      exact ne_true_of_eq_false hne
    · refine if_neg ?_
      rw [hf, hd]
      simpa using hs
    · have hs : (if j = .pll && s.mod.power = .on then s.onMod fun m => m.count (CLK + 0x44) 1 else s) = s :=
        if_neg (by simp [hj])
      refine State.gives_watch (f := fun x q => if q.dieDown 5 then q else
        ((q.joinLost j).raise WDN 0).ownReset x .polder 7 Status.resetAbort) ?_ hl (if_neg (ne_true_of_eq_false hd))
      exact congrArg (State.watch · p fun x q => if q.dieDown 5 then q else
        ((q.joinLost j).raise WDN 0).ownReset x .polder 7 Status.resetAbort) hs
    · refine State.gives_watch rfl hl (if_pos ?_)
      dsimp only
      rw [hc, hen, hup, hd]
      rfl
  · rw [Polder.halt_stays q x r cause code h]
    exact ⟨rfl, rfl, rfl, rfl, rfl⟩
  · rw [Polder.halt_forbidden q x r cause code h hc]
    exact ⟨rfl, rfl, rfl⟩

/-! A reset that begins (R387, R389, R390, R394, R405). -/

theorem get_bump (m : SMap (BitVec 4)) (k j : Nat) :
    SMap.get (fun _ => (0 : BitVec 4)) (bump m k) j =
      if j = k then SMap.get (fun _ => (0 : BitVec 4)) m j + 1 else SMap.get (fun _ => (0 : BitVec 4)) m j := by
  unfold bump
  rw [SMap.get_set]
  by_cases h : j = k
  · rw [if_pos h, if_pos h, h]
  · rw [if_neg h, if_neg h]

theorem Warden.advance_polderInc (w : Warden) (d : Dom) :
    (w.advance d).polderInc = if d = .polder ∨ d = .power then w.polderInc + 1 else w.polderInc := by
  cases d <;> rfl

theorem Warden.advance_ladders (w : Warden) (d : Dom) : (w.advance d).ladders = w.ladders := by cases d <;> rfl
theorem Warden.advance_cause (w : Warden) (d : Dom) : (w.advance d).cause = w.cause := by cases d <;> rfl
theorem Warden.advance_st (w : Warden) (d : Dom) : (w.advance d).st = w.st := by cases d <;> rfl
theorem Warden.advance_recovs (w : Warden) (d : Dom) : (w.advance d).recovs = w.recovs := by cases d <;> rfl

theorem Warden.advance_engine (w : Warden) (e k : Nat) :
    (w.advance (.engine e)).incOfEng k = if k = e then w.incOfEng k + 1 else w.incOfEng k := by
  have h : (w.advance (.engine e)).incOfEng k = w.incOfDie (k / 16) + SMap.get (fun _ => 0) (bump w.engInc e) k := rfl
  rw [h, get_bump]
  by_cases hk : k = e
  · rw [if_pos hk, if_pos hk, ← BitVec.add_assoc]
    rfl
  · rw [if_neg hk, if_neg hk]
    rfl

theorem Warden.advance_die (w : Warden) (k j : Nat) :
    (w.advance (.die k)).incOfDie j = if j = k then w.incOfDie j + 1 else w.incOfDie j := by
  have h : (w.advance (.die k)).incOfDie j = w.polderInc + SMap.get (fun _ => 0) (bump w.dieInc k) j := rfl
  rw [h, get_bump]
  by_cases hk : j = k
  · rw [if_pos hk, if_pos hk, ← BitVec.add_assoc]
    rfl
  · rw [if_neg hk, if_neg hk]
    rfl

section
variable (q : Polder) (x : PolCtx) (d : Dom) (cause : Nat) (code : Status) (fails : Nat)

/-- A domain that takes the whole polder. -/
def Dom.whole (d : Dom) : Bool := d = .polder || d = .power

/-- The Warden at the start of a reset, before the incarnation advances: the resets inside the domain are gone. -/
def Polder.resetWarden (halted : List Rect) (recent : List (Dom × Nat)) : Warden :=
  { q.wdn with
    ladders := q.wdn.ladders.filter fun l => !q.contains d l.dom
    recovs := q.wdn.recovs.filter fun r => !(d.whole || d == .die (r.die.getD 5))
    halted := halted, cause := causeWord cause d.num d.target code, recent := recent
    st := if d.whole then .resetting else q.wdn.st }

theorem Polder.resetWarden_whole {q : Polder} {d : Dom} (h : d.whole = true) (cause : Nat) (code : Status) (hs : List Rect)
    (rc : List (Dom × Nat)) : (q.resetWarden d cause code hs rc).st = .resetting ∧
      (q.resetWarden d cause code hs rc).recovs = [] := by
  unfold Polder.resetWarden
  rw [h]
  exact ⟨rfl, List.filter_eq_nil_iff.mpr fun _ _ => by rw [Bool.true_or]; decide⟩

theorem Polder.countReset_kept : q.WardenKept (q.countReset d) := by
  cases d <;> exact .count q _ _ _ (by decide)

/-- A reset of the whole polder is told to its peers (R389). -/
def Polder.tellReset : Polder :=
  if d = .polder || d = .power then
    let p := q.onWdn fun w => { w with st := .resetting }
    (p.sendHeartbeats x).notifyAll x 1 (x.ownId p) p.wdn.polderInc
  else q

theorem Polder.tellReset_wdn : (q.tellReset x d).wdn = { q.wdn with st := if d.whole then .resetting else q.wdn.st } := by
  unfold Polder.tellReset Dom.whole
  split
  · exact ((WardenKept.sendHeartbeats _ x).trans (.notifyAll _ x _ _ _)).wdn
  · rfl

/-- What a reset does once its cause stands: its first cycle, its count, its ladder and its record (R387, R394, R405). -/
def Polder.goReset : Polder :=
  let p := (q.tellReset x d).resetWork x d
  let p := p.onWdn fun w => { w.advance d with
    ladders := w.ladders ++ [⟨d, false, false, cause, code, x.ticks, fails⟩] }
  let p := (p.countReset d).raise WDN 2
  let p := if d = .power then p.raise WDN 5 else p
  p.postFault x d.num d.target cause code (p.wdn.incOf d)

theorem Polder.goReset_wdn : (q.goReset x d cause code fails).wdn =
    { Warden.advance { q.wdn with st := if d.whole then .resetting else q.wdn.st } d with
      ladders := q.wdn.ladders ++ [⟨d, false, false, cause, code, x.ticks, fails⟩] } := by
  have h (p : Polder) (inc : BitVec 4) : (Polder.postFault (if d = .power then
      ((p.countReset d).raise WDN 2).raise WDN 5 else (p.countReset d).raise WDN 2) x d.num d.target cause code inc).wdn =
      p.wdn := by
    have hk : p.WardenKept ((p.countReset d).raise WDN 2) :=
      (p.countReset_kept d).trans (.raise _ _ (by decide) (by decide))
    exact ((WardenKept.ite (hk.trans (.raise _ _ (by decide) (by decide))) hk).trans (.postFault _ x _ _ _ _ _)).wdn
  have hw : ((q.tellReset x d).resetWork x d).wdn = { q.wdn with st := if d.whole then .resetting else q.wdn.st } :=
    (WardenKept.resetWork _ x d).wdn.trans (q.tellReset_wdn x d)
  exact (h _ _).trans (congrArg (fun w : Warden => { w.advance d with
    ladders := w.ladders ++ [(⟨d, false, false, cause, code, x.ticks, fails⟩ : Ladder)] }) hw)

/-- The Warden once a reset has begun. -/
theorem Polder.beginReset_wdn : ∃ hs rc, (q.beginReset x d cause code fails).wdn =
    { (q.resetWarden d cause code hs rc).advance d with
      ladders := (q.wdn.ladders.filter fun l => !q.contains d l.dom) ++ [⟨d, false, false, cause, code, x.ticks, fails⟩] } :=
  ⟨_, _, Polder.goReset_wdn (q.onWdn _) x d cause code fails⟩

end


section
variable {p : Pid} {s : State} {w : Who}

theorem State.resetReq_eq (ha : s.Admits p (WDN + 0x44) w) (f : Polder → Option Dom) : s.resetReq p w f =
    .next ((((s.noted w).onPol p fun x q => match f (s.pol p) with
      | some d => q.startReset x d 9 0
      | none => q)).followRails p) := by
  unfold State.resetReq
  rw [s.writePage_eq _ _ _ _ ha]
  rfl

end

/-- A ladder that is under way, and what its events do (R389, R391). -/
theorem State.onLadder_gives {s : State} {p : Pid} {i : Instr} {k : Nat} {l : Ladder}
    {f : PolCtx → Polder → Ladder → Polder} {q : Polder} (hi : exec i s = s.onLadder p k f)
    (hl : (s.pol p).wdn.ladders[k]? = some l) (hw : l.waiting = false) (hc : l.capped = false)
    (hq : f (s.ctxOf p) (s.pol p) l = q) : s.GivesWdn i p q := by
  refine State.gives_warden (f := fun x q => f x q l) (hi.trans ?_) hq
  unfold State.onLadder
  rw [hl]
  exact congrArg Host.Outcome.next (if_neg (by rw [hw, hc]; decide))

/-- Settles O48: every request and every rung goes through the one lemma of what a reset begun leaves the Warden. -/
theorem resetsAreAskedForAndComplete : Obligations.ResetsAreAskedForAndComplete := by
  refine ⟨fun p s w => ?_, fun q x d cause code fails => ?_⟩
  · intro q x asked
    have hasked : ∀ (row : Instr) (f : Polder → Option Dom), exec row s = s.resetReq p w f → asked row (f q) :=
      fun row f hr ha => hr.trans (State.resetReq_eq ha f)
    refine ⟨hasked _ (fun q => if Rect.malformed (q.rd (WDN + 0x48)) then none else some (.plot (q.rd (WDN + 0x48)))) rfl,
      fun t => ⟨hasked _ (fun _ => if t.toNat ≤ 63 then some (.engine t.toNat) else none) rfl,
        hasked _ (fun _ => if t.toNat ≤ 4 then some (.die t.toNat) else none) rfl⟩,
      hasked _ (fun _ => some .polder) rfl, fun hst => hasked _ (fun _ => some .power) (if_neg ?_),
      fun hst hoff hon hden hshut => State.gives_warden (if_pos ?_) rfl,
      fun i l hl => ⟨fun hv hwt => State.gives_watch rfl hv ?_, fun hv hwt => State.gives_watch rfl hv ?_,
        fun hwt hc => ⟨fun hcan => State.onLadder_gives rfl hl hwt hc (if_pos hcan),
          fun hcan => State.onLadder_gives rfl hl hwt hc (if_neg (ne_true_of_eq_false hcan)),
          State.onLadder_gives rfl hl hwt hc rfl⟩⟩⟩
    · simp [show (s.pol p).wdn.st ≠ .failed from hst]
    · have hst : (s.pol p).wdn.st = .failed := hst
      rw [hst, hoff, hon, hden, hshut]
      rfl
    · rw [hl]
      exact if_pos hwt
    · rw [hl]
      exact if_neg (ne_true_of_eq_false hwt)
  · obtain ⟨hs, rc, h⟩ := q.beginReset_wdn x d cause code fails
    have hw : ∀ d : Dom, d.whole = true ↔ d = .polder ∨ d = .power := fun d => by
      unfold Dom.whole
      simp
    intro r
    have hpol : r.wdn.polderInc = _ := (congrArg Warden.polderInc h).trans (Warden.advance_polderInc _ d)
    have hcause : r.wdn.cause = _ := (congrArg Warden.cause h).trans (Warden.advance_cause _ d)
    refine ⟨congrArg Warden.ladders h, hcause, hpol, fun e he => ?_, fun k hk j => ?_, fun hd => ?_⟩
    · subst he
      have heng (k : Nat) : r.wdn.incOfEng k = _ :=
        (congrArg (Warden.incOfEng · k) h).trans (Warden.advance_engine (q.resetWarden (.engine e) cause code hs rc) e k)
      exact ⟨(heng e).trans (if_pos rfl), fun k hk => (heng k).trans (if_neg hk)⟩
    · subst hk
      exact (congrArg (Warden.incOfDie · j) h).trans (Warden.advance_die (q.resetWarden (.die k) cause code hs rc) k j)
    · obtain ⟨hst, hrec⟩ := Polder.resetWarden_whole (q := q) ((hw d).mpr hd) cause code hs rc
      exact ⟨(congrArg Warden.st h).trans ((Warden.advance_st _ d).trans hst),
        (congrArg Warden.recovs h).trans ((Warden.advance_recovs _ d).trans hrec)⟩

/-! The rails that follow the Warden (R397, R398). -/

def Module.rail (m : Module) (p : Pid) : Rail := SMap.get (fun _ => Rail.off) m.rails p.val

theorem Module.powered_iff (m : Module) (p : Pid) : m.powered p = decide (m.rail p = .on) := rfl

theorem Module.Posted.rail {m m' : Module} (h : m.Posted m') (p : Pid) : m'.rail p = m.rail p :=
  congrArg (fun r : SMap Rail => SMap.get (fun _ => Rail.off) r p.val) (congrArg Module.rails h.eq :)

/-- What the rails of a polder are to be by its Warden. -/
def State.railWanted (s : State) (p : Pid) : Rail :=
  if (s.pol p).wdn.st = .failed || (s.pol p).wdn.ladders.any (fun l => l.dom = .power) then Rail.off
  else match (s.pol p).wdn.recovs.find? fun r => r.die.isNone with
    | some r => if r.phase = 2 then .ramping else .on
    | none => s.mod.rail p

theorem State.followRails_eq (s : State) (p : Pid) : s.followRails p =
    if s.railWanted p = s.mod.rail p || (s.mod.rail p = .fault && s.railWanted p = .off) then s
    else s.onMod fun m =>
      let m := { m with rails := SMap.set (fun _ => Rail.off) m.rails p.val (s.railWanted p) }
      if s.railWanted p = .on then m.raise PWR 2 else if s.railWanted p = .off then m.raise PWR 1 else m := rfl

@[simp] theorem State.followRails_pol (s : State) (p r : Pid) : (s.followRails p).pol r = s.pol r := by
  rw [State.followRails_eq]
  split
  · rfl
  · exact State.onMod_pol _ _ _

theorem State.followRails_rail (s : State) (p : Pid) : (s.followRails p).mod.rail p =
    if s.mod.rail p = .fault ∧ s.railWanted p = .off then .fault else s.railWanted p := by
  rw [State.followRails_eq]
  simp only [Bool.or_eq_true, Bool.and_eq_true, decide_eq_true_eq]
  split
  case isTrue h =>
    obtain h | h := h
    · rw [h]
      split
      case isTrue h => exact h.1
      · rfl
    · rw [if_pos h, h.1]
  case isFalse h =>
    rw [if_neg fun hf => h (.inr hf), (State.onMod_mod s _).rail]
    have hset : Module.rail { s.mod with rails := SMap.set (fun _ => Rail.off) s.mod.rails p.val (s.railWanted p) } p =
      s.railWanted p := SMap.get_set_same _ _ _ _
    split
    · rw [(Module.Posted.raise _ _ _).rail, hset]
    · split
      · rw [(Module.Posted.raise _ _ _).rail, hset]
      · exact hset

theorem State.followRails_failed (s : State) (p : Pid) (h : (s.pol p).wdn.st = .failed) :
    (s.followRails p).mod.powered p = false := by
  have hoff : s.railWanted p = .off := by
    unfold State.railWanted
    rw [if_pos (by rw [h]; rfl)]
  rw [Module.powered_iff, State.followRails_rail, hoff]
  split <;> rfl

@[simp] theorem State.warden_pol (s : State) (p : Pid) (f : PolCtx → Polder → Polder) :
    (s.warden p f).pol p = (f (s.ctxOf p) (s.pol p)).sent :=
  (State.followRails_pol _ p p).trans (s.pol_settle p _ _)

theorem State.warden_powered (s : State) (p : Pid) (f : PolCtx → Polder → Polder) :
    (s.warden p f).mod.powered p = ((s.onPol p f).followRails p).mod.powered p := rfl

/-! Recovery (R397 to R399). -/

section
variable (p : Polder) (x : PolCtx) (r : Recov)

theorem Polder.repair_wdn : p.repair.wdn = p.wdn :=
  List.foldlRecOn (motive := fun q : Polder => q.wdn = p.wdn) (List.range 8) _ rfl fun _ hq _ _ => hq

/-- The recovery under way goes on to a phase (R397). -/
def Polder.toPhase (q : Polder) (n : Nat) : Polder :=
  q.onWdn fun w => { w with recovs := w.recovs.map fun a => if a = r then { r with phase := n } else a }

/-- A phase done leads to the next one; the sixth waits for the keeper die, and the last ends the recovery. -/
theorem Polder.phaseDone_cases :
    (r.phase < 5 → p.phaseDone x r = p.toPhase r (r.phase + 1)) ∧
    (r.phase = 5 → p.phaseDone x r = (if r.die.isNone then p.repair else p).toPhase r 6) ∧
    (r.phase = 6 → x.mod.keeper ≠ .ready → p.phaseDone x r = p) ∧
    (r.phase = 6 → x.mod.keeper = .ready → ∃ l, p.phaseDone x r = Polder.toPhase r { p with unrestored := l } 7) ∧
    (r.phase = 7 → p.phaseDone x r = (if r.die.isNone
      then (p.onWdn fun w => { w with recovs := w.recovs.erase r }).onWdn fun w => { w with st := .ready }
      else p.onWdn fun w => { w with recovs := w.recovs.erase r }).raise WDN 6) := by
  unfold Polder.phaseDone
  refine ⟨fun h => ?_, fun h => ?_, fun h hk => ?_, fun h hk => ?_, fun h => ?_⟩
  · dsimp only
    split
    · omega
    · omega
    · omega
    · rfl
  · rw [h]
    rfl
  · rw [h]
    exact if_pos hk
  · rw [h]
    exact ⟨_, if_neg (not_not.mpr hk)⟩
  · rw [h]
    rfl

end

theorem map_first {α : Type} [DecidableEq α] (r a : α) (rest : List α) (h : ∀ b ∈ rest, b ≠ r) :
    (r :: rest).map (fun b => if b = r then a else b) = a :: rest := by
  rw [List.map_cons, if_pos rfl]
  refine congrArg (a :: ·) ?_
  refine (List.map_congr_left fun b hb => ?_).trans (List.map_id rest)
  exact if_neg (h b hb)

/-- A polder fails (R398). -/
theorem Polder.failed_wdn (p : Polder) (x : PolCtx) (cause : Nat) : (p.failed x cause).wdn.st = .failed ∧
    (p.failed x cause).wdn.recovs = [] ∧ (p.failed x cause).wdn.ladders = [] := ⟨rfl, rfl, rfl⟩

/-! The probe (R402, R404). -/

theorem Polder.endProbe_wdn (p : Polder) (n : Nat) : (p.endProbe n).wdn = { p.wdn with
    probe := { p.wdn.probe with st := n, armed := false }
    st := if p.wdn.st = .probing then .running else p.wdn.st } := by
  unfold Polder.endProbe
  dsimp only
  split <;> rfl

theorem Polder.post_heldCtx (p : Polder) (x : PolCtx) (policy action subject : Nat) (detail : W64) :
    (p.post x policy action subject detail).heldCtx = p.heldCtx := by
  unfold Polder.post
  dsimp only
  split <;> rfl

/-- A phase done of the recovery begun first, of one kind (R397). -/
theorem exec_recoveryPhaseDone {s : State} {p : Pid} {r : Recov} {rest : List Recov} {q : Polder}
    (h : (s.pol p).wdn.recovs = r :: rest) (hq : (s.pol p).phaseDone (s.ctxOf p) r = q) :
    s.GivesWdn (.recoveryPhaseDone p) p q := by
  refine State.gives_warden (f := fun x q => q.phaseDone x r) ?_ hq
  show execRecoveryPhaseDone p s = _
  unfold execRecoveryPhaseDone
  rw [h]

theorem exec_recoveryPhaseTimeout {s : State} {p : Pid} {r : Recov} {rest : List Recov} {q : Polder}
    (h : (s.pol p).wdn.recovs = r :: rest)
    (hq : (if r.fails = 0 then
        if (s.pol p).ceiling < 5 then (s.pol p).raise WDN 10 else (s.pol p).beginReset (s.ctxOf p) .power 10 0 1
      else (((s.pol p).failed (s.ctxOf p) 10).raise WDN 7).postFault (s.ctxOf p) 6 0 10 0 (s.pol p).wdn.polderInc) = q) :
    s.GivesWdn (.recoveryPhaseTimeout p) p q := by
  refine State.gives_warden (f := fun x q => if r.fails = 0 then
        if q.ceiling < 5 then q.raise WDN 10 else q.beginReset x .power 10 0 1
      else ((q.failed x 10).raise WDN 7).postFault x 6 0 10 0 q.wdn.polderInc) ?_ hq
  show execRecoveryPhaseTimeout p s = _
  unfold execRecoveryPhaseTimeout
  rw [h]

theorem State.GivesWdn.pol {s : State} {i : Instr} {p : Pid} {q : Polder} (h : s.GivesWdn i p q) :
    ∃ t, exec i s = .next t ∧ t.pol p = q.sent ∧ (q.wdn.st = .failed → t.mod.powered p = false) :=
  ⟨_, h, s.warden_pol p _, fun hf => State.followRails_failed _ p (by rw [State.pol_onPol]; exact hf)⟩

/-- Recovery (R397 to R399). -/
theorem recoveryRuns (p : Pid) (s : State) :
    let q := s.pol p
    let x := s.ctxOf p
    (∀ (r : Recov) (rest : List Recov), q.wdn.recovs = r :: rest → (∀ a ∈ rest, a ≠ r) →
      let goes := fun (n : Nat) => ∃ t, exec (.recoveryPhaseDone p) s = .next t ∧
        (t.pol p).wdn.recovs = { r with phase := n } :: rest ∧ (t.pol p).wdn.st = q.wdn.st
      (r.phase < 5 → goes (r.phase + 1)) ∧ (r.phase = 5 → goes 6) ∧
      (r.phase = 6 → s.mod.keeper = .ready → goes 7) ∧
      (r.phase = 6 → s.mod.keeper ≠ .ready → s.GivesWdn (.recoveryPhaseDone p) p q) ∧
      (r.phase = 7 → ∃ t, exec (.recoveryPhaseDone p) s = .next t ∧ (t.pol p).wdn.recovs = rest ∧
        (t.pol p).wdn.st = if r.die = none then .ready else q.wdn.st) ∧
      (r.fails = 0 → q.ceiling < 5 → s.GivesWdn (.recoveryPhaseTimeout p) p (q.raise WDN 10)) ∧
      (r.fails = 0 → 5 ≤ q.ceiling → s.GivesWdn (.recoveryPhaseTimeout p) p (q.beginReset x .power 10 0 1)) ∧
      (r.fails ≠ 0 → ∃ t, exec (.recoveryPhaseTimeout p) s = .next t ∧ (t.pol p).wdn.st = .failed ∧
        (t.pol p).wdn.recovs = [] ∧ (t.pol p).wdn.ladders = [] ∧ t.mod.powered p = false)) := by
  intro q x r rest h hne goes
  have hgoes (a : Polder) (n : Nat) (ha : a.wdn = q.wdn) (hq : q.phaseDone x r = a.toPhase r n) : goes n := by
    obtain ⟨t, he, ht, -⟩ := (exec_recoveryPhaseDone h hq).pol
    refine ⟨t, he, ?_, ?_⟩
    · rw [ht]
      show a.wdn.recovs.map (fun b => if b = r then { r with phase := n } else b) = _
      rw [ha, h]
      exact map_first r _ rest hne
    · rw [ht]
      show a.wdn.st = _
      rw [ha]
  obtain ⟨h4, h5, h6, h6r, h7⟩ := q.phaseDone_cases x r
  refine ⟨fun hp => hgoes q _ rfl (h4 hp), fun hp => hgoes _ _ ?_ (h5 hp), fun hp hk => ?_, fun hp hk => ?_, fun hp => ?_,
    fun hf hc => exec_recoveryPhaseTimeout h ((if_pos hf).trans (if_pos hc)),
    fun hf hc => exec_recoveryPhaseTimeout h ((if_pos hf).trans (if_neg (Nat.not_lt.mpr hc))), fun hf => ?_⟩
  · split
    · exact q.repair_wdn
    · rfl
  · obtain ⟨l, hl⟩ := h6r hp hk
    exact hgoes { q with unrestored := l } 7 rfl hl
  · exact exec_recoveryPhaseDone h (h6 hp hk)
  · obtain ⟨t, he, ht, -⟩ := (exec_recoveryPhaseDone h (h7 hp)).pol
    refine ⟨t, he, ?_⟩
    rw [ht]
    have hrec : q.wdn.recovs.erase r = rest := by
      rw [h]
      exact List.erase_cons_head ..
    cases hd : r.die with
    | none => exact ⟨hrec, rfl⟩
    | some d => exact ⟨hrec, rfl⟩
  · obtain ⟨t, he, ht, hoff⟩ := (exec_recoveryPhaseTimeout h (if_neg hf)).pol
    have hfail := q.failed_wdn x 10
    generalize (s.pol p).failed (s.ctxOf p) 10 = z at ht hoff hfail
    obtain ⟨h1, h2, h3⟩ := hfail
    have hw : ((z.raise WDN 7).postFault x 6 0 10 0 q.wdn.polderInc).wdn = z.wdn :=
      (Polder.WardenKept.postFault _ x 6 0 10 0 q.wdn.polderInc).wdn
    have hw' : (t.pol p).wdn = z.wdn := (congrArg Polder.wdn ht).trans hw
    exact ⟨t, he, by rw [hw', h1], by rw [hw', h2], by rw [hw', h3], hoff ((congrArg Warden.st hw).trans h1)⟩

/-- A probe whose last batch has passed ends without a verdict (R402). -/
theorem exec_probeBatchDone_last {s : State} {p : Pid} (hl : s.wdnLive p = true) (hst : (s.pol p).wdn.probe.st = 1)
    (hans : ((s.pol p).eng (s.pol p).wdn.probe.eng).reqs.all (fun r => r.answer.isSome) = true)
    (hn : (s.pol p).wdn.probe.suspects.length ≤ (s.pol p).wdn.probe.at_ + 1) :
    ∃ t, exec (.probeBatchDone p) s = .next t ∧ (t.pol p).wdn.probe.st = 3 ∧ (t.pol p).heldCtx = [] ∧
      (t.pol p).wdn.st = if (s.pol p).wdn.st = .probing then .running else (s.pol p).wdn.st := by
  have hg : s.GivesWdn (.probeBatchDone p) p ((((s.pol p).endProbe 3).raise WDN 9).postFault (s.ctxOf p) 8
      (s.pol p).wdn.probe.eng 11 0 ((((s.pol p).endProbe 3).raise WDN 9).wdn.incOfEng (s.pol p).wdn.probe.eng)) := by
    refine State.gives_watch rfl hl ((if_neg ?_).trans (if_neg (Nat.not_lt.mpr hn)))
    rw [hst, hans]
    decide
  obtain ⟨t, he, ht, -⟩ := hg.pol
  have hw := (Polder.WardenKept.postFault (((s.pol p).endProbe 3).raise WDN 9) (s.ctxOf p) 8 (s.pol p).wdn.probe.eng 11 0
    ((((s.pol p).endProbe 3).raise WDN 9).wdn.incOfEng (s.pol p).wdn.probe.eng)).wdn.trans ((s.pol p).endProbe_wdn 3)
  have hw' := (congrArg Polder.wdn ht).trans hw
  have hh := (congrArg Polder.heldCtx ht).trans (Polder.post_heldCtx (((s.pol p).endProbe 3).raise WDN 9) _ _ _ _ _)
  exact ⟨t, he, by rw [hw'], hh, by rw [hw']⟩

/-- Settles O49: recovery goes phase by phase, and the probe suspect by suspect, each a case of its row. -/
theorem recoveryAndProbesRunTheirPhases : Obligations.RecoveryAndProbesRunTheirPhases := by
  refine ⟨fun p s => ⟨recoveryRuns p s, fun w ha => ⟨fun h => State.gives_page rfl ha (if_pos h),
    fun h => State.gives_page rfl ha (if_neg h)⟩⟩, fun p s => ?_⟩
  intro q x b answered
  refine ⟨fun hl => ⟨fun h => State.gives_watch rfl hl (if_pos ?_), fun ha hb hd hr1 hr2 => State.gives_watch rfl hl (if_neg ?_),
    fun hb hans hn => State.gives_watch rfl hl ((if_neg ?_).trans (if_pos hn)), exec_probeBatchDone_last hl,
    fun hb hans => State.gives_watch rfl hl (if_neg ?_)⟩,
    fun w ha => ⟨fun hst => State.gives_page rfl ha (if_neg (ne_true_of_eq_false hst)),
      fun hst => State.gives_page rfl ha (if_pos hst)⟩⟩
  · have hstop : (!b.armed || b.st = 1 || q.engDown b.eng || q.wdn.st = .resetting || q.wdn.st = .recovering) = true := by
      obtain h | h := h <;> simp [h]
    exact hstop
  · have hgo : (!b.armed || b.st = 1 || q.engDown b.eng || q.wdn.st = .resetting || q.wdn.st = .recovering) = false := by
      simp [ha, hb, hd, hr1, hr2]
    exact ne_true_of_eq_false hgo
  · have hgo : (b.st ≠ 1 || !answered) = false := by simp [hb, hans]
    exact ne_true_of_eq_false hgo
  · have hgo : (b.st ≠ 1 || answered) = false := by simp [hb, hans]
    exact ne_true_of_eq_false hgo

end Sys2Proof.Machine

/-! PROOFS. The command queues: fetching, dispatch, and the effect of each command (R402, R404, R429 to R436, R441,
R470, R473). -/

namespace Sys2Proof.Machine

/-! What posting leaves of a slot and of the registers. -/

@[simp] theorem Module.notifyFrom_slot (m : Module) (b : Bool) (k : Fin 64) : (m.notifyFrom b).slot k = m.slot k := by
  unfold Module.notifyFrom
  split <;> rfl

@[simp] theorem Module.notifyFrom_rd (m : Module) (b : Bool) (off place : Nat) :
    (m.notifyFrom b).rd off place = m.rd off place := by
  unfold Module.notifyFrom
  split <;> rfl

@[simp] theorem Module.setSlot_rd (m : Module) (k : Fin 64) (v : Slot) (off place : Nat) :
    (m.setSlot k v).rd off place = m.rd off place := rfl

theorem Module.setSlot_slot (m : Module) (k : Fin 64) (v : Slot) : (m.setSlot k v).slot k = v := by
  rw [Module.slot_setSlot, if_pos rfl]

@[simp] theorem Module.wr_slot (m : Module) (off : Nat) (v : W32) (place : Nat) (k : Fin 64) :
    (m.wr off v place).slot k = m.slot k := rfl
@[simp] theorem Module.raise_slot (m : Module) (page bit : Nat) (k : Fin 64) : (m.raise page bit).slot k = m.slot k := rfl
@[simp] theorem Module.count_slot (m : Module) (off n lo width place : Nat) (k : Fin 64) :
    (m.count off n lo width place).slot k = m.slot k := rfl

@[simp] theorem Module.sendMsix_slot (m : Module) (n : Nat) (k : Fin 64) : (m.sendMsix n).slot k = m.slot k := rfl

theorem Module.rd_wr_same (m : Module) (off : Nat) (v : W32) (place : Nat) : (m.wr off v place).rd off place = v :=
  SMap.get_set_same _ _ _ _

theorem Module.rd_wr_ne (m : Module) {off at_ place at' : Nat} (v : W32)
    (h : off + 2 ^ 32 * place ≠ at_ + 2 ^ 32 * at') : (m.wr at_ v at').rd off place = m.rd off place :=
  SMap.get_set_ne _ _ _ h

/-- Posting of completions keeps a slot's commands and its place in the submission ring, and every register. -/
theorem Module.postAll_slot (n : Nat) (m : Module) (k : Fin 64) :
    ((Module.postAll n m k).slot k).cmds = (m.slot k).cmds ∧ ((Module.postAll n m k).slot k).sqHead = (m.slot k).sqHead ∧
      ∀ off place, (Module.postAll n m k).rd off place = m.rd off place := by
  induction n generalizing m with
  | zero => exact ⟨rfl, rfl, fun _ _ => rfl⟩
  | succ n ih =>
    unfold Module.postAll
    dsimp only
    split
    · exact ⟨rfl, rfl, fun _ _ => rfl⟩
    · split
      · exact ⟨rfl, rfl, fun _ _ => rfl⟩
      · refine ⟨(ih _).1.trans ?_, (ih _).2.1.trans ?_, (ih _).2.2⟩
        · rw [Module.sendMsix_slot, Module.setSlot_slot]
        · rw [Module.sendMsix_slot, Module.setSlot_slot]

section
variable {k : Fin 64} {s : State} {e : BitVec 1024}

/-- The command an entry becomes when it is admitted (R436). -/
def Module.admitted (m : Module) (k : Fin 64) (e : BitVec 1024) : Cmd :=
  ⟨entryTag e, e, m.slotCtx k, .ready, false, BitVec.ofNat 12 (((m.slot k).sqHead.toNat + 1) % m.sqSize k)⟩

theorem Module.fetch_full (m : Module) (h : m.cqFull k = true) : m.fetch k e =
    if (m.slot k).stalled then m else (m.setSlot k { m.slot k with stalled := true }).raise KQ 4 := by
  unfold Module.fetch
  rw [if_pos h]

/-- Over quota: refused, and counted (R436). -/
theorem Module.fetch_over (m : Module) (h : m.cqFull k = false)
    (hq : bitsN (m.cfg (KQ + 0x48) k.val) 16 12 < (m.slot k).out + 1) :
    ((m.fetch k e).slot k).cmds = (m.slot k).cmds ∧
    ((m.fetch k e).slot k).sqHead = BitVec.ofNat 12 (((m.slot k).sqHead.toNat + 1) % m.sqSize k) ∧
    (m.fetch k e).rd (KQ + 0x6C) (1 + k.val) = addField (m.rd (KQ + 0x6C) (1 + k.val)) 0 32 1 := by
  have hr (m : Module) (bit : Nat) : (m.raise KQ bit).rd (KQ + 0x6C) (1 + k.val) = m.rd (KQ + 0x6C) (1 + k.val) :=
    (Module.rd_wr_ne _ _ (by omega)).trans (Module.rd_wr_ne _ _ (by omega))
  have href (m : Module) (tag : BitVec 16) (st : Status) (head : BitVec 12) :
      ((m.refuseCmd k tag st head).slot k).cmds = (m.slot k).cmds ∧
      ((m.refuseCmd k tag st head).slot k).sqHead = (m.slot k).sqHead ∧
      (m.refuseCmd k tag st head).rd (KQ + 0x6C) (1 + k.val) = m.rd (KQ + 0x6C) (1 + k.val) := by
    obtain ⟨h1, h2, h3⟩ := Module.postAll_slot ((m.slot k).unposted.length + 1)
      (m.setSlot k { m.slot k with unposted := (m.slot k).unposted ++ [(⟨k, tag, st, false, 0⟩, head)] }) k
    rw [Module.setSlot_slot] at h1 h2
    exact ⟨h1, h2, h3 _ _⟩
  unfold Module.fetch
  dsimp only
  rw [if_neg (ne_true_of_eq_false h), if_pos hq]
  obtain ⟨h1, h2, h3⟩ := href (((m.setSlot k { m.slot k with
      sqHead := BitVec.ofNat 12 (((m.slot k).sqHead.toNat + 1) % m.sqSize k), stalled := false }).count (KQ + 0x6C) 1
      (place := 1 + k.val)).raise KQ 0) (entryTag e) Status.refusedQuota
      (BitVec.ofNat 12 (((m.slot k).sqHead.toNat + 1) % m.sqSize k))
  rw [Module.raise_slot, Module.count_slot, Module.setSlot_slot] at h1 h2
  exact ⟨h1, h2, (h3.trans (hr _ 0)).trans (Module.rd_wr_same _ _ _ _)⟩

/-- Within the guarantee an entry is ready at once; above it, it waits (R436). -/
theorem Module.fetch_admits (m : Module) (h : m.cqFull k = false)
    (hq : (m.slot k).out + 1 ≤ bitsN (m.cfg (KQ + 0x48) k.val) 16 12) (ho : m.outstanding < 2048) :
    (m.fetch k e).slot k = { m.slot k with
      sqHead := (m.admitted k e).sqh, stalled := false
      cmds := (m.slot k).cmds ++ [{ m.admitted k e with
        phase := if (m.slot k).out + 1 ≤ bitsN (m.cfg (KQ + 0x48) k.val) 0 12 then .ready else .waiting
        deferred := !decide ((m.slot k).out + 1 ≤ bitsN (m.cfg (KQ + 0x48) k.val) 0 12) }] } := by
  unfold Module.fetch
  dsimp only
  rw [if_neg (ne_true_of_eq_false h), if_neg (by omega), if_neg (by omega), Module.setSlot_slot, Module.setSlot_slot]
  simp only [Module.admitted]
  rfl

end

section
variable {k : Fin 64} {s : State} {e : BitVec 1024}

@[simp] theorem State.onMod_slot (s : State) (f : Module → Module) (k : Fin 64) :
    (s.onMod f).mod.slot k = (f s.mod).slot k := Module.notifyFrom_slot _ _ _

@[simp] theorem State.onMod_modRd (s : State) (f : Module → Module) (off place : Nat) :
    (s.onMod f).mod.rd off place = (f s.mod).rd off place := Module.notifyFrom_rd _ _ _ _

theorem State.onMod_congr (s : State) {f g : Module → Module} (h : f s.mod = g s.mod) : s.onMod f = s.onMod g := by
  unfold State.onMod
  rw [h]

/-- A served slot with an entry fetches it (R431, R439). -/
theorem exec_commandFetch (hp : s.mod.power = .on) (hk : s.mod.keeper = .ready ∨ s.mod.keeper = .noImage)
    (hen : (s.mod.kq 0x5C k).getLsbD 16 = true) (hb : s.mod.slotCtx k ≠ 0xFFFF)
    (hne : (s.mod.slot k).sqHead.toNat % s.mod.sqSize k ≠ (s.mod.slot k).sqTail.toNat % s.mod.sqSize k) :
    exec (.commandFetch k e) s = .next (s.onMod fun m => m.fetch k e) := by
  refine congrArg Host.Outcome.next (if_pos ?_)
  rw [hp, hen]
  have hs : (decide (s.mod.keeper = .ready) || decide (s.mod.keeper = .noImage)) = true := by simpa using hk
  rw [hs, decide_eq_true hb, decide_eq_true hne]
  rfl

/-- Dispatch goes on with a command that the slot holds, while the queues are served (R435, R439). -/
theorem exec_commandDispatch {tag : BitVec 16} {c : Cmd} (hp : s.mod.power = .on)
    (hk : s.mod.keeper = .ready ∨ s.mod.keeper = .noImage) (hc : (s.mod.slot k).find tag = some c) :
    exec (.commandDispatch k tag) s = .next (if s.mod.mayDispatch k c then s.dispatch k c else s) := by
  refine congrArg Host.Outcome.next ((if_pos ?_).trans ?_)
  · rw [hp]
    obtain hk | hk := hk <;> simp [hk]
  · rw [hc]

/-- The doorbells and the fetch of an entry (R431, R436). -/
theorem queuesFetch (k : Fin 64) (s : State) (e : BitVec 1024) (v : W32) (hp : s.mod.power = .on) :
    let m := s.mod
    let b := m.slot k
    let n := m.sqSize k
    let quota := m.cfg (KQ + 0x48) k.val
    let c : Cmd := ⟨entryTag e, e, m.slotCtx k, .ready, false, BitVec.ofNat 12 ((b.sqHead.toNat + 1) % n)⟩
    (exec (.sqTailDoorbell k v) s = .next (s.onMod fun m => m.setSlot k { b with sqTail := bits v 0 12 })) ∧
    (exec (.cqHeadDoorbell k v) s = .next (s.onMod fun m =>
      Module.postAll b.unposted.length (m.setSlot k { b with cqHead := bits v 0 12 }) k)) ∧
    (m.keeper = .ready ∨ m.keeper = .noImage → (m.kq 0x5C k).getLsbD 16 = true → m.slotCtx k ≠ 0xFFFF →
      b.sqHead.toNat % n ≠ b.sqTail.toNat % n →
      (m.cqFull k = true → b.stalled = true → exec (.commandFetch k e) s = .next (s.onMod id)) ∧
      (m.cqFull k = true → b.stalled = false → exec (.commandFetch k e) s =
        .next (s.onMod fun m => (m.setSlot k { b with stalled := true }).raise KQ 4)) ∧
      (m.cqFull k = false → bitsN quota 16 12 < b.out + 1 → ∃ t, exec (.commandFetch k e) s = .next t ∧
        (t.mod.slot k).cmds = b.cmds ∧ (t.mod.slot k).sqHead = BitVec.ofNat 12 ((b.sqHead.toNat + 1) % n) ∧
        t.mod.rd (KQ + 0x6C) (1 + k.val) = addField (m.rd (KQ + 0x6C) (1 + k.val)) 0 32 1) ∧
      (m.cqFull k = false → b.out + 1 ≤ bitsN quota 16 12 → m.outstanding < 2048 → b.out + 1 ≤ bitsN quota 0 12 →
        ∃ t, exec (.commandFetch k e) s = .next t ∧
          t.mod.slot k = { b with sqHead := c.sqh, stalled := false, cmds := b.cmds ++ [c] }) ∧
      (m.cqFull k = false → b.out + 1 ≤ bitsN quota 16 12 → m.outstanding < 2048 → bitsN quota 0 12 < b.out + 1 →
        ∃ t, exec (.commandFetch k e) s = .next t ∧ t.mod.slot k = { b with
          sqHead := c.sqh, stalled := false, cmds := b.cmds ++ [{ c with phase := .waiting, deferred := true }] })) := by
  intro m b n quota c
  refine ⟨congrArg Host.Outcome.next (if_pos hp), congrArg Host.Outcome.next (if_pos hp), fun hk hen hb hne => ?_⟩
  have hx := exec_commandFetch (e := e) hp hk hen hb hne
  refine ⟨fun hf hst => hx.trans (congrArg Host.Outcome.next (State.onMod_congr s ?_)),
    fun hf hst => hx.trans (congrArg Host.Outcome.next (State.onMod_congr s ?_)),
    fun hf hq => ⟨_, hx, ?_⟩, fun hf hq ho hg => ⟨_, hx, ?_⟩, fun hf hq ho hg => ⟨_, hx, ?_⟩⟩
  · exact (Module.fetch_full m hf).trans (if_pos hst)
  · exact (Module.fetch_full m hf).trans (if_neg (ne_true_of_eq_false hst))
  · rw [State.onMod_slot, State.onMod_modRd]
    exact Module.fetch_over m hf hq
  · rw [State.onMod_slot, Module.fetch_admits m hf hq ho, if_pos hg, decide_eq_true hg]
    rfl
  · rw [State.onMod_slot, Module.fetch_admits m hf hq ho, if_neg (Nat.not_le.mpr hg), decide_eq_false (Nat.not_le.mpr hg)]
    rfl

end

section
variable {s : State} {k : Fin 64} {c : Cmd} {q : Pid} (hk : s.mod.keeper = .ready)
include hk

theorem State.dispatch_bad (he : entryOk c.entry = false) : s.dispatch k c = s.endNow k c.tag Status.internal := by
  unfold State.dispatch
  dsimp only
  rw [if_neg (by simp [hk]), if_pos (by rw [he]; rfl)]

/-- The checks of a command of a polder, in their order (R393, R402, R404, R443). -/
theorem State.dispatch_pol (he : entryOk c.entry = true) (ht : entryTarget c.entry = some q) : s.dispatch k c =
    if (s.pol q).quarantined c.ctx then s.endNow k c.tag Status.internal
    else if s.targetDown q (entryByte c.entry 0) then (s.standIn q).endNow k c.tag Status.resetAbort
    else if (s.pol q).heldCtx.contains c.ctx then s.holdCmd k c.tag
    else if startOp (entryByte c.entry 0) && s.mod.commit.isSome && (s.pol q).wdn.st = .running then s.holdCmd k c.tag
    else if entryGen c.entry ≠ 0 && entryGen c.entry ≠ s.mod.active.gen then s.endNow k c.tag Status.genMismatch
    else if entryByte c.entry 0 = 0x40 && s.mod.loading.isSome then s.endNow k c.tag Status.refusedBusy
    else s.onMod fun m =>
      (if entryByte c.entry 0 = 0x40 then { m with loading := some (k, c.tag) } else m).updCmd k c.tag fun c =>
        { c with phase := .dispatched } := by
  unfold State.dispatch
  dsimp only
  rw [if_neg (by simp [hk]), if_neg (by rw [he]; decide), ht]

end

/-- Settles O50: fetching and dispatch are read case by case in the order of their checks. -/
theorem queuesFetchAndDispatchCommands : Obligations.QueuesFetchAndDispatchCommands := by
  refine ⟨queuesFetch, fun k tag s c hp hc => ?_⟩
  intro op row ends
  have hx (hk : s.mod.keeper = .ready ∨ s.mod.keeper = .noImage) := exec_commandDispatch hp hk hc
  refine ⟨fun hk hm => (hx hk).trans (congrArg Host.Outcome.next (if_neg (ne_true_of_eq_false hm))),
    fun hk hm h40 h41 h50 => (hx (.inr hk)).trans (congrArg Host.Outcome.next ((if_pos hm).trans ?_)),
    fun hk hm => ?_⟩
  · refine if_pos ?_
    rw [hk]
    simp only [decide_true, Bool.true_and, Bool.not_eq_true', Bool.or_eq_false_iff, beq_eq_false_iff_ne]
    exact ⟨⟨h40, h41⟩, h50⟩
  · have hd {t : State} (h : s.dispatch k c = t) : exec row s = .next t :=
      (hx (.inl hk)).trans (congrArg Host.Outcome.next ((if_pos hm).trans h))
    refine ⟨fun he => hd (State.dispatch_bad hk he), fun q he ht => ?_⟩
    have hpol := State.dispatch_pol (k := k) hk he ht
    intro p
    refine ⟨fun hq => hd (hpol.trans (if_pos hq)), fun hq hdn => hd (hpol.trans ?_), fun hq hdn => ?_⟩
    · rw [if_neg (ne_true_of_eq_false hq), if_pos hdn]
    · rw [if_neg (ne_true_of_eq_false hq), if_neg (ne_true_of_eq_false hdn)] at hpol
      refine ⟨fun hh => hd (hpol.trans (if_pos hh)), fun hh => ?_⟩
      rw [if_neg (ne_true_of_eq_false hh)] at hpol
      refine ⟨fun hs hcm hr => hd (hpol.trans (if_pos ?_)), fun hs => ?_⟩
      · have hs : startOp (entryByte c.entry 0) = true := hs
        have hr : (s.pol q).wdn.st = .running := hr
        rw [hs, hcm, hr]
        rfl
      · have hno : (startOp (entryByte c.entry 0) && s.mod.commit.isSome && decide ((s.pol q).wdn.st = .running)) = false := by
          obtain hs | hs := hs
          · rw [show startOp (entryByte c.entry 0) = false from hs]
            rfl
          · rw [hs, Option.isSome_none, Bool.and_false]
            rfl
        rw [if_neg (ne_true_of_eq_false hno)] at hpol
        refine ⟨fun h0 hg => hd (hpol.trans (if_pos ?_)), fun hg h40 => hd (hpol.trans ((if_neg ?_).trans ((if_neg ?_).trans ?_)))⟩
        · rw [decide_eq_true h0, decide_eq_true hg]
          rfl
        · obtain hg | hg := hg <;> simp [hg]
        · simp [show ¬ entryByte c.entry 0 = 0x40 from h40]
        · refine State.onMod_congr s ?_
          exact congrArg (Module.updCmd · k c.tag fun c => { c with phase := .dispatched }) (if_neg h40)

/-! The effect of a dispatched command (R434). -/

section
variable {s : State} {k : Fin 64} {tag : BitVec 16} {op : Nat} {c : Cmd} {q : Pid}

theorem State.runCmd_eq (h : s.Runs k tag op c) (f : State → Cmd → State) : s.runCmd k tag op f = f s c := by
  obtain ⟨hp, hc, hph, hop⟩ := h
  unfold State.runCmd
  rw [if_neg (not_not.mpr hp), hc]
  exact if_pos (by rw [hph, hop]; simp)

theorem State.runPol_eq (h : s.RunsAt k tag op c q) (f : State → Cmd → Pid → State) : s.runPol k tag op f = f s c q := by
  obtain ⟨hr, ht, hd, hs⟩ := h
  unfold State.runPol
  rw [State.runCmd_eq hr, ht]
  dsimp only
  rw [if_neg (ne_true_of_eq_false hd), if_neg]
  intro hgo
  rw [Bool.and_eq_true, Bool.and_eq_true] at hgo
  rw [hs hgo.1.1] at hgo
  exact absurd hgo.1.2 (by decide)

theorem State.next_runCmd {i : Instr} {f : State → Cmd → State} {t : State} (hi : exec i s = .next (s.runCmd k tag op f))
    (h : s.Runs k tag op c) (hf : f s c = t) : exec i s = .next t := by
  rw [hi, State.runCmd_eq h, hf]

theorem State.next_runPol {i : Instr} {f : State → Cmd → Pid → State} {t : State}
    (hi : exec i s = .next (s.runPol k tag op f)) (h : s.RunsAt k tag op c q) (hf : f s c q = t) : exec i s = .next t := by
  rw [hi, State.runPol_eq h, hf]

end

theorem barAddr_inside {q : Pid} {off : Nat} (h : off < 2 ^ 26) : barAddr q off = some (.polder q (BitVec.ofNat 26 off)) :=
  if_pos h

theorem barAddr_outside {q : Pid} {off : Nat} (h : 2 ^ 26 ≤ off) : barAddr q off = none := if_neg (Nat.not_lt.mpr h)

/-- Settles O51: every opcode's row runs its command by the one lemma of a dispatched command. -/
theorem commandsTakeTheirOpcodesEffect : Obligations.CommandsTakeTheirOpcodesEffect := by
  intro k tag s c o pay a
  refine ⟨fun h => State.next_runCmd rfl h rfl, fun q hoff => ⟨fun h => State.next_runPol rfl h ?_,
      fun h => State.next_runPol rfl h ?_⟩, fun q hoff => ?_, fun q => ?_, fun h => ⟨State.next_runCmd rfl h rfl,
      Config.signature s.free, State.next_runCmd rfl h rfl⟩⟩
  · rw [barAddr_outside hoff]
  · rw [barAddr_outside hoff]
  · intro reg
    refine ⟨fun h => State.next_runPol rfl h ?_, fun h => State.next_runPol rfl h ?_⟩
    · rw [barAddr_inside hoff]
    · rw [barAddr_inside hoff]
  · intro starts
    refine ⟨fun h => State.next_runPol rfl h rfl, fun h => State.next_runPol rfl h rfl, fun h => State.next_runPol rfl h rfl,
      fun h => State.next_runPol rfl h rfl, fun h => State.next_runPol rfl h rfl, fun h => State.next_runPol rfl h rfl,
      fun h => State.next_runPol rfl h rfl, fun ctr qu hlen h => ?_⟩
    intro rs
    have hi : exec (.restore2408 k tag ctr qu) s = _ := if_neg (Nat.not_lt.mpr hlen)
    refine ⟨fun hok => State.next_runPol hi h (if_pos ?_), fun hok => State.next_runPol hi h (if_neg ?_)⟩
    · rw [hok]
      rfl
    · rw [hok]
      decide

end Sys2Proof.Machine

/-! PROOFS. Firmware, the keeper die and HOST_HOLD (R18, R437 to R439, R469, R470). -/

namespace Sys2Proof.Machine

/-! What the keeper die's own state is, and what leaves it as it was. -/

/-- The keeper die, its reset, the firmware slots' choice and the load under way are left. -/
structure Module.KeeperKept (m n : Module) : Prop where
  keeper : n.keeper = m.keeper
  kreset : n.kreset = m.kreset
  hostHold : n.hostHold = m.hostHold
  running : n.running = m.running
  fallback : n.fallback = m.fallback
  bootOther : n.bootOther = m.bootOther
  loading : n.loading = m.loading
  kresets : n.kresets = m.kresets
  images : n.images = m.images
  fuses : n.fuses = m.fuses

namespace Module.KeeperKept

theorem refl (m : Module) : m.KeeperKept m := ⟨rfl, rfl, rfl, rfl, rfl, rfl, rfl, rfl, rfl, rfl⟩

theorem trans {a b c : Module} (h : a.KeeperKept b) (g : b.KeeperKept c) : a.KeeperKept c :=
  ⟨g.keeper.trans h.keeper, g.kreset.trans h.kreset, g.hostHold.trans h.hostHold, g.running.trans h.running,
    g.fallback.trans h.fallback, g.bootOther.trans h.bootOther, g.loading.trans h.loading, g.kresets.trans h.kresets,
    g.images.trans h.images, g.fuses.trans h.fuses⟩

theorem slotOk {m n : Module} (h : m.KeeperKept n) (slot : Bool) : n.slotOk slot = m.slotOk slot := by
  unfold Module.slotOk Module.image?
  rw [h.images, h.fuses]

end Module.KeeperKept

theorem Module.Posted.keeper {m n : Module} (h : m.Posted n) : m.KeeperKept n := by
  rw [h.eq]
  exact ⟨rfl, rfl, rfl, rfl, rfl, rfl, rfl, rfl, rfl, rfl⟩

theorem State.onPol_keeper (s : State) (p : Pid) (f : PolCtx → Polder → Polder) : s.mod.KeeperKept (s.onPol p f).mod :=
  (s.onPol_mod p f).keeper

theorem State.followRails_keeper (s : State) (p : Pid) : s.mod.KeeperKept (s.followRails p).mod := by
  rw [State.followRails_eq]
  split
  · exact .refl _
  · have hr (r : SMap Rail) : s.mod.KeeperKept { s.mod with rails := r } :=
      ⟨rfl, rfl, rfl, rfl, rfl, rfl, rfl, rfl, rfl, rfl⟩
    refine Module.KeeperKept.trans ?_ (s.onMod_mod _).keeper
    dsimp only
    split
    · exact (hr _).trans (Module.Posted.raise _ _ _).keeper
    · split
      · exact (hr _).trans (Module.Posted.raise _ _ _).keeper
      · exact hr _

theorem State.warden_keeper (s : State) (p : Pid) (f : PolCtx → Polder → Polder) :
    s.mod.KeeperKept (s.warden p f).mod :=
  ((s.onPol_keeper p f).trans (State.followRails_keeper _ p)).trans ⟨rfl, rfl, rfl, rfl, rfl, rfl, rfl, rfl, rfl, rfl⟩

theorem State.foldl_keeper {f : State → Pid → State} (hf : ∀ (s : State) (p : Pid), s.mod.KeeperKept (f s p).mod) (l : List Pid)
    (s : State) : s.mod.KeeperKept (l.foldl f s).mod :=
  List.foldlRecOn (motive := fun t : State => s.mod.KeeperKept t.mod) l f (.refl _) fun _ ht p _ => ht.trans (hf _ p)

theorem State.onPowered_keeper (s : State) (f : PolCtx → Polder → Polder) : s.mod.KeeperKept (s.onPowered f).mod :=
  State.foldl_keeper (fun s p => by
    split
    · exact s.onPol_keeper p f
    · exact .refl _) _ s

theorem State.holdPolders_keeper (s : State) : s.mod.KeeperKept s.holdPolders.mod := by
  unfold State.holdPolders
  split
  · refine State.foldl_keeper (fun s p => ?_) _ s
    split
    · exact s.warden_keeper p _
    · exact .refl _
  · exact .refl _

/-! The boot ROM (R437, R469). -/

section
variable (m : Module) (slot : Bool)

/-- A test of a slot answers whether its image verifies, and leaves at most a reason (R469). -/
theorem Module.testSlot_spec : (m.testSlot slot).2 = m.slotOk slot ∧ m.Posted (m.testSlot slot).1 := by
  unfold Module.testSlot Module.slotOk
  split
  · rename_i h
    rw [h]
    exact ⟨rfl, .refl m⟩
  · rename_i b h
    rw [h]
    dsimp only
    split
    case isTrue hr => exact ⟨(beq_iff_eq.mpr hr).symm, .refl m⟩
    case isFalse hr => exact ⟨(beq_eq_false_iff_ne.mpr hr).symm, (Module.Posted.wr m _ _ _).trans (.raise _ _ _)⟩

/-- What booting leaves: the slot asked for, else the other one, else no image (R437, R469). -/
theorem Module.boot_spec :
    ((m.boot slot).kreset = m.kreset ∧ (m.boot slot).hostHold = m.hostHold ∧ (m.boot slot).loading = m.loading ∧
      (m.boot slot).kresets = m.kresets) ∧
    (m.slotOk slot = true → (m.boot slot).keeper = .booting ∧ (m.boot slot).running = slot ∧ (m.boot slot).fallback = false) ∧
    (m.slotOk slot = false → m.slotOk (!slot) = true →
      (m.boot slot).keeper = .booting ∧ (m.boot slot).running = !slot ∧ (m.boot slot).fallback = true) ∧
    (m.slotOk slot = false → m.slotOk (!slot) = false → (m.boot slot).keeper = .noImage) := by
  obtain ⟨hok, hpost⟩ := m.testSlot_spec slot
  unfold Module.boot
  split
  case h_1 n hn =>
    rw [hn] at hok hpost
    replace hok : m.slotOk slot = true := hok.symm
    have hk := hpost.keeper
    exact ⟨⟨hk.kreset, hk.hostHold, hk.loading, hk.kresets⟩, fun _ => ⟨rfl, rfl, rfl⟩,
      fun h => absurd (hok.symm.trans h) (by decide), fun h => absurd (hok.symm.trans h) (by decide)⟩
  case h_2 n hn =>
    rw [hn] at hok hpost
    replace hok : m.slotOk slot = false := hok.symm
    have hk := hpost.keeper
    obtain ⟨hok', hpost'⟩ := n.testSlot_spec (!slot)
    rw [hk.slotOk] at hok'
    split
    case h_1 n' hn' =>
      rw [hn'] at hok' hpost'
      replace hok' : m.slotOk (!slot) = true := hok'.symm
      have hk' := hk.trans hpost'.keeper
      exact ⟨⟨hk'.kreset, hk'.hostHold, hk'.loading, hk'.kresets⟩, fun h => absurd (hok.symm.trans h) (by decide),
        fun _ _ => ⟨rfl, rfl, rfl⟩, fun _ h => absurd (hok'.symm.trans h) (by decide)⟩
    case h_2 n' hn' =>
      rw [hn'] at hok' hpost'
      replace hok' : m.slotOk (!slot) = false := hok'.symm
      have hk' := hk.trans hpost'.keeper
      exact ⟨⟨hk'.kreset, hk'.hostHold, hk'.loading, hk'.kresets⟩, fun h => absurd (hok.symm.trans h) (by decide),
        fun _ h => absurd (hok'.symm.trans h) (by decide), fun _ _ => rfl⟩

end

/-- A keeper reset (R437 to R439, R469). -/
theorem State.keeperReset_spec (s : State) (slot : Bool) :
    let t := s.keeperReset slot
    t.mod.kreset = true ∧ t.mod.hostHold = true ∧ t.mod.loading = none ∧
      t.mod.kresets = (if s.mod.kresets = 0xFF then 0xFF else s.mod.kresets + 1) ∧
      (s.mod.slotOk slot = true → t.mod.keeper = .booting ∧ t.mod.running = slot ∧ t.mod.fallback = false) ∧
      (s.mod.slotOk slot = false → s.mod.slotOk (!slot) = true →
        t.mod.keeper = .booting ∧ t.mod.running = !slot ∧ t.mod.fallback = true) ∧
      (s.mod.slotOk slot = false → s.mod.slotOk (!slot) = false → t.mod.keeper = .noImage) := by
  intro t
  have hk : Module.KeeperKept _ t.mod :=
    ((s.onMod_mod _).keeper.trans (State.onPowered_keeper _ _)).trans (State.holdPolders_keeper _)
  obtain ⟨⟨h1, h2, h3, h4⟩, hok, hother, hnone⟩ := Module.boot_spec (Module.onCmds { s.mod with
      kreset := true, hostHold := true, loading := none
      kresets := if s.mod.kresets = 0xFF then 0xFF else s.mod.kresets + 1 } Cmd.hold) slot
  refine ⟨hk.kreset.trans h1, hk.hostHold.trans h2, hk.loading.trans h3, hk.kresets.trans h4, fun h => ?_, fun h h' => ?_,
    fun h h' => hk.keeper.trans (hnone h h')⟩
  · obtain ⟨g1, g2, g3⟩ := hok h
    exact ⟨hk.keeper.trans g1, hk.running.trans g2, hk.fallback.trans g3⟩
  · obtain ⟨g1, g2, g3⟩ := hother h h'
    exact ⟨hk.keeper.trans g1, hk.running.trans g2, hk.fallback.trans g3⟩

/-- What every polder that is on is brought to, and keeps, every such polder has in the end. -/
theorem State.onPowered_pol (s : State) {f : PolCtx → Polder → Polder} {P : Polder → Prop}
    (hf : ∀ (x : PolCtx) (q : Polder), P (f x q).sent) (p : Pid) (hp : s.mod.powered p = true) :
    P ((s.onPowered f).pol p) := by
  have hrest (l : List Pid) (s : State) (h : P (s.pol p)) :
      P ((l.foldl (fun (s : State) q => if s.mod.powered q then s.onPol q f else s) s).pol p) :=
    List.foldlRecOn (motive := fun t : State => P (t.pol p)) l _ h fun t ht r _ => by
      split
      · by_cases hr : p = r
        · subst hr
          rw [State.pol_onPol]
          exact hf _ _
        · rw [State.pol_onPol_ne _ _ hr]
          exact ht
      · exact ht
  have hall (l : List Pid) (hm : p ∈ l) (s : State) (h : s.mod.powered p = true) :
      P ((l.foldl (fun (s : State) q => if s.mod.powered q then s.onPol q f else s) s).pol p) := by
    induction l generalizing s with
    | nil => cases hm
    | cons r l ih =>
      rw [List.foldl_cons]
      by_cases hr : p = r
      · subst hr
        refine hrest l _ ?_
        rw [if_pos h, State.pol_onPol]
        exact hf _ _
      · refine ih ((List.mem_cons.mp hm).resolve_left hr) _ ?_
        split
        · rw [Module.powered_iff, (s.onPol_mod r f).rail]
          exact h
        · exact h
  exact hall _ (List.mem_finRange p) s hp

/-- The module once the keeper die is back (R439). -/
def Module.keeperBack (m : Module) : Module :=
  let n := Module.onCmds { m with keeper := .ready, kreset := false, hostHold := false } Cmd.release
  if m.kreset then n.raise KQ 2 else n

theorem Module.keeperBack_posted (m : Module) :
    Module.Posted (Module.onCmds { m with keeper := .ready, kreset := false, hostHold := false } Cmd.release)
      m.keeperBack := by
  unfold Module.keeperBack
  dsimp only
  split
  · exact .raise _ _ _
  · exact .refl _

theorem execKeeperReady_eq (s : State) : exec .keeperReady s =
    .next (if s.mod.power = .on && s.mod.keeper = .booting then
      (s.onMod Module.keeperBack).onPowered fun _ p => { p with hostHold := false, stepHold := false } else s) := rfl

/-- KEEPER_READY (R439, R484). -/
theorem exec_keeperReady {s : State} (hp : s.mod.power = .on) (hk : s.mod.keeper = .booting) :
    ∃ t, exec .keeperReady s = .next t ∧ t.mod.keeper = .ready ∧ t.mod.kreset = false ∧ t.mod.hostHold = false ∧
      ∀ p, s.mod.powered p = true → (t.pol p).hostHold = false ∧ (t.pol p).stepHold = false := by
  have hgo (u : State) (hm : Module.Posted
      (Module.onCmds { s.mod with keeper := .ready, kreset := false, hostHold := false } Cmd.release) u.mod) :
      let t := u.onPowered fun _ p => { p with hostHold := false, stepHold := false }
      t.mod.keeper = .ready ∧ t.mod.kreset = false ∧ t.mod.hostHold = false ∧
        ∀ p, s.mod.powered p = true → (t.pol p).hostHold = false ∧ (t.pol p).stepHold = false := by
    have hkept := hm.keeper.trans (State.onPowered_keeper u fun _ p => { p with hostHold := false, stepHold := false })
    refine ⟨hkept.keeper, hkept.kreset, hkept.hostHold, fun p hon => ?_⟩
    refine State.onPowered_pol (P := fun q => q.hostHold = false ∧ q.stepHold = false) u (fun _ _ => ⟨rfl, rfl⟩) p ?_
    rw [Module.powered_iff, hm.rail p]
    exact hon
  exact ⟨_, (execKeeperReady_eq s).trans (congrArg Host.Outcome.next (if_pos (by rw [hp, hk]; rfl))),
    hgo (s.onMod Module.keeperBack) (s.mod.keeperBack_posted.trans (s.onMod_mod _))⟩

/-- The boot ROM tries the slot that has not been tried (R437). -/
def Module.tryOther (m : Module) : Module :=
  if (m.testSlot (!m.running)).2 then
    { (m.testSlot (!m.running)).1 with running := !(m.testSlot (!m.running)).1.running, fallback := true, bootOther := true }.raise KQ 3
  else { (m.testSlot (!m.running)).1 with keeper := .noImage }

theorem execKeeperBootTimeout_eq (s : State) : exec .keeperBootTimeout s =
    .next (if s.mod.power = .on && s.mod.keeper = .booting && !s.mod.bootOther then
      (s.onMod Module.tryOther).holdPolders else s) := by
  have h : (fun m : Module => match m.testSlot (!m.running) with
      | (m, true) => { m with running := !m.running, fallback := true, bootOther := true }.raise KQ 3
      | (m, false) => { m with keeper := .noImage }) = Module.tryOther := by
    funext m
    unfold Module.tryOther
    rcases m.testSlot (!m.running) with ⟨n, _ | _⟩ <;> rfl
  rw [← h]
  rfl

/-- KEEPER_BOOT_TIMEOUT (R437). -/
theorem exec_keeperBootTimeout {s : State} (hp : s.mod.power = .on) (hk : s.mod.keeper = .booting)
    (hb : s.mod.bootOther = false) : ∃ t, exec .keeperBootTimeout s = .next t ∧
      (s.mod.slotOk (!s.mod.running) = true → t.mod.keeper = .booting ∧ t.mod.running = !s.mod.running ∧
        t.mod.fallback = true) ∧
      (s.mod.slotOk (!s.mod.running) = false → t.mod.keeper = .noImage) := by
  refine ⟨_, (execKeeperBootTimeout_eq s).trans (congrArg Host.Outcome.next (if_pos (by rw [hp, hk, hb]; rfl))), ?_⟩
  have hkept := (s.onMod_mod Module.tryOther).keeper.trans (State.holdPolders_keeper _)
  obtain ⟨hok, hpost⟩ := s.mod.testSlot_spec (!s.mod.running)
  have hm := hpost.keeper
  unfold Module.tryOther at hkept ⊢
  refine ⟨fun h => ?_, fun h => ?_⟩
  · rw [if_pos (hok.trans h)] at hkept
    refine ⟨hkept.keeper.trans (hm.keeper.trans hk), hkept.running.trans ?_, hkept.fallback⟩
    exact congrArg not hm.running
  · rw [if_neg (ne_true_of_eq_false (hok.trans h))] at hkept
    exact hkept.keeper

/-! Loading an image (R470). -/

section
variable {s : State} {k : Fin 64} {tag : BitVec 16} {c : Cmd} (h : s.Runs k tag 0x40 c)
include h

/-- A read of the image that failed (R470). -/
theorem exec_fwLoad_none : exec (.fwLoad k tag none) s = .next
    (if decide (payload c.entry 0 1 % 2 = 1) = s.mod.running && s.mod.keeper = .ready
      then s.endLoad k tag Status.refusedBusy 0 else s.endLoad k tag Status.dataUncorrectable 0) :=
  State.next_runCmd rfl h rfl

theorem exec_fwLoad_some {b : List Byte} (hb : b.length ≤ 67108864) (hlen : b.length = payload c.entry 16 4)
    (hbusy : (decide (payload c.entry 0 1 % 2 = 1) = s.mod.running && s.mod.keeper = .ready) = false) :
    exec (.fwLoad k tag (some b)) s = .next
      (if payload c.entry 16 4 < 512 || 512 + fwField b 12 4 ≠ payload c.entry 16 4 then s.endLoad k tag Status.internal 0
      else if s.mod.fuses.fwReason b ≠ 0 then s.endLoad k tag Status.protection (s.mod.fuses.fwReason b)
      else (s.onMod fun m => { m with
        images := SMap.insert m.images (bit01 (decide (payload c.entry 0 1 % 2 = 1))) ⟨b⟩ }).endLoad k tag Status.done 0) := by
  have hfit : decide (67108864 < b.length) = false := decide_eq_false (Nat.not_lt.mpr hb)
  refine State.next_runCmd (if_neg (ne_true_of_eq_false hfit)) h ?_
  dsimp only
  rw [if_neg (ne_true_of_eq_false hbusy), if_neg (not_not.mpr hlen)]

end

/-- Settles O52: loading is its checks in order; a keeper reset and the boot ROM keep what the frame lemmas say. -/
theorem firmwareAndKeeperStart : Obligations.FirmwareAndKeeperStart := by
  refine ⟨fun k tag s c => ⟨fun h => ?_, fun h => State.next_runCmd rfl h rfl, fun d hc hph hk => ?_⟩, fun s => ?_⟩
  · intro image len busy
    have hgo (hb : ¬ busy) : (decide (image = s.mod.running) && decide (s.mod.keeper = .ready)) = false := by
      rw [Bool.and_eq_false_iff, decide_eq_false_iff_not, decide_eq_false_iff_not, ← not_and_or]
      exact fun hi => hb ⟨hi.1.symm, hi.2⟩
    refine ⟨fun hb => (exec_fwLoad_none h).trans (congrArg Host.Outcome.next (if_pos ?_)),
      fun hb => (exec_fwLoad_none h).trans (congrArg Host.Outcome.next (if_neg (ne_true_of_eq_false (hgo hb)))),
      fun b hfit hlen hb => ?_⟩
    · rw [Bool.and_eq_true, decide_eq_true_eq, decide_eq_true_eq]
      exact ⟨hb.1.symm, hb.2⟩
    · have hx := exec_fwLoad_some h hfit hlen (hgo hb)
      refine ⟨fun hbad => hx.trans (congrArg Host.Outcome.next (if_pos ?_)), fun h512 hlen' => ?_⟩
      · rw [Bool.or_eq_true, decide_eq_true_eq, decide_eq_true_eq]
        exact hbad
      · have hfine : ¬ (decide (payload c.entry 16 4 < 512) ||
            decide (512 + fwField b 12 4 ≠ payload c.entry 16 4)) = true := by
          rw [Bool.or_eq_true, decide_eq_true_eq, decide_eq_true_eq]
          exact fun hor => hor.elim (Nat.not_lt.mpr h512) fun hne => hne hlen'
        rw [if_neg hfine] at hx
        exact ⟨fun hr => hx.trans (congrArg Host.Outcome.next (if_pos hr)),
          fun hr => hx.trans (congrArg Host.Outcome.next (if_neg (not_not.mpr hr)))⟩
  · refine congrArg Host.Outcome.next (State.onMod_congr s ?_)
    rw [hc]
    dsimp only
    rw [hph]
    exact if_pos hk
  · refine ⟨fun w ha hk => ?_, fun hp hk => congrArg Host.Outcome.next (if_pos (by rw [hp, hk]; rfl)),
      s.keeperReset_spec, fun hp hk => ⟨exec_keeperReady hp hk, fun hb => congrArg Host.Outcome.next (if_neg ?_),
        exec_keeperBootTimeout hp hk⟩, fun p hl => ⟨fun hh hs hw => State.gives_event rfl hl (if_pos ?_),
        fun hor => State.gives_event rfl hl (if_neg ?_)⟩⟩
    · have hcls : ∀ g, modPage (KQ + 0x0C) = some g → g.blk.cls = .config := by decide
      obtain ⟨hp, g, hg, hgate⟩ := ha
      rw [hcls g hg] at hgate
      refine congrArg Host.Outcome.next ((if_pos ?_).trans ?_)
      · unfold Module.keeperUp
        rw [hgate, hp, decide_eq_true hk]
        rfl
      · rw [s.writeMod_eq _ w id ⟨hp, g, hg, by rw [hcls g hg, hgate]⟩]
    · rw [hb, Bool.not_true, Bool.and_false]
      decide
    · have hgo : ((s.pol p).hostHold && !(s.pol p).stepHold && (s.pol p).workDone) = true := by
        rw [hh, hs, hw]
        rfl
      exact hgo
    · have hstop : ((s.pol p).hostHold && !(s.pol p).stepHold && (s.pol p).workDone) = false := by
        obtain h | h := hor
        · rw [h]
          rfl
        · rw [h, Bool.and_false]
      exact ne_true_of_eq_false hstop

end Sys2Proof.Machine

/-! PROOFS. Configuration generations: staging, commits and rollbacks, the swap, staged registers, and the fuses
(R8, R441 to R445, R460, R461, R471). -/

namespace Sys2Proof.Machine

/-! The configuration images, and what leaves them as they were. -/

/-- The images, the seal, the next number and the pending commit are left. -/
structure Module.ImagesKept (m n : Module) : Prop where
  active : n.active = m.active
  previous : n.previous = m.previous
  staged : n.staged = m.staged
  sealed : n.sealed = m.sealed
  cfgNext : n.cfgNext = m.cfgNext
  commit : n.commit = m.commit

namespace Module.ImagesKept

theorem refl (m : Module) : m.ImagesKept m := ⟨rfl, rfl, rfl, rfl, rfl, rfl⟩

theorem trans {a b c : Module} (h : a.ImagesKept b) (g : b.ImagesKept c) : a.ImagesKept c :=
  ⟨g.active.trans h.active, g.previous.trans h.previous, g.staged.trans h.staged, g.sealed.trans h.sealed,
    g.cfgNext.trans h.cfgNext, g.commit.trans h.commit⟩

end Module.ImagesKept

theorem Module.Posted.images {m n : Module} (h : m.Posted n) : m.ImagesKept n := by
  rw [h.eq]
  exact ⟨rfl, rfl, rfl, rfl, rfl, rfl⟩

theorem Module.Posted.onMod {m : Module} {s : State} {f : Module → Module} (h : m.Posted (f s.mod)) :
    m.Posted (s.onMod f).mod := h.trans (s.onMod_mod f)

theorem State.onPowered_images (s : State) (f : PolCtx → Polder → Polder) : s.mod.ImagesKept (s.onPowered f).mod :=
  List.foldlRecOn (motive := fun t : State => s.mod.ImagesKept t.mod) (List.finRange 4) _ (.refl _) fun t ht p _ => by
    split
    · exact ht.trans (t.onPol_mod p f).images
    · exact ht

theorem State.checkPolder_images (s : State) (m : Image) (p : Pid) : s.mod.ImagesKept (s.checkPolder m p).1.mod := by
  unfold State.checkPolder
  dsimp only
  split
  · exact .refl _
  split
  · exact .refl _
  split
  · exact .refl _
  split
  · exact .refl _
  · dsimp only
    split
    · exact .refl _
    · exact (s.onPol_mod p _).images

theorem State.checkImage_images (s : State) (m : Image) : s.mod.ImagesKept (s.checkImage m).1.mod := by
  have hfold : ∀ (l : List Pid) (a : State × Option W32), a.1.mod.ImagesKept (l.foldl (fun (a : State × Option W32) q =>
      match a.2 with
      | some _ => a
      | none => a.1.checkPolder m q) a).1.mod := fun l a =>
    List.foldlRecOn (motive := fun b : State × Option W32 => a.1.mod.ImagesKept b.1.mod) l _ (.refl _) fun b hb q _ => by
      split
      · exact hb
      · exact hb.trans (b.1.checkPolder_images m q)
  unfold State.checkImage
  dsimp only
  split
  · exact hfold _ (s, none)
  · exact hfold _ (s, none)

/-! The end of a configuration operation (R445). -/

theorem Module.Posted.endCfg (m : Module) (op : CfgOp) (o : Option (Fin 64 × BitVec 16)) (st : Status) (r : W32) :
    m.Posted (m.endCfg op o st r) := by
  unfold Module.endCfg
  dsimp only
  split
  · exact (Module.Posted.wr m _ _ _).trans (.finish _ _ _ _ _ _)
  · exact .wr m _ _ _

/-- A completion leaves the registers that are the module's own (R433). -/
theorem Module.finish_rd (m : Module) (k : Fin 64) (tag : BitVec 16) (st : Status) (d : Bool) (r : W64) {off : Nat}
    (ho : off < 2 ^ 32) : (m.finish k tag st d r).rd off = m.rd off := by
  unfold Module.finish
  dsimp only
  split
  · rfl
  · rw [(Module.postAll_slot _ _ k).2.2, Module.setSlot_rd]
    split
    · exact Module.rd_wr_ne _ _ (by omega)
    · rfl

theorem Module.endCfg_rd (m : Module) (op : CfgOp) (o : Option (Fin 64 × BitVec 16)) (st : Status) (r : W32) {off : Nat}
    (ho : off < 2 ^ 32) : (m.endCfg op o st r).rd off =
      if off = CFGM + 0x54 then BitVec.ofNat 32 (st.toNat + 256 * op.num) else m.rd off := by
  have hwr : (m.wr (CFGM + 0x54) (BitVec.ofNat 32 (st.toNat + 256 * op.num))).rd off =
      if off = CFGM + 0x54 then BitVec.ofNat 32 (st.toNat + 256 * op.num) else m.rd off := by
    split
    case isTrue h => rw [h, Module.rd_wr_same]
    case isFalse h => exact Module.rd_wr_ne _ _ (by omega)
  unfold Module.endCfg
  dsimp only
  split
  · rw [Module.finish_rd _ _ _ _ _ _ ho, hwr]
  · exact hwr

/-! Seal, check, and make the commit pending (R441, R442). -/

section
variable {s u : State} {op : CfgOp} {o : Option (Fin 64 × BitVec 16)} {img : Image}

theorem State.sealed_images {r : Option W32}
    (h : (s.onMod fun m => { m with sealed := true }).checkImage img = (u, r)) :
    Module.ImagesKept { s.mod with sealed := true } u.mod := by
  have hs := (s.onMod_mod fun m => { m with sealed := true }).images.trans (State.checkImage_images _ img)
  rw [h] at hs
  exact hs

theorem State.sealCheck_fails {page : W32} (h : (s.onMod fun m => { m with sealed := true }).checkImage img = (u, some page)) :
    Module.ImagesKept { s.mod with sealed := false } (s.sealCheck op o img).mod ∧
      (s.sealCheck op o img).mod.rd (CFGM + 0x58) = page := by
  have hs := State.sealed_images h
  have heq : s.sealCheck op o img = u.onMod fun m =>
      (({ m with sealed := false }.wr (CFGM + 0x58) page).raise CFGM 1).endCfg op o Status.internal 0 := by
    unfold State.sealCheck
    dsimp only
    rw [h]
  have hp : Module.Posted { u.mod with sealed := false } (s.sealCheck op o img).mod := by
    rw [heq]
    exact Module.Posted.onMod (((Module.Posted.wr _ _ _ _).trans (.raise _ _ _)).trans (.endCfg _ _ _ _ _))
  have hk := hp.images
  refine ⟨⟨hk.active.trans hs.active, hk.previous.trans hs.previous, hk.staged.trans hs.staged, hk.sealed,
    hk.cfgNext.trans hs.cfgNext, hk.commit.trans hs.commit⟩, ?_⟩
  rw [heq, State.onMod_modRd, Module.endCfg_rd _ _ _ _ _ (by decide), if_neg (by decide)]
  exact ((Module.rd_wr_ne _ _ (by decide)).trans (Module.rd_wr_ne _ _ (by decide))).trans (Module.rd_wr_same _ _ _ _)

theorem State.sealCheck_passes (h : (s.onMod fun m => { m with sealed := true }).checkImage img = (u, none)) :
    Module.ImagesKept { s.mod with sealed := true, commit := some ⟨decide (op = .rollback), o⟩ }
      (s.sealCheck op o img).mod := by
  have hs := State.sealed_images h
  have heq : s.sealCheck op o img = u.onMod fun m => { m with commit := some ⟨decide (op = .rollback), o⟩ } := by
    unfold State.sealCheck
    dsimp only
    rw [h]
  have hk := (u.onMod_mod fun m => { m with commit := some ⟨decide (op = .rollback), o⟩ }).images
  rw [heq]
  exact ⟨hk.active.trans hs.active, hk.previous.trans hs.previous, hk.staged.trans hs.staged, hk.sealed.trans hs.sealed,
    hk.cfgNext.trans hs.cfgNext, hk.commit⟩

end

/-! The operations (R441). -/

section
variable (s : State) (o : Option (Fin 64 × BitVec 16))

/-- Staging copies the ACTIVE image under the next number. -/
theorem State.cfgOp_stage (h : s.mod.staged = none) (hn : s.mod.cfgNext ≠ 0xFFFFFFFF) :
    let t := s.cfgOp .stage o
    t.mod.staged = some { s.mod.active with gen := s.mod.cfgNext } ∧ t.mod.sealed = false ∧
      t.mod.cfgNext = s.mod.cfgNext + 1 ∧ t.mod.active = s.mod.active ∧ t.mod.previous = s.mod.previous ∧
      t.mod.rd (CFGM + 0x54) = BitVec.ofNat 32 (Status.done.toNat + 256 * 0x30) := by
  intro t
  have heq : t = s.onMod fun m => Module.endCfg { m.dropHeld with
      staged := some { m.active with gen := m.cfgNext }, sealed := false, cfgNext := m.cfgNext + 1 } .stage o
      Status.done m.cfgNext :=
    (if_neg (by rw [h]; decide)).trans (if_neg hn)
  have hp : Module.Posted { s.mod.dropHeld with
      staged := some { s.mod.active with gen := s.mod.cfgNext }, sealed := false, cfgNext := s.mod.cfgNext + 1 } t.mod := by
    rw [heq]
    exact Module.Posted.onMod (.endCfg _ _ _ _ _)
  have hk := hp.images
  refine ⟨hk.staged, hk.sealed, hk.cfgNext, hk.active, hk.previous, ?_⟩
  rw [heq, State.onMod_modRd, Module.endCfg_rd _ _ _ _ _ (by decide), if_pos rfl]
  rfl

/-- A discard drops the staged image. -/
theorem State.cfgOp_discard (h : s.mod.commit = none) :
    let t := s.cfgOp .discard o
    t.mod.staged = none ∧ t.mod.sealed = false ∧ t.mod.active = s.mod.active ∧ t.mod.cfgNext = s.mod.cfgNext := by
  intro t
  have heq : t = s.onMod fun m => Module.endCfg { m.dropHeld with staged := none, sealed := false } .discard o
      Status.done 0 := if_neg (by rw [h]; decide)
  have hp : Module.Posted { s.mod.dropHeld with staged := none, sealed := false } t.mod := by
    rw [heq]
    exact Module.Posted.onMod (.endCfg _ _ _ _ _)
  have hk := hp.images
  exact ⟨hk.staged, hk.sealed, hk.active, hk.cfgNext⟩

theorem State.cfgOp_commit {img : Image} (h : s.mod.commit = none) (hs : s.mod.staged = some img) :
    s.cfgOp .commit o = s.sealCheck .commit o img := by
  refine (if_neg (by rw [h]; decide)).trans ?_
  rw [hs]

/-- A rollback stages the PREVIOUS image, and is pending where its checks pass. -/
theorem State.cfgOp_rollback {img : Image} (h : s.mod.commit = none) (hp : s.mod.previous = some img) :
    let t := s.cfgOp .rollback o
    t.mod.staged = some img ∧ t.mod.previous = some img ∧ t.mod.active = s.mod.active ∧
      t.mod.sealed = t.mod.commit.isSome := by
  intro t
  have heq : t = (s.onMod fun m => { m.dropHeld with staged := some img }).sealCheck .rollback o img := by
    refine (if_neg (by rw [h]; decide)).trans ?_
    rw [hp]
  have hb := (s.onMod_mod fun m => { m.dropHeld with staged := some img }).images
  rw [heq]
  generalize s.onMod (fun m => { m.dropHeld with staged := some img }) = b at hb
  rcases hc : (b.onMod fun m => { m with sealed := true }).checkImage img with ⟨u, _ | page⟩
  · have hk := State.sealCheck_passes (op := .rollback) (o := o) hc
    exact ⟨hk.staged.trans hb.staged, (hk.previous.trans hb.previous).trans hp, hk.active.trans hb.active, by
      rw [hk.sealed, hk.commit]; rfl⟩
  · have hk := (State.sealCheck_fails (op := .rollback) (o := o) hc).1
    have hno : b.mod.commit = none := hb.commit.trans h
    exact ⟨hk.staged.trans hb.staged, (hk.previous.trans hb.previous).trans hp, hk.active.trans hb.active, by
      rw [hk.sealed, hk.commit]; exact (congrArg Option.isSome hno).symm⟩

end

theorem State.cfgCtrl_eq {s : State} {w : Who} (ha : s.AdmitsMod (CFGM + 0x50) w) (op : CfgOp) :
    s.cfgCtrl w op = ((s.noted w).onMod id).cfgOp op none := by
  have hcls : ∀ g, modPage (CFGM + 0x50) = some g → g.blk.cls = .config := by decide
  have hw := s.writeMod_eq _ w id ha
  obtain ⟨hp, g, hg, hgate⟩ := ha
  rw [hcls g hg] at hgate
  refine (if_pos ?_).trans (congrArg (State.cfgOp · op none) hw)
  rw [hp, hgate]
  rfl

/-- Settles O53: the operations of the register and of the queues are one, told apart by its branches. -/
theorem imagesAreStagedSealedAndDropped : Obligations.ImagesAreStagedSealedAndDropped := by
  refine ⟨fun s => ⟨fun w ha => ?_, fun k tag c => ?_⟩, fun s o => ?_⟩
  · exact ⟨congrArg Host.Outcome.next (State.cfgCtrl_eq ha .stage), congrArg Host.Outcome.next (State.cfgCtrl_eq ha .commit),
      congrArg Host.Outcome.next (State.cfgCtrl_eq ha .discard), congrArg Host.Outcome.next (State.cfgCtrl_eq ha .rollback)⟩
  · exact ⟨fun h => State.next_runCmd rfl h rfl, fun h => State.next_runCmd rfl h rfl,
      fun h => State.next_runCmd rfl h rfl, fun h => State.next_runCmd rfl h rfl⟩
  · intro m stops
    refine ⟨fun h => if_pos h, fun h hn => (if_neg ?_).trans (if_pos hn), s.cfgOp_stage o,
      fun h => ⟨if_pos h, if_pos h, if_pos h⟩, fun h => ⟨s.cfgOp_discard o h, fun hs => (if_neg ?_).trans ?_,
        fun hs => (if_neg ?_).trans ?_, fun img u page hs hc => ?_, fun img u hs hc => ?_,
        fun img hp => s.cfgOp_rollback o h hp⟩⟩
    · rw [show s.mod.staged = none from h]
      decide
    · rw [show s.mod.commit = none from h]
      decide
    · rw [show s.mod.staged = none from hs]
    · rw [show s.mod.commit = none from h]
      decide
    · rw [show s.mod.previous = none from hs]
    · obtain ⟨hk, hrd⟩ := State.sealCheck_fails (op := .commit) (o := o) hc
      rw [s.cfgOp_commit o h hs]
      exact ⟨hk.commit.trans h, hk.sealed, hk.staged.trans hs, hk.active, hrd⟩
    · have hk := State.sealCheck_passes (op := .commit) (o := o) hc
      rw [s.cfgOp_commit o h hs]
      exact ⟨hk.commit, hk.sealed, hk.staged.trans hs, hk.active⟩

/-! The swap, its time-out, and writes of staged registers (R8, R443, R444). -/

/-- A polder's changes leave the module's own registers. -/
theorem State.onPol_modRd (s : State) (p : Pid) (f : PolCtx → Polder → Polder) {off : Nat} (ho : off < 2 ^ 32) :
    (s.onPol p f).mod.rd off = s.mod.rd off := by
  have hfin (l : List CmdEnd) (m : Module) :
      (l.foldl (fun m e => m.finish e.slot e.tag e.status e.deferred e.result) m).rd off = m.rd off :=
    List.foldlRecOn (motive := fun n : Module => n.rd off = m.rd off) l _ rfl fun n hn e _ =>
      (n.finish_rd _ _ _ _ _ ho).trans hn
  have hjournal (rs : List (BitVec 256)) : (s.mod.postJournal p rs).rd off = s.mod.rd off := by
    unfold Module.postJournal
    split <;> rfl
  have hset (b : Bool) (q : Polder) : (s.settle p b q).mod.rd off = s.mod.rd off := by
    unfold State.settle
    dsimp only
    split
    · exact (hfin q.ended _).trans (hjournal _)
    · exact (hfin q.ended _).trans (hjournal _)
  exact hset _ _

theorem State.onPowered_modRd (s : State) (f : PolCtx → Polder → Polder) {off : Nat} (ho : off < 2 ^ 32) :
    (s.onPowered f).mod.rd off = s.mod.rd off :=
  List.foldlRecOn (motive := fun t : State => t.mod.rd off = s.mod.rd off) (List.finRange 4) _ rfl fun t ht p _ => by
    split
    · exact (t.onPol_modRd p f ho).trans ht
    · exact ht

theorem State.runHeld_images (s : State) : s.mod.ImagesKept s.runHeld.mod := s.onPowered_images _

/-- The polders' pages apply the new generation (R443). -/
def State.swapPolders (s : State) (img : Image) : State :=
  (List.finRange 4).foldl (fun (s : State) q =>
    if s.mod.powered q && !(s.pol q).unrestored.contains 5 then s.onPol q fun _ p => p.swapTo q s.mod.active img else s) s

theorem State.swapPolders_images (s : State) (img : Image) : s.mod.ImagesKept (s.swapPolders img).mod :=
  List.foldlRecOn (motive := fun t : State => s.mod.ImagesKept t.mod) (List.finRange 4) _ (.refl _) fun t ht p _ => by
    split
    · exact ht.trans (t.onPol_mod p _).images
    · exact ht

/-- The module once the images have swapped (R443). -/
def Module.swapped (m : Module) (c : Commit) (img : Image) : Module :=
  let n := { m.dropHeld with previous := some m.active, active := img, staged := none, sealed := false, commit := none }
  let n := (n.wr (CFGM + 0x60) 0xFF).raise CFGM 0
  let n := if c.rollback then n.raise CFGM 2 else n
  n.endCfg (if c.rollback then CfgOp.rollback else CfgOp.commit) c.origin Status.done img.gen

theorem Module.swapped_images (m : Module) (c : Commit) (img : Image) :
    Module.ImagesKept { m with previous := some m.active, active := img, staged := none, sealed := false, commit := none }
      (m.swapped c img) := by
  have h (n : Module) : n.Posted (if c.rollback then ((n.wr (CFGM + 0x60) 0xFF).raise CFGM 0).raise CFGM 2
      else (n.wr (CFGM + 0x60) 0xFF).raise CFGM 0) := by
    split
    · exact ((Module.Posted.wr _ _ _ _).trans (.raise _ _ _)).trans (.raise _ _ _)
    · exact (Module.Posted.wr _ _ _ _).trans (.raise _ _ _)
  have hk := ((h { m.dropHeld with
    previous := some m.active, active := img, staged := none, sealed := false, commit := none }).trans
      (Module.Posted.endCfg _ (if c.rollback then CfgOp.rollback else CfgOp.commit) c.origin Status.done img.gen)).images
  exact ⟨hk.active, hk.previous, hk.staged, hk.sealed, hk.cfgNext, hk.commit⟩

section
variable {s : State} {c : Commit} (hc : s.mod.commit = some c)
include hc

theorem exec_commitSwap {img : Image} (hs : s.mod.staged = some img) : exec .commitSwap s = .next
    (if s.mod.keeper = .ready && (List.finRange 4).all s.drained
      then ((s.swapPolders img).onMod fun m => m.swapped c img).runHeld else s) := by
  show execCommitSwap s = _
  unfold execCommitSwap
  rw [hc, hs]
  rfl

theorem commitSwap_swaps {img : Image} (hs : s.mod.staged = some img) (hk : s.mod.keeper = .ready)
    (hd : (List.finRange 4).all s.drained = true) : ∃ t, exec .commitSwap s = .next t ∧
      t.mod.active = img ∧ t.mod.previous = some s.mod.active ∧ t.mod.staged = none ∧ t.mod.commit = none ∧
      t.mod.sealed = false ∧ t.mod.cfgNext = s.mod.cfgNext := by
  refine ⟨_, (exec_commitSwap hc hs).trans (congrArg Host.Outcome.next (if_pos (by rw [hk, hd]; rfl))), ?_⟩
  have h0 := s.swapPolders_images img
  generalize s.swapPolders img = u at h0
  have h1 := (u.mod.swapped_images c img).trans (u.onMod_mod fun m => m.swapped c img).images
  generalize u.onMod (fun m => m.swapped c img) = z at h1
  have h2 := h1.trans z.runHeld_images
  exact ⟨h2.active, h2.previous.trans (congrArg some h0.active), h2.staged, h2.commit, h2.sealed,
    h2.cfgNext.trans h0.cfgNext⟩

/-- The module once the commit has been dropped (R444). -/
def Module.notDrained (m : Module) (c : Commit) (n : Nat) : Module :=
  (({ m with sealed := false, commit := none }.wr (CFGM + 0x60) (BitVec.ofNat 32 n)).raise CFGM 1).endCfg
    (if c.rollback then CfgOp.rollback else CfgOp.commit) c.origin Status.notDrained 0

theorem exec_commitDrainTimeout : exec .commitDrainTimeout s = .next
    (if (List.finRange 4).all s.drained then s
      else (s.onMod fun m => m.notDrained c
        ((List.finRange 4).foldl (fun n q => n + 2 ^ q.val * bit01 (s.drained q)) 0)).runHeld) := by
  show execCommitDrainTimeout s = _
  unfold execCommitDrainTimeout
  rw [hc]
  rfl

theorem commitDrainTimeout_drops (hd : (List.finRange 4).all s.drained = false) :
    ∃ t, exec .commitDrainTimeout s = .next t ∧ t.mod.commit = none ∧ t.mod.sealed = false ∧
      t.mod.staged = s.mod.staged ∧ t.mod.active = s.mod.active ∧
      bits (t.mod.rd (CFGM + 0x54)) 0 8 = Status.notDrained := by
  refine ⟨_, (exec_commitDrainTimeout hc).trans (congrArg Host.Outcome.next (if_neg (ne_true_of_eq_false hd))), ?_⟩
  generalize (List.finRange 4).foldl (fun n q => n + 2 ^ q.val * bit01 (s.drained q)) 0 = n
  have hp : Module.Posted { s.mod with sealed := false, commit := none } (s.mod.notDrained c n) :=
    ((Module.Posted.wr _ _ _ _).trans (.raise _ _ _)).trans (.endCfg _ _ _ _ _)
  have h1 := hp.images.trans (s.onMod_mod fun m => m.notDrained c n).images
  have hrd : (s.onMod fun m => m.notDrained c n).mod.rd (CFGM + 0x54) =
      BitVec.ofNat 32 (Status.notDrained.toNat + 256 * (if c.rollback then CfgOp.rollback else CfgOp.commit).num) := by
    rw [State.onMod_modRd]
    exact (Module.endCfg_rd _ _ _ _ _ (by decide)).trans (if_pos rfl)
  generalize s.onMod (fun m => m.notDrained c n) = z at h1 hrd
  have h2 := h1.trans z.runHeld_images
  refine ⟨h2.commit, h2.sealed, h2.staged, h2.active, ?_⟩
  rw [State.runHeld, State.onPowered_modRd _ _ (by decide), hrd]
  cases c.rollback <;> rfl

end

/-- A write of a staged register reaches the shadow image (R8, R441). -/
theorem exec_rwsWrite {s : State} {p : Pid} {off : BitVec 26} {w : Who} {v : W32} {g : Page} {r : RegInfo}
    (ha : s.Admits p off.toNat w) (hg : polPage off.toNat = some g) (hr : regAt g.blk off.toNat = some r) (hacc : r.acc = .rws)
    (hd : (s.pol p).deadTier g (off.toNat % 0x1000) w = false) : exec (.rwsWrite (.polder p off) w v) s =
      .next ((s.noted w).onMod fun m => m.storeRws p.val off.toNat ((s.pol p).entryOf g.base r w) (BitVec.ofNat 32 r.mask) v) := by
  obtain ⟨hp, g', hg', hopen⟩ := ha
  obtain rfl : g' = g := Option.some.inj (hg'.symm.trans hg)
  show Host.Outcome.next (s.writeRws (.polder p off) w v) = _
  unfold State.writeRws
  dsimp only
  rw [hg]
  dsimp only
  unfold State.putRws
  rw [hr]
  dsimp only
  rw [if_neg (by rw [hacc, hd]; decide), hopen, State.throughPol_eq s p w off.toNat _ hp, State.noted_pol]

theorem Module.storeRws_shut {m : Module} (h : m.staged = none ∨ m.sealed = true) (pid off idx : Nat) (mask v : W32) :
    m.storeRws pid off idx mask v = m.raise CFGM 3 := by
  unfold Module.storeRws
  split
  case h_1 img hs hf =>
    obtain h | h := h
    · rw [h] at hs
      cases hs
    · rw [h] at hf
      cases hf
  · rfl

theorem Module.storeRws_plain {m : Module} {img : Image} (hs : m.staged = some img) (hf : m.sealed = false) {pid off : Nat}
    (hp : pid ≠ 4) (hlo : rwsLow off = false) (hhi : rwsLow (off - 4) = false) (idx : Nat) (mask v : W32) :
    m.storeRws pid off idx mask v = { m with staged := some (img.set pid off idx (v &&& mask)) } := by
  unfold Module.storeRws
  rw [hs, hf]
  dsimp only
  rw [if_neg (by simp [hp]), if_neg (by simp [hlo]), if_neg (by simp [hhi])]

theorem State.noted_images (s : State) (w : Who) : s.mod.ImagesKept (s.noted w).mod := by
  obtain ⟨u, h⟩ := s.noted_mod w
  have hk := h.images
  exact ⟨hk.active, hk.previous, hk.staged, hk.sealed, hk.cfgNext, hk.commit⟩

/-- Settles O54: the swap and the time-out keep images by the frame lemmas; a staged register's write is its shadow's.
-/
theorem commitsSwapOrTimeOut : Obligations.CommitsSwapOrTimeOut := by
  intro s alldrained
  refine ⟨fun c img hc hs => ⟨commitSwap_swaps hc hs, fun hno => ?_⟩,
    fun c hc => ⟨fun hd => (exec_commitDrainTimeout hc).trans (congrArg Host.Outcome.next (if_pos hd)),
      commitDrainTimeout_drops hc⟩, fun p off w v g r ha hg hr hacc hd => ?_⟩
  · refine (exec_commitSwap hc hs).trans (congrArg Host.Outcome.next (if_neg ?_))
    rw [Bool.and_eq_true, decide_eq_true_eq]
    exact fun h => hno.elim (fun hk => hk h.1) fun hd => absurd (h.2.symm.trans hd) (by decide)
  · intro idx row
    have hx := exec_rwsWrite (v := v) ha hg hr hacc hd
    have hk := s.noted_images w
    refine ⟨fun h => hx.trans (congrArg Host.Outcome.next (State.onMod_congr _ ?_)),
      fun img hs hf hlo hhi => hx.trans (congrArg Host.Outcome.next (State.onMod_congr _ ?_))⟩
    · refine Module.storeRws_shut ?_ _ _ _ _ _
      rw [hk.staged, hk.sealed]
      exact h
    · exact Module.storeRws_plain (hk.staged.trans hs) (hk.sealed.trans hf) (by omega) hlo hhi _ _ _

/-! The fuses (R460, R461, R471). -/

theorem State.noted_rest (s : State) (w : Who) : (s.noted w).mod.blow = s.mod.blow ∧ (s.noted w).mod.fuses = s.mod.fuses ∧
    (s.noted w).mod.KeeperKept s.mod := by
  obtain ⟨u, h⟩ := s.noted_mod w
  have hk := h.keeper
  refine ⟨?_, hk.fuses, ⟨hk.keeper.symm, hk.kreset.symm, hk.hostHold.symm, hk.running.symm, hk.fallback.symm,
    hk.bootOther.symm, hk.loading.symm, hk.kresets.symm, hk.images.symm, hk.fuses.symm⟩⟩
  rw [h.eq]

section
variable {s : State} {w : Who} {i : Instr} {f : Module → Module} {off : Nat}

theorem exec_writeMod (hi : exec i s = .next (s.writeMod off w f)) (ha : s.AdmitsMod off w) {g : Module → Module}
    (hg : f (s.noted w).mod = g (s.noted w).mod) : exec i s = .next ((s.noted w).onMod g) := by
  rw [hi, s.writeMod_eq off w f ha, State.onMod_congr _ hg]

end

theorem Module.rd_raise_ne (m : Module) {page bit off : Nat} (h1 : off ≠ page + 0x14) (h2 : off ≠ page + 0x20) :
    (m.raise page bit).rd off = m.rd off :=
  (Module.rd_wr_ne _ _ (by omega)).trans (Module.rd_wr_ne _ _ (by omega))

section
variable {m : Module} {r : Requester} {field bit : Nat}

theorem Module.blowFuse_locked (h : r ≠ .keeperFw ∨ m.fuses.fieldLock = true) : m.blowFuse r field bit = m :=
  if_pos (by simpa using h)

/-- A blow begins (R461). -/
theorem Module.blowFuse_starts (hr : r = .keeperFw) (hl : m.fuses.fieldLock = false) (hb : m.blow = none) (hf : field ≠ 3)
    (hbit : bit ≤ 95) : (m.blowFuse r field bit).blow = some (field, bit) ∧ (m.blowFuse r field bit).fuses = m.fuses := by
  unfold Module.blowFuse
  dsimp only
  rw [if_neg (by simp [hr, hl]), if_neg (by simp [Module.wr, hb]), if_neg (by simp [hf, hbit])]
  exact ⟨rfl, rfl⟩

/-- A bit that PROT_MAP does not have is refused (R461). -/
theorem Module.blowFuse_outside (hr : r = .keeperFw) (hl : m.fuses.fieldLock = false) (hb : m.blow = none) (hbit : 95 < bit) :
    (m.blowFuse r field bit).blow = none ∧ (m.blowFuse r field bit).fuses = m.fuses ∧
      bits ((m.blowFuse r field bit).rd (FUS + 0x8C)) 24 8 = Status.internal := by
  unfold Module.blowFuse
  dsimp only
  rw [if_neg (by simp [hr, hl]), if_neg (by simp [Module.wr, hb]), if_pos (by simp [hbit])]
  refine ⟨hb, rfl, ?_⟩
  rw [Module.rd_raise_ne _ (by decide) (by decide), Module.rd_wr_same]
  exact bits_setField_at _ _ (by decide)

/-- A blow done (R460, R461). -/
theorem exec_fuseBlowDone {s : State} {f b : Nat} (h : s.mod.blow = some (f, b)) :
    ∃ t, exec .fuseBlowDone s = .next t ∧ t.mod.blow = none ∧ t.mod.fuses = s.mod.fuses.blown f b ∧
      t.mod.sensed = s.mod.sensed ∧ bits (t.mod.rd (FUS + 0x8C)) 24 8 = Status.done := by
  obtain ⟨z, hz⟩ : ∃ z, z = (Module.wr { s.mod with blow := none, fuses := s.mod.fuses.blown f b } (FUS + 0x8C)
      (setField (s.mod.rd (FUS + 0x8C)) 24 8 Status.done.toNat)).raise FUS 0 := ⟨_, rfl⟩
  have hx : exec .fuseBlowDone s = .next (s.onMod fun _ => z) := by
    refine congrArg Host.Outcome.next (State.onMod_congr s ?_)
    rw [h, hz]
    rfl
  have hp := s.onMod_mod fun _ => z
  refine ⟨_, hx, ?_, ?_, ?_, ?_⟩
  · rw [hp.eq, hz]
    rfl
  · rw [hp.eq, hz]
    rfl
  · rw [hp.eq, hz]
    rfl
  · rw [State.onMod_modRd, hz, Module.rd_raise_ne _ (by decide) (by decide), Module.rd_wr_same]
    exact bits_setField_at _ _ (by decide)

/-- The anti-rollback bits below a number (R471). -/
theorem getLsbD_below (n i : Nat) (hn : n ≤ 64) : (BitVec.ofNat 64 (2 ^ n - 1)).getLsbD i = decide (i < n) := by
  rw [BitVec.getLsbD_ofNat, Nat.testBit_two_pow_sub_one]
  by_cases h : i < n
  · simp [h, Nat.lt_of_lt_of_le h hn]
  · simp [h]

theorem le_arbCount {f : Fuses} {n : Nat} (hn : n ≤ 64) (h : ∀ i < n, f.arb.getLsbD i = true) : n ≤ f.arbCount := by
  have hsub : List.range n ⊆ (List.range 64).filter fun i => f.arb.getLsbD i := fun i hi => by
    have hi := List.mem_range.mp hi
    exact List.mem_filter.mpr ⟨List.mem_range.mpr (Nat.lt_of_lt_of_le hi hn), h i hi⟩
  have hle := (List.subperm_of_subset List.nodup_range hsub).length_le
  rwa [List.length_range] at hle

/-- The counter reaches the running image's number, and images below it are gone (R471). -/
theorem Module.advanceArb_spec {n : Nat} (hfb : m.fallback = false) (hsvn : m.svn? m.running = some n) :
    (n ≤ m.fuses.arbCount → m.advanceArb = m) ∧
    (m.fuses.arbCount < n → m.advanceArb.fuses = { m.fuses with arb := m.fuses.arb ||| BitVec.ofNat 64 (2 ^ n - 1) } ∧
      m.advanceArb.images = m.images.filter fun e => n ≤ fwField e.2.bytes 8 4) := by
  unfold Module.advanceArb
  rw [if_neg (by rw [hfb]; decide), hsvn]
  exact ⟨fun h => if_pos h, fun h => by dsimp only; rw [if_neg (Nat.not_le.mpr h)]; exact ⟨rfl, rfl⟩⟩

end

theorem exec_arbAdvance {s : State} {w : Who} {n : Nat} (ha : s.AdmitsMod (SEC + 0x0C) w) (hfb : s.mod.fallback = false)
    (hsvn : s.mod.svn? s.mod.running = some n) :
    (n ≤ s.mod.fuses.arbCount → exec (.arbAdvance w) s = .next ((s.noted w).onMod id)) ∧
    (s.mod.fuses.arbCount < n → n ≤ 64 → ∃ t, exec (.arbAdvance w) s = .next t ∧ n ≤ t.mod.fuses.arbCount ∧
      (∀ i, t.mod.fuses.arb.getLsbD i = (s.mod.fuses.arb.getLsbD i || decide (i < n))) ∧
      ∀ k b, t.mod.image? k = some b → n ≤ fwField b 8 4) := by
  obtain ⟨-, hfuses, hk⟩ := s.noted_rest w
  have hsvn' : (s.noted w).mod.svn? (s.noted w).mod.running = some n := by
    unfold Module.svn? Module.image? at hsvn ⊢
    rw [← hk.images, ← hk.running]
    exact hsvn
  obtain ⟨hsame, hadv⟩ := Module.advanceArb_spec (hk.fallback.symm.trans hfb) hsvn'
  rw [hfuses] at hsame hadv
  refine ⟨fun h => exec_writeMod rfl ha (hsame h), fun h hn => ⟨_, exec_writeMod rfl ha rfl, ?_⟩⟩
  obtain ⟨hf, hi⟩ := hadv h
  have hkept := ((s.noted w).onMod_mod fun m => m.advanceArb).keeper
  have hbits (i : Nat) : ((s.noted w).onMod fun m => m.advanceArb).mod.fuses.arb.getLsbD i =
      (s.mod.fuses.arb.getLsbD i || decide (i < n)) := by
    rw [hkept.fuses, hf, BitVec.getLsbD_or, getLsbD_below n i hn]
  refine ⟨le_arbCount hn fun i hi => ?_, hbits, fun k b hb => ?_⟩
  · rw [hbits, decide_eq_true hi, Bool.or_true]
  · unfold Module.image? at hb
    rw [hkept.images, hi] at hb
    obtain ⟨v, hv, rfl⟩ := Option.map_eq_some_iff.mp hb
    obtain ⟨e, he, rfl⟩ := SMap_mem_of_find? hv
    exact of_decide_eq_true (List.mem_filter.mp he).2

/-- Settles O55: each row is its equation; a blow done sets its own bit and no other. -/
theorem fusesAreBlownByVaroreAlone : Obligations.FusesAreBlownByVaroreAlone := by
  intro s w m
  obtain ⟨hblow, hfuses, -⟩ := s.noted_rest w
  refine ⟨fun ha => ⟨fun h i => ?_, fun hr hl hb => ?_⟩, fun f b h => exec_fuseBlowDone h,
    fun n ha hfb hsvn => exec_arbAdvance ha hfb hsvn⟩
  · have hlock : w.req ≠ .keeperFw ∨ (s.noted w).mod.fuses.fieldLock = true := by
      rw [hfuses]
      exact h
    exact ⟨exec_writeMod rfl ha (Module.blowFuse_locked hlock), exec_writeMod rfl ha (Module.blowFuse_locked hlock),
      exec_writeMod rfl ha (Module.blowFuse_locked hlock)⟩
  · have hl : (s.noted w).mod.fuses.fieldLock = false := by
      rw [hfuses]
      exact hl
    have hb : (s.noted w).mod.blow = none := hblow.trans hb
    have hstarts (row : Instr) (field bit : Nat)
        (hi : exec row s = .next (s.writeMod (FUS + 0x8C) w fun m => m.blowFuse w.req field bit)) (hf : field ≠ 3)
        (hbit : bit ≤ 95) : ∃ t, exec row s = .next t ∧ t.mod.blow = some (field, bit) ∧ t.mod.fuses = s.mod.fuses := by
      obtain ⟨h1, h2⟩ := Module.blowFuse_starts hr hl hb hf hbit
      have hp := (s.noted w).onMod_mod fun m => m.blowFuse w.req field bit
      refine ⟨_, exec_writeMod hi ha rfl, (congrArg Module.blow hp.eq).trans h1, ?_⟩
      exact ((congrArg Module.fuses hp.eq).trans h2).trans hfuses
    refine ⟨fun i hi => hstarts _ 0 i.val rfl (by decide) hi, fun i hi => ?_, hstarts _ 1 0 rfl (by decide) (by decide),
      hstarts _ 2 0 rfl (by decide) (by decide)⟩
    obtain ⟨h1, h2, h3⟩ := Module.blowFuse_outside (field := 0) hr hl hb hi
    have hp := (s.noted w).onMod_mod fun m => m.blowFuse w.req 0 i.val
    refine ⟨_, exec_writeMod rfl ha rfl, (congrArg Module.blow hp.eq).trans h1,
      ((congrArg Module.fuses hp.eq).trans h2).trans hfuses, ?_⟩
    rw [State.onMod_modRd]
    exact h3

end Sys2Proof.Machine

/-! PROOFS. The Inlet: frames, streams, flow control and bring-up (R295, R446 to R457). -/

namespace Sys2Proof.Machine

/-! A frame that arrives (R449 to R451). -/

section
variable {q : Polder} {x : PolCtx} {f : Frame} {out lenOk : Bool} {act : Polder → Polder}

theorem Polder.acceptFrame_down (h : q.inlet.up = false) : q.acceptFrame x f out lenOk act = q := if_pos (by simp [h])

theorem Polder.acceptFrame_other (hup : q.inlet.up = true)
    (h : f.srcIp ≠ x.peerIp q f.stream.val ∨ x.strOut q f.stream.val = !out) : q.acceptFrame x f out lenOk act = q.rxOther := by
  unfold Polder.acceptFrame
  dsimp only
  rw [if_neg (by simp [hup])]
  refine if_pos ?_
  obtain h | h := h
  · simp [h]
  · rw [h]
    cases out <;> simp

section
variable (hup : q.inlet.up = true) (hip : f.srcIp = x.peerIp q f.stream.val) (hout : x.strOut q f.stream.val = out)
  (hlen : lenOk = true)
include hup hip hout hlen

/-- A frame of its peer, direction and length is met by its session (R451). -/
theorem Polder.acceptFrame_named : q.acceptFrame x f out lenOk act =
    if f.session = 0 || f.session ≠ (q.stream f.stream.val).session then q.rxStale else act q := by
  unfold Polder.acceptFrame
  dsimp only
  rw [if_neg (by simp [hup]), if_neg (by simp [hip, hout, hlen])]

theorem Polder.acceptFrame_stale (h : f.session = 0 ∨ f.session ≠ (q.stream f.stream.val).session) :
    q.acceptFrame x f out lenOk act = q.rxStale := by
  rw [Polder.acceptFrame_named hup hip hout hlen]
  exact if_pos (by simpa using h)

theorem Polder.acceptFrame_acts (h0 : f.session ≠ 0) (h : f.session = (q.stream f.stream.val).session) :
    q.acceptFrame x f out lenOk act = act q := by
  rw [Polder.acceptFrame_named hup hip hout hlen]
  refine if_neg ?_
  rw [Bool.or_eq_true, decide_eq_true_eq, decide_eq_true_eq]
  exact fun hor => hor.elim h0 fun hne => hne h

end

end

/-! DATA frames (R453, R454). -/

section
variable {q : Polder} {x : PolCtx} {f : Frame}

theorem Polder.admitData_gap (h : f.offset.toNat ≠ (q.stream f.stream.val).expect) : q.admitData x f =
    ((q.count (INL + 0xD0) 1 (place := 1 + f.stream.val)).raise INL 3).sendNack f.stream.val Status.done true
      (q.stream f.stream.val).expect := if_pos h

section
variable (ho : f.offset.toNat = (q.stream f.stream.val).expect)
include ho

theorem Polder.admitData_quota (h : x.creditEnd q f.stream.val < f.offset.toNat + f.payload.length ∨
    3125 * bitsN (x.cfg q (INL + 0xAC) f.stream.val) 16 9 < 4 * ((q.stream f.stream.val).used + f.payload.length)) :
    q.admitData x f = ((q.count (INL + 0xC8) 1 (place := 1 + f.stream.val)).raise INL 2).sendNack f.stream.val
      Status.refusedQuota false f.offset.toNat := by
  unfold Polder.admitData
  dsimp only
  rw [if_neg (not_not.mpr ho)]
  exact if_pos (by simpa using h)

variable (hc : f.offset.toNat + f.payload.length ≤ x.creditEnd q f.stream.val)
  (hb : 4 * ((q.stream f.stream.val).used + f.payload.length) ≤
    3125 * bitsN (x.cfg q (INL + 0xAC) f.stream.val) 16 9)
include hc hb

omit ho in
theorem Polder.admitData_room : ¬ (decide (x.creditEnd q f.stream.val < f.offset.toNat + f.payload.length) ||
    decide (3125 * bitsN (x.cfg q (INL + 0xAC) f.stream.val) 16 9 <
      4 * ((q.stream f.stream.val).used + f.payload.length))) = true := by
  rw [Bool.or_eq_true, decide_eq_true_eq, decide_eq_true_eq, not_or, Nat.not_lt, Nat.not_lt]
  exact ⟨hc, hb⟩

theorem Polder.admitData_busy (h : x.stagingFree q f.stream.val < f.payload.length) : q.admitData x f =
    ((q.count (INL + 0xCC) 1 (place := 1 + f.stream.val)).raise INL 2).sendNack f.stream.val Status.refusedBusy false
      f.offset.toNat := by
  have hroom := Polder.admitData_room hc hb
  unfold Polder.admitData
  dsimp only
  rw [if_neg (not_not.mpr ho), if_neg hroom]
  exact if_pos h

/-- A frame that passes is admitted whole. -/
theorem Polder.admitData_admits (h : f.payload.length ≤ x.stagingFree q f.stream.val) :
    ((q.admitData x f).stream f.stream.val).expect = f.offset.toNat + f.payload.length ∧
    ((q.admitData x f).stream f.stream.val).used = (q.stream f.stream.val).used + f.payload.length ∧
    (q.admitData x f).inlet.staging = q.inlet.staging ++ [⟨f.stream, (q.stream f.stream.val).session, f.offset.toNat,
      f.payload, f.last, decide (3125 * bitsN (x.cfg q (INL + 0xAC) f.stream.val) 0 9 <
        4 * ((q.stream f.stream.val).used + f.payload.length))⟩] := by
  have hroom := Polder.admitData_room hc hb
  unfold Polder.admitData
  dsimp only
  rw [if_neg (not_not.mpr ho), if_neg hroom, if_neg (Nat.not_lt.mpr h)]
  have hset (p : Polder) (g : Inlet → Inlet) (v : Stream) (hg : (g (p.setStream f.stream.val v).inlet).streams =
      (p.setStream f.stream.val v).inlet.streams) : ((p.setStream f.stream.val v).onInlet g).stream f.stream.val = v :=
    (congrArg (SMap.get (fun _ => Stream.reset) · f.stream.val) hg).trans (SMap.get_set_same _ _ _ _)
  refine ⟨?_, ?_, ?_⟩
  · rw [hset _ _ _ rfl]
  · rw [hset _ _ _ rfl]
  · split <;> rfl

end

end

/-! The rows of the frames (R446, R449 to R454, R457). -/

section
variable {s : State} {p : Pid} {f : Frame} {row : Instr} {ty : BitVec 4} {out lenOk : Bool}
  {act : PolCtx → Polder → Polder} (hl : s.live p 5 = true)
  (hi : exec row s = .next (s.event p 5 fun x q => if f.type ≠ ty then q else q.acceptFrame x f out lenOk (act x)))
include hl hi

/-- A port that is down and a frame of another type change nothing; another peer's or direction's frame is counted. -/
theorem frame_met :
    ((s.pol p).inlet.up = false ∨ f.type ≠ ty → s.Gives row p (s.pol p)) ∧
    ((s.pol p).inlet.up = true → f.type = ty → f.srcIp ≠ (s.ctxOf p).peerIp (s.pol p) f.stream.val ∨
      (s.ctxOf p).strOut (s.pol p) f.stream.val = !out → s.Gives row p (s.pol p).rxOther) := by
  refine ⟨fun h => State.gives_event hi hl ?_, fun hup ht h =>
    State.gives_event hi hl ((if_neg (not_not.mpr ht)).trans (Polder.acceptFrame_other hup h))⟩
  by_cases ht : f.type = ty
  · rw [if_neg (not_not.mpr ht)]
    exact Polder.acceptFrame_down (h.resolve_right (not_not.mpr ht))
  · exact if_pos ht

theorem frame_acts (ht : f.type = ty) (hup : (s.pol p).inlet.up = true)
    (hip : f.srcIp = (s.ctxOf p).peerIp (s.pol p) f.stream.val) (hout : (s.ctxOf p).strOut (s.pol p) f.stream.val = out)
    (hlen : lenOk = true) :
    (f.session = 0 ∨ f.session ≠ ((s.pol p).stream f.stream.val).session → s.Gives row p (s.pol p).rxStale) ∧
    (f.session ≠ 0 → f.session = ((s.pol p).stream f.stream.val).session → s.Gives row p (act (s.ctxOf p) (s.pol p))) :=
  ⟨fun h => State.gives_event hi hl ((if_neg (not_not.mpr ht)).trans (Polder.acceptFrame_stale hup hip hout hlen h)),
    fun h0 h => State.gives_event hi hl
      ((if_neg (not_not.mpr ht)).trans (Polder.acceptFrame_acts hup hip hout hlen h0 h))⟩

end

section
variable {s : State} {p : Pid} {f : Frame} (hwf : f.wf = true)
include hwf

theorem exec_inletDataFrame : exec (.inletDataFrame p f) s = .next (s.event p 5 fun x q =>
    if f.type ≠ 1 then q
    else q.acceptFrame x f false (64 ≤ f.payload.length && f.payload.length % 64 == 0) fun q => q.admitData x f) :=
  if_neg (by rw [hwf]; decide)

/-- What a CREDIT does to its stream (R449, R457). -/
def Polder.creditTaken (f : Frame) (q : Polder) : Polder :=
  q.setStream f.stream.val { q.stream f.stream.val with
    delivered := BitVec.ofNat 64 (max (q.stream f.stream.val).delivered.toNat (min f.offset.toNat (q.stream f.stream.val).next))
    limit := max (q.stream f.stream.val).limit f.limit.toNat
    flying := (q.stream f.stream.val).flying.filter fun g => decide
      (max (q.stream f.stream.val).delivered.toNat (min f.offset.toNat (q.stream f.stream.val).next) < g.offset + g.data.length)
    again := (q.stream f.stream.val).again.filter fun g => decide
      (max (q.stream f.stream.val).delivered.toNat (min f.offset.toNat (q.stream f.stream.val).next) < g.offset + g.data.length) }

theorem exec_inletCreditFrame : exec (.inletCreditFrame p f) s = .next (s.event p 5 fun x q =>
    if f.type ≠ 2 then q else q.acceptFrame x f true f.payload.isEmpty (Polder.creditTaken f)) :=
  if_neg (by rw [hwf]; decide)

/-- What a NACK does to its stream (R449, R457). -/
def Polder.nackTaken (f : Frame) (q : Polder) : Polder :=
  q.setStream f.stream.val { q.stream f.stream.val with
    flying := (q.stream f.stream.val).flying.filter fun g =>
      !(decide (f.offset.toNat < g.offset + g.data.length) || g.offset == f.offset.toNat)
    again := (q.stream f.stream.val).flying.filter
      (fun g => decide (f.offset.toNat < g.offset + g.data.length) || g.offset == f.offset.toNat) ++
        (q.stream f.stream.val).again }

theorem exec_inletNackFrame : exec (.inletNackFrame p f) s = .next (s.event p 5 fun x q =>
    if f.type ≠ 4 then q else q.acceptFrame x f true f.payload.isEmpty (Polder.nackTaken f)) :=
  if_neg (by rw [hwf]; decide)

end

theorem Polder.stream_setStream_same (p : Polder) (k : Nat) (v : Stream) : (p.setStream k v).stream k = v := by
  rw [Polder.stream_setStream, if_pos rfl]

@[simp] theorem Polder.sent_stream (p : Polder) (k : Nat) : p.sent.stream k = p.stream k := rfl

/-! Pauses, staged frames and bring-up (R295, R446, R452, R454, R456, R457). -/

section
variable {s : State} {p : Pid}

/-- INLET_PFC_FRAME (R446, R457). -/
theorem exec_inletPfcFrame (hl : s.live p 5 = true) (en pause : BitVec 8) (hup : (s.pol p).inlet.up = true) :
    ∃ t, exec (.inletPfcFrame p en pause) s = .next t ∧
      let on := en &&& bits ((s.ctxOf p).cfg (s.pol p) (INL + 0x5C)) 0 8
      (t.pol p).inlet = { (s.pol p).inlet with paused := ((s.pol p).inlet.paused &&& ~~~on) ||| (pause &&& on) } := by
  have hg := State.gives_event (i := .inletPfcFrame p en pause) rfl hl (if_neg (by rw [hup]; decide))
  obtain ⟨t, he, ht⟩ := hg.pol
  refine ⟨t, he, ?_⟩
  dsimp only
  rw [ht, Polder.sent_inlet]
  have hc (q : Polder) (c : Prop) [Decidable c] : (if c then q.count (INL + 0x74) 1 else q).inlet = q.inlet := by
    split <;> rfl
  have hr (q : Polder) (c : Prop) [Decidable c] : (if c then q.raise INL 4 else q).inlet = q.inlet := by split <;> rfl
  rw [hr, hc]
  rfl

/-- The signal of a frame reaches the queue of increments alone (R455). -/
theorem Polder.inletSignal_kept (q : Polder) (k : Nat) : (q.inletSignal k).inlet = q.inlet ∧ (q.inletSignal k).mem = q.mem := by
  unfold Polder.inletSignal
  dsimp only
  split
  · exact ⟨rfl, rfl⟩
  · split
    · split <;> exact ⟨rfl, rfl⟩
    · split <;> exact ⟨rfl, rfl⟩

/-- A frame that lies in its ring: it leaves staging, and its stream is told (R449, R455). -/
def Polder.frameDone (q : Polder) (f : Staged) : Polder :=
  let q := q.onInlet fun i => { i with staging := i.staging.erase f }
  let v := q.stream f.stream.val
  let q := if f.session = v.session then
      q.setStream f.stream.val { v with delivered := BitVec.ofNat 64 (q.inlet.visible f.stream.val v) }
    else q
  if f.last then q.inletSignal f.stream.val else q

theorem Polder.frameDone_spec (q : Polder) (f : Staged) :
    (q.frameDone f).inlet.staging = q.inlet.staging.erase f ∧ (q.frameDone f).mem = q.mem := by
  have hset (r : Polder) (k : Nat) (v : Stream) (c : Prop) [Decidable c] :
      (if c then r.setStream k v else r).inlet.staging = r.inlet.staging ∧ (if c then r.setStream k v else r).mem = r.mem := by
    split <;> exact ⟨rfl, rfl⟩
  have hlast (r : Polder) (k : Nat) (c : Prop) [Decidable c] :
      (if c then r.inletSignal k else r).inlet.staging = r.inlet.staging ∧ (if c then r.inletSignal k else r).mem = r.mem := by
    obtain ⟨h1, h2⟩ := r.inletSignal_kept k
    split
    · exact ⟨congrArg Inlet.staging h1, h2⟩
    · exact ⟨rfl, rfl⟩
  unfold Polder.frameDone
  dsimp only
  exact ⟨(hlast _ _ _).1.trans (hset _ _ _ _).1, (hlast _ _ _).2.trans (hset _ _ _ _).2⟩

/-- INLET_FRAME_DELIVERED (R454, R455). -/
theorem exec_inletFrameDelivered (hl : s.live p 4 = true) {f : Staged} {r : Polder} {b : Bool}
    (hn : (s.pol p).inlet.nextStaged = some f)
    (hw : Polder.writeRings (s.ctxOf p) f.stream.val (ringPieces ((s.ctxOf p).ringBytes (s.pol p) f.stream.val) f.offset f.data)
      (s.pol p) = (r, b)) : s.Gives (.inletFrameDelivered p) p (if b then r.frameDone f else r) := by
  refine State.gives_event rfl hl ?_
  rw [hn]
  dsimp only
  rw [hw]
  cases b <;> rfl

/-- A CREDIT leaves the port UP and its page's events (R452). -/
theorem Polder.sendCredit_kept (q : Polder) (x : PolCtx) (k : Nat) : (q.sendCredit x k).inlet.up = q.inlet.up ∧
    ∀ off place, (q.sendCredit x k).rd off place = q.rd off place := by
  unfold Polder.sendCredit Polder.sendFrame
  dsimp only
  split
  · exact ⟨rfl, fun _ _ => rfl⟩
  · split <;> exact ⟨rfl, fun _ _ => rfl⟩

/-- INLET_BRINGUP of a port that comes UP (R295, R452). -/
theorem exec_inletBringup_up (hl : s.live p 5 = true) (hen : ((s.pol p).rd (INL + 0x0C)).getLsbD 0 = true)
    (hup : (s.pol p).inlet.up = false) : ∃ t, exec (.inletBringup p false false) s = .next t ∧
      (t.pol p).inlet.up = true ∧ ((t.pol p).rd (INL + 0x14)).getLsbD 0 = true := by
  have hg := State.gives_event (i := .inletBringup p false false) rfl hl
    ((if_neg (by rw [hen]; decide)).trans ((if_neg (by decide)).trans ((if_neg (by decide)).trans
      (if_neg (by rw [hup]; decide)))))
  obtain ⟨t, he, ht⟩ := hg.pol
  refine ⟨t, he, ?_⟩
  rw [ht]
  have hfold (l : List Nat) (q : Polder) (h : q.inlet.up = true ∧ (q.rd (INL + 0x14)).getLsbD 0 = true) :
      (l.foldl (fun (q : Polder) k => q.sendCredit (s.ctxOf p) k) q).inlet.up = true ∧
        ((l.foldl (fun (q : Polder) k => q.sendCredit (s.ctxOf p) k) q).rd (INL + 0x14)).getLsbD 0 = true :=
    List.foldlRecOn (motive := fun r : Polder => r.inlet.up = true ∧ (r.rd (INL + 0x14)).getLsbD 0 = true) l _ h
      fun r hr k _ => by
        obtain ⟨h1, h2⟩ := r.sendCredit_kept (s.ctxOf p) k
        exact ⟨h1.trans hr.1, by rw [h2]; exact hr.2⟩
  refine hfold _ _ ⟨rfl, ?_⟩
  rw [Polder.rd_raise_event, BitVec.getLsbD_or]
  exact Bool.or_true _

end

/-! Sessions, credit timers, snapshots and pauses that go out (R451 to R453, R456, R457). -/

section
variable {s : State} {p : Pid}

/-- A write of INL_STR_SESSION that reaches its page (R451, R466). -/
theorem exec_inletSessionWrite {w : Who} (n : W32) (ha : s.Admits p (INL + 0x84) w) :
    exec (.inletSessionWrite p w n) s = .next ((s.noted w).sessionWrite p w n) := by
  have hcls : ∀ g, polPage (INL + 0x84) = some g → g.blk.cls = Blk.cls .inl := by decide
  obtain ⟨hp, g, hg, hgate⟩ := ha
  rw [hcls g hg] at hgate
  show Host.Outcome.next (s.throughPol p (s.polGate p (Blk.cls .inl) (INL + 0x84) w true) w (INL + 0x84) _) = _
  rw [hgate, State.throughPol_eq s p w (INL + 0x84) _ hp]

theorem State.noted_denied (s : State) (w : Who) (r : Requester) (c : PageClass) (b : Bool) :
    (s.noted w).mod.denied r c b = s.mod.denied r c b := by
  obtain ⟨u, h⟩ := s.noted_mod w
  have hs : (s.noted w).mod.sensed = s.mod.sensed := (congrArg Module.sensed h.eq :)
  unfold Module.denied
  rw [hs]

theorem State.sessionWrite_cases (s : State) (p : Pid) (w : Who) (n : W32) :
    let q := s.pol p
    let x := s.ctxOf p
    let j := q.sel (INL + 0x7C) w
    (n = 0 ∨ x.strOut q j = true ∨ s.mod.denied .inlet (ringClass (x.ringBase q j)) true = false →
      s.sessionWrite p w n = s.settle p q.summary (q.writeSession x j n)) ∧
    (n ≠ 0 → x.strOut q j = false → s.mod.denied .inlet (ringClass (x.ringBase q j)) true = true →
      s.sessionWrite p w n = s.onMod fun m => m.deny .inlet (x.ringBase q j).toNat) := by
  intro q x j
  unfold State.sessionWrite
  refine ⟨fun h => if_neg ?_, fun hn ho hd => if_pos ?_⟩
  · have hopen : (decide (n ≠ 0) && !x.strOut q j && s.mod.denied .inlet (ringClass (x.ringBase q j)) true) = false := by
      obtain h | h | h := h
      · rw [decide_eq_false (not_not.mpr h)]
        rfl
      · rw [h, Bool.not_true, Bool.and_false]
        rfl
      · rw [h, Bool.and_false]
    exact ne_true_of_eq_false hopen
  · have hden : (decide (n ≠ 0) && !x.strOut q j && s.mod.denied .inlet (ringClass (x.ringBase q j)) true) = true := by
      rw [decide_eq_true hn, ho, hd]
      rfl
    exact hden

variable (hl : s.live p 5 = true)
include hl

/-- INLET_CREDIT_TIMER (R452, R453). -/
theorem exec_inletCreditTimer (k : Fin 16) :
    let q' := (s.pol p).setStream k.val { (s.pol p).stream k.val with nacked := [] }
    let w := q'.stream k.val
    s.Gives (.inletCreditTimer p k) p
      (if (s.ctxOf p).creditEnd q' k.val ≠ w.creditLimit ∨ w.delivered.toNat ≠ w.creditDone
        then q'.sendCredit (s.ctxOf p) k.val else q') := by
  intro q' w
  refine State.gives_event rfl hl (if_congr ?_ rfl rfl)
  rw [Bool.or_eq_true, decide_eq_true_eq, decide_eq_true_eq]

/-- INLET_SNAPSHOT_SEND (R457). -/
theorem exec_inletSnapshotSend (k : Fin 16) :
    ((s.pol p).inlet.up = true → (s.pol p).outOpen (s.ctxOf p) k.val = true →
      (s.pol p).inlet.paused.getLsbD ((s.ctxOf p).strPrio (s.pol p) k.val) = false →
      s.Gives (.inletSnapshotSend p k) p ((s.pol p).sendSnap k.val)) ∧
    ((s.pol p).inlet.up = false ∨ (s.pol p).outOpen (s.ctxOf p) k.val = false →
      s.Gives (.inletSnapshotSend p k) p (s.pol p)) := by
  refine ⟨fun hup ho hpa => State.gives_event rfl hl (if_neg ?_), fun h => State.gives_event rfl hl (if_pos ?_)⟩
  · rw [hup, ho, hpa, Bool.and_false]
    decide
  · obtain h | h := h
    · rw [h]
      rfl
    · rw [h, Bool.not_false, Bool.or_true, Bool.true_or]

/-- The open IN streams of a priority (R456). -/
def Polder.insOf (q : Polder) (x : PolCtx) (n : Nat) : List Nat :=
  (List.range 16).filter fun k => (q.stream k).session != 0 && !x.strOut q k && x.strPrio q k == n

omit hl in
theorem Polder.mem_insOf (q : Polder) (x : PolCtx) (n j : Nat) : j ∈ q.insOf x n ↔
    j < 16 ∧ (q.stream j).session ≠ 0 ∧ x.strOut q j = false ∧ x.strPrio q j = n := by
  unfold Polder.insOf
  rw [List.mem_filter, List.mem_range]
  simp [and_assoc]

/-- INLET_PFC_SEND (R456). -/
theorem exec_inletPfcSend (n : Fin 8) (hup : (s.pol p).inlet.up = true) (hon : (s.ctxOf p).pfcOn (s.pol p) n.val = true) :
    let q := s.pol p
    let x := s.ctxOf p
    let room := 65536 * bitsN (x.cfg q (INL + 0x5C)) 16 8
    let bit : BitVec 8 := BitVec.ofNat 8 (2 ^ n.val)
    ((∃ j ∈ q.insOf x n.val, x.stagingFree q j < room) → ∃ t, exec (.inletPfcSend p n) s = .next t ∧
      (t.pol p).inlet = { q.inlet with xoff := q.inlet.xoff ||| bit, pfcOut := q.inlet.pfcOut ++ [(bit, 0xFFFF#16)] }) ∧
    ((∀ j ∈ q.insOf x n.val, 2 * room ≤ x.stagingFree q j ∧ room ≤ x.stagingFree q j) →
      q.inlet.xoff.getLsbD n.val = true → s.Gives (.inletPfcSend p n) p (q.onInlet fun i => { i with
        xoff := i.xoff &&& ~~~bit, pfcOut := i.pfcOut ++ [(bit, 0#16)] })) := by
  intro q x room bit
  refine ⟨fun ⟨j, hj, hr⟩ => ?_, fun h hx => State.gives_event rfl hl ((if_neg ?_).trans ((if_neg ?_).trans (if_pos ?_)))⟩
  · have hg := State.gives_event (i := .inletPfcSend p n) rfl hl ((if_neg (by rw [hup, hon]; decide)).trans
      (if_pos (List.any_eq_true.mpr ⟨j, hj, decide_eq_true hr⟩)))
    obtain ⟨t, he, ht⟩ := hg.pol
    refine ⟨t, he, ?_⟩
    rw [ht, Polder.sent_inlet]
    dsimp only
    split <;> rfl
  · rw [hup, hon]
    decide
  · rw [List.any_eq_true]
    exact fun ⟨j, hj, hr⟩ => absurd (of_decide_eq_true hr) (Nat.not_lt.mpr (h j hj).2)
  · refine (Bool.and_eq_true _ _).mpr ⟨hx, List.all_eq_true.mpr fun j hj => decide_eq_true (h j hj).1⟩

end

/-- Settles O56: each row is its equation; what a frame's checks leave is said by the frame lemmas of the streams. -/
theorem inletFramesMoveTheirData : Obligations.InletFramesMoveTheirData := by
  refine ⟨fun p f s hwf hl => ?_, fun p s k => ?_⟩
  · intro q x k v o len bw lenOk named
    have hdata := exec_inletDataFrame (s := s) (p := p) hwf
    have hcredit := exec_inletCreditFrame (s := s) (p := p) hwf
    have hnack := exec_inletNackFrame (s := s) (p := p) hwf
    have hdown (hup : q.inlet.up = true) : ¬ (!(s.pol p).inlet.up) = true := by
      rw [show (s.pol p).inlet.up = true from hup]
      decide
    refine ⟨List.forall_mem_cons.mpr ⟨frame_met (out := false) hl hdata, List.forall_mem_cons.mpr
      ⟨frame_met (out := true) hl hcredit, List.forall_mem_singleton.mpr (frame_met (out := true) hl hnack)⟩⟩,
      fun ht hn hout hlen => ?_, fun hp hn hout h0 hses => ⟨fun ht => ?_, fun ht => ?_⟩,
      fun en pause hup => exec_inletPfcFrame hl en pause hup,
      fun hup => ⟨State.gives_event rfl hl (if_neg (hdown hup)), State.gives_event rfl hl (if_neg (hdown hup)),
        State.gives_event rfl hl (if_neg (hdown hup))⟩⟩
    · have hlen' : (64 ≤ f.payload.length && f.payload.length % 64 == 0) = true := by
        rw [decide_eq_true hlen.1, hlen.2]
        rfl
      obtain ⟨hstale, hact⟩ := frame_acts hl hdata ht hn.1 hn.2 hout hlen'
      refine ⟨hstale, fun h0 hses => ?_⟩
      have hg := hact h0 hses
      refine ⟨fun ho => ?_, fun ho h => ?_, fun ho hc hb h => ?_, fun ho hc hb h => ?_⟩
      · rw [Polder.admitData_gap ho] at hg
        exact hg
      · rw [Polder.admitData_quota ho h] at hg
        exact hg
      · rw [Polder.admitData_busy ho hc hb h] at hg
        exact hg
      · obtain ⟨t, he, htp⟩ := hg.pol
        refine ⟨t, he, ?_⟩
        rw [htp]
        exact Polder.admitData_admits ho hc hb h
    · obtain ⟨t, he, htp⟩ := ((frame_acts hl hcredit ht hn.1 hn.2 hout (by rw [hp]; rfl)).2 h0 hses).pol
      refine ⟨t, he, ?_⟩
      rw [htp, Polder.sent_stream, Polder.creditTaken, Polder.stream_setStream_same]
      refine ⟨rfl, rfl, rfl, fun g hg => ?_⟩
      obtain ⟨hm, hd⟩ := List.mem_filter.mp hg
      exact ⟨hm, of_decide_eq_true hd⟩
    · obtain ⟨t, he, htp⟩ := ((frame_acts hl hnack ht hn.1 hn.2 hout (by rw [hp]; rfl)).2 h0 hses).pol
      refine ⟨t, he, ?_⟩
      rw [htp, Polder.sent_stream, Polder.nackTaken, Polder.stream_setStream_same]
  · intro q x v
    refine ⟨fun hl => ⟨fun h => State.gives_event rfl hl ?_, fun f r hn => ⟨fun hw => ?_, fun hw => ?_⟩⟩, fun w n ha => ?_,
      fun w n ha => State.gives_page rfl ha rfl, fun hl => ⟨exec_inletCreditTimer hl k, (exec_inletSnapshotSend hl k).1,
        (exec_inletSnapshotSend hl k).2, fun n => ?_, fun hen h => ?_⟩⟩
    · have hnone : (s.pol p).inlet.nextStaged = none := by
        unfold Inlet.nextStaged
        rw [show (s.pol p).inlet.staging = [] from h]
        rfl
      rw [hnone]
    · exact exec_inletFrameDelivered hl hn hw
    · obtain ⟨t, he, ht⟩ := (exec_inletFrameDelivered hl hn hw).pol
      refine ⟨t, he, ?_⟩
      rw [ht]
      exact r.frameDone_spec f
    · intro u j x
      have hx := exec_inletSessionWrite n ha
      obtain ⟨hopen, hden⟩ := (s.noted w).sessionWrite_cases p w n
      rw [State.noted_pol, State.noted_denied] at hopen hden
      exact ⟨fun h => hx.trans (congrArg Host.Outcome.next (hopen h)),
        fun hn ho hd => hx.trans (congrArg Host.Outcome.next (hden hn ho hd))⟩
    · intro room mine bit hup hon
      obtain ⟨hpause, hresume⟩ := exec_inletPfcSend hl n hup hon
      refine ⟨fun ⟨j, hj, hm, hr⟩ => hpause ⟨j, (q.mem_insOf x n.val j).mpr ⟨hj, hm⟩, hr⟩, fun h hxoff =>
        hresume (fun j hj => ?_) hxoff⟩
      obtain ⟨hj, hm⟩ := (q.mem_insOf x n.val j).mp hj
      exact h j hj hm
    · have hon : ¬ (!((s.pol p).rd (INL + 0x0C)).getLsbD 0) = true := by
        rw [show ((s.pol p).rd (INL + 0x0C)).getLsbD 0 = true from hen]
        decide
      exact ⟨State.gives_event rfl hl ((if_neg hon).trans (if_pos rfl)),
        State.gives_event rfl hl ((if_neg hon).trans ((if_neg (by decide)).trans (if_pos rfl))),
        fun hup => State.gives_event rfl hl ((if_neg hon).trans ((if_neg (by decide)).trans ((if_neg (by decide)).trans
          (if_pos hup)))), exec_inletBringup_up hl hen⟩

end Sys2Proof.Machine

/-! PROOFS. The supply, module reset, the polders' rails and the thermal policy (R398, R421, R437, R461, R480 to
R486). -/

namespace Sys2Proof.Machine

/-! Requests of tier 3 that end with an error (R253, R486). -/

theorem Polder.request_mem (p : Polder) (x : PolCtx) (t : Txn) (a : Asker) : (p.request x t a).1.mem = p.mem :=
  (congrArg Polder.mem (RequestsOnly.request p x t a).1 :)

theorem Polder.xferAsk_mem (p : Polder) (x : PolCtx) (v : Xfer) (t : Txn) : (p.xferAsk x v t).mem = p.mem := by
  have hr := p.request_mem x t .xfer
  unfold Polder.xferAsk
  split
  case h_1 q _ hq => rw [hq] at hr; exact hr
  case h_2 q _ hq => rw [hq] at hr; exact hr

theorem Polder.xferGo_mem (p : Polder) (x : PolCtx) (v : Xfer) : (p.xferGo x v).mem = p.mem := by
  unfold Polder.xferGo
  dsimp only
  split
  · rfl
  · split
    · exact p.xferAsk_mem x _ _
    · exact p.xferAsk_mem x _ _

theorem Polder.xferDone_mem (p : Polder) (x : PolCtx) (op : Byte) (st : Status) (data : List Byte) :
    (p.xferDone x op st data).mem = p.mem := by
  unfold Polder.xferDone
  split
  · rfl
  split
  · rfl
  split
  · rfl
  split
  · exact p.xferAsk_mem x _ _
  · exact p.xferGo_mem x _

theorem Polder.sendCpl_mem (p : Polder) (x : PolCtx) (t : Txn) : (p.sendCpl x t).mem = p.mem :=
  (congrArg Polder.mem (RequestsOnly.enqueue p x _).1 :)

theorem Polder.finishReq_mem (p : Polder) (x : PolCtx) (r : OutReq) (st : Status) (d : Bool) (data : List Byte) :
    (p.finishReq x r st d data).mem = p.mem := by
  unfold Polder.finishReq
  dsimp only
  split
  case h_1 e => split <;> rfl
  case h_2 ch => rfl
  case h_3 =>
    split
    · rfl
    split
    · exact Polder.sendCpl_mem _ x _
    · rfl
  case h_4 => exact Polder.xferDone_mem _ x _ _ _
  all_goals rfl

theorem Polder.answer_mem (p : Polder) (x : PolCtx) (t : Txn) (st : Status) (d : Bool) (data : List Byte) :
    (p.answer x t st d data).mem = p.mem := by
  unfold Polder.answer
  split
  · split
    · exact p.finishReq_mem x _ st d data
    · rfl
  · exact p.sendCpl_mem x _

theorem length_joinMate (q : Tier3Req) (st : Status) (data : List Byte) (b : Bool) (l : List Tier3Req) :
    (joinMate q st data b l).length = l.length := by
  induction l with
  | nil => rfl
  | cons r l ih =>
    unfold joinMate
    split
    · rfl
    · exact congrArg (· + 1) ih

theorem Polder.dropFill_tier3 (p : Polder) (page : Nat) (st : Status) : (p.dropFill page st).mem.tier3 = p.mem.tier3 := by
  have hfold (l : List (Nat × Byte)) (q : Polder) :
      (l.foldl (fun p e => p.sendHost (page * mib2 + e.1) [some e.2]) q).mem.tier3 = q.mem.tier3 :=
    List.foldlRecOn (motive := fun r : Polder => r.mem.tier3 = q.mem.tier3) l _ rfl fun _ hr _ _ => hr
  unfold Polder.dropFill
  split
  · rfl
  · exact hfold _ _

/-- A request that ends with an error leaves, and none takes its place (R253). -/
theorem Polder.t3Done_fails (p : Polder) (x : PolCtx) (i : Nat) (q : Tier3Req) {st : Status} (h : st ≠ Status.done) :
    (p.t3Done x i q st []).mem.tier3.length ≤ (p.mem.tier3.eraseIdx i).length := by
  have hst : (if q.bad = Status.done then st else q.bad) ≠ Status.done := by
    split
    · exact h
    · assumption
  unfold Polder.t3Done
  dsimp only
  split
  · split
    · refine le_of_eq ?_
      show List.length (if _ then _ else _) = _
      split
      · rw [List.length_append, length_joinMate, ← List.length_append, List.take_append_drop]
      · exact length_joinMate _ _ _ _ _
    · split <;> exact le_rfl
  · rw [Polder.answer_mem]
    exact le_rfl
  · split
    · exact le_rfl
    · rw [if_pos hst, Polder.dropFill_tier3]
      exact le_rfl
  · split
    · rw [if_neg hst]
      dsimp only
      rw [decide_eq_false hst, Bool.false_and, if_neg (by decide)]
      exact le_rfl
    · exact le_rfl

/-- Where only one port is up, every request is on it and ends (R486). -/
theorem Polder.dropPort_all (x : PolCtx) (port n : Nat) (p : Polder) (h : p.mem.tier3.length ≤ n) :
    (Polder.dropPort x false port n 0 p).mem.tier3 = [] := by
  induction n generalizing p with
  | zero => exact List.length_eq_zero_iff.mp (Nat.le_zero.mp h)
  | succ n ih =>
    unfold Polder.dropPort
    split
    case h_1 hnone =>
      exact List.length_eq_zero_iff.mp (Nat.le_zero.mp (List.getElem?_eq_none_iff.mp hnone))
    case h_2 r hr =>
      rw [if_pos (show onPort x.free false port (p.mem.tier3.length - 0) = true from rfl)]
      refine ih _ (le_trans (p.t3Done_fails x 0 r (by decide)) ?_)
      have hlt : 0 < p.mem.tier3.length := (List.getElem?_eq_some_iff.mp hr).1
      rw [List.length_eraseIdx_of_lt hlt]
      omega


/-! What records, completions and the boot ROM leave of the supply. -/

theorem Module.Posted.supply {m n : Module} (h : m.Posted n) : n.power = m.power ∧ n.sensed = m.sensed :=
  ⟨(congrArg Module.power h.eq :), (congrArg Module.sensed h.eq :)⟩

theorem Module.boot_supply (m : Module) (slot : Bool) :
    (m.boot slot).power = m.power ∧ (m.boot slot).sensed = m.sensed := by
  have hfirst := (m.testSlot_spec slot).2
  have hother := ((m.testSlot slot).1.testSlot_spec (!slot)).2
  unfold Module.boot
  split
  case h_1 n hn =>
    rw [hn] at hfirst
    exact hfirst.supply
  case h_2 n hn =>
    rw [hn] at hfirst hother
    have hboth := hfirst.trans hother
    split
    case h_1 k hk =>
      rw [hk] at hboth
      exact (hboth.supply)
    case h_2 k hk =>
      rw [hk] at hboth
      exact (hboth.supply)

theorem State.onPowered_perst (s : State) (f : PolCtx → Polder → Polder) : (s.onPowered f).mod.perst = s.mod.perst :=
  List.foldlRecOn (motive := fun t : State => t.mod.perst = s.mod.perst) (List.finRange 4) _ rfl fun t ht r _ => by
    split
    · exact (congrArg Module.perst (t.onPol_mod r f).eq :).trans ht
    · exact ht

/-! The supply (R481, R482, R485). -/

/-- What is left when the module's rails go: fuses, boot flash and the queue (R481, R482, R485). -/
def State.Dark (s t : State) (pw : Power) : Prop :=
  t.mod.power = pw ∧ t.mod.fuses = s.mod.fuses ∧ t.mod.images = s.mod.images ∧ (∀ p, t.mod.powered p = false) ∧
    t.mod.keeper = Module.reset.keeper ∧ t.mod.active = Image.zero ∧ t.pending = s.pending

theorem State.lose_dark (s : State) (pw : Power) : s.Dark (s.lose pw) pw ∧ (s.lose pw).mod.cfgNext = 1 :=
  ⟨⟨rfl, rfl, rfl, fun _ => rfl, rfl, rfl, rfl⟩, rfl⟩

/-- The boot ROM runs once the module leaves reset, and tries slot A first (R461, R484). -/
theorem modResetRelease_boots {s : State} (h : s.mod.power = .modReset) : ∃ t, exec .modResetRelease s = .next t ∧
    t.mod.power = .on ∧ t.mod.sensed = s.mod.fuses ∧
    (s.mod.slotOk false = true → t.mod.keeper = .booting ∧ t.mod.running = false) := by
  refine ⟨_, congrArg Host.Outcome.next (if_pos h), ?_⟩
  generalize hb : ({ s.mod with power := .on, sensed := s.mod.fuses } : Module) = b
  have hok : b.slotOk false = s.mod.slotOk false := by rw [← hb]; rfl
  have hpost := s.onMod_mod (fun m => ({ m with power := .on, sensed := m.fuses } : Module).boot false)
  rw [hb] at hpost
  obtain ⟨hpower, hsensed⟩ := b.boot_supply false
  obtain ⟨-, hboot, -⟩ := b.boot_spec false
  rw [hpost.supply.1, hpost.supply.2, hpost.keeper.keeper, hpost.keeper.running, hpower, hsensed]
  refine ⟨by rw [← hb], by rw [← hb], fun h => ?_⟩
  obtain ⟨hk, hr, -⟩ := hboot (hok.trans h)
  exact ⟨hk, hr⟩

/-- A port taken down, and the tier-3 requests on it ended (R486). -/
def State.portDown (s : State) (port : Fin 2) : State :=
  ({ s with mod := { s.mod with perst := s.mod.perst &&& ~~~(BitVec.ofNat 2 (2 ^ port.val)) } } : State).onPowered
    fun x p => Polder.dropPort x (s.mod.perst == 3) port.val (p.mem.tier3.length + 1) 0 p

theorem State.exec_perstAssert {s : State} {port : Fin 2} (h : s.mod.perst.getLsbD port.val = true) :
    ∃ n, exec (.perstAssert port) s = .next { s.portDown port with free := n } :=
  ⟨_, congrArg Host.Outcome.next (if_pos h)⟩

theorem State.portDown_perst (s : State) (port : Fin 2) : (s.portDown port).mod.perst.getLsbD port.val = false := by
  have hclear : ∀ (v : BitVec 2) (k : Fin 2), (v &&& ~~~(BitVec.ofNat 2 (2 ^ k.val))).getLsbD k.val = false := by decide
  unfold State.portDown
  rw [State.onPowered_perst]
  exact hclear _ port

theorem State.portDown_tier3 (s : State) (port : Fin 2) (h : s.mod.perst ≠ 3) (p : Pid) (hp : s.mod.powered p = true) :
    ((s.portDown port).pol p).mem.tier3 = [] := by
  unfold State.portDown
  rw [beq_eq_false_iff_ne.mpr h]
  exact State.onPowered_pol (P := fun q => q.mem.tier3 = []) _
    (fun x q => Polder.dropPort_all x port.val _ q (Nat.le_succ _)) p hp


/-- Settles O57: the losses are one state; the boot ROM and a dropped port keep what the frame lemmas say. -/
theorem supplyAndModuleResetRunTheirSequence : Obligations.SupplyAndModuleResetRunTheirSequence := by
  intro s m keeps
  refine ⟨fun h => ?_, fun h => ?_, modResetRelease_boots, fun h => ?_, fun h => ?_, fun h => ?_, fun h hb => ?_,
    fun port => ⟨fun h => ?_, ?_⟩⟩
  · have hup : s.mod.power.up = false := by
      obtain h | h := h
      · exact congrArg Power.up h
      · exact congrArg Power.up h
    exact ⟨_, congrArg Host.Outcome.next (if_neg (ne_true_of_eq_false hup)), rfl, rfl⟩
  · exact congrArg Host.Outcome.next (if_pos h)
  · exact congrArg Host.Outcome.next (if_pos h)
  · obtain ⟨hoff, hnext⟩ := s.lose_dark .off
    obtain ⟨htrip, hnext'⟩ := s.lose_dark .tripped
    exact ⟨⟨_, congrArg Host.Outcome.next (if_pos h), hoff, hnext⟩,
      ⟨_, congrArg Host.Outcome.next (if_pos h), htrip, hnext'⟩⟩
  · have hgroup : (decide (s.mod.power = .modReset) || decide (s.mod.power = .on)) = true := by
      obtain h | h := h
      · rw [show s.mod.power = .on from h]; rfl
      · rw [show s.mod.power = .modReset from h]; rfl
    obtain ⟨hoff, hnext⟩ := s.lose_dark .off
    exact ⟨_, congrArg Host.Outcome.next (if_pos hgroup), hoff, hnext⟩
  · refine ⟨_, congrArg Host.Outcome.next (if_pos h), ⟨rfl, ?_, rfl, fun _ => rfl, rfl, rfl, rfl⟩, rfl, rfl⟩
    show (match s.mod.blow with
      | some (f, b) => if (Config.freeWord s.free).getLsbD 0 then s.mod.fuses.blown f b else s.mod.fuses
      | none => s.mod.fuses) = s.mod.fuses
    rw [show s.mod.blow = none from hb]
  · obtain ⟨n, hn⟩ := State.exec_perstAssert h
    have hperst := s.portDown_perst port
    have htier := s.portDown_tier3 port
    generalize s.portDown port = u at hn hperst htier
    exact ⟨_, hn, hperst, htier⟩
  · exact ⟨_, rfl, rfl, rfl⟩

/-! Polder power (R398, R482, R483). -/

theorem State.followRails_offBy (s : State) (p : Pid) : (s.followRails p).mod.offBy = s.mod.offBy := by
  have hb (f : Module → Module) (hf : (f s.mod).offBy = s.mod.offBy) : (s.onMod f).mod.offBy = s.mod.offBy :=
    (congrArg Module.offBy (s.onMod_mod f).eq :).trans hf
  rw [State.followRails_eq]
  split
  · rfl
  · refine hb _ ?_
    dsimp only
    split
    · exact (congrArg Module.offBy (Module.Posted.raise _ _ _).eq :)
    · split
      · exact (congrArg Module.offBy (Module.Posted.raise _ _ _).eq :)
      · rfl

theorem State.warden_offBy (s : State) (p : Pid) (f : PolCtx → Polder → Polder) :
    (s.warden p f).mod.offBy = s.mod.offBy :=
  ((s.onPol p f).followRails_offBy p).trans (congrArg Module.offBy (s.onPol_mod p f).eq :)

/-- A power cycle keeps the rails off (R397, R482). -/
theorem State.followRails_cycle (s : State) (p : Pid) (h : ∃ l ∈ (s.pol p).wdn.ladders, l.dom = .power) :
    (s.followRails p).mod.powered p = false := by
  obtain ⟨l, hl, hd⟩ := h
  have hoff : s.railWanted p = .off := by
    unfold State.railWanted
    rw [if_pos (Bool.or_eq_true_iff.mpr (.inr (List.any_eq_true.mpr ⟨l, hl, decide_eq_true hd⟩)))]
  rw [Module.powered_iff, State.followRails_rail, hoff]
  split <;> rfl

theorem State.warden_congr {s : State} {p : Pid} {f g : PolCtx → Polder → Polder}
    (h : f (s.ctxOf p) (s.pol p) = g (s.ctxOf p) (s.pol p)) : s.warden p f = s.warden p g := by
  have hpol : s.onPol p f = s.onPol p g := congrArg (s.settle p (s.pol p).summary) h
  unfold State.warden
  rw [hpol]

section
variable {s : State} {p : Pid} {f : PolCtx → Polder → Polder}

/-- What the Warden has failed is FAILED, with its rails off (R398, R483). -/
theorem State.warden_fails (h : (f (s.ctxOf p) (s.pol p)).wdn.st = .failed) : ((s.warden p f).pol p).wdn.st = .failed ∧
    (s.warden p f).mod.powered p = false ∧ (s.warden p f).mod.offBy = s.mod.offBy := by
  refine ⟨?_, State.followRails_failed _ p ?_, s.warden_offBy p f⟩
  · rw [State.warden_pol]
    exact h
  · rw [State.pol_onPol]
    exact h

/-- A power cycle the Warden begins switches the rails off (R389, R398, R482). -/
theorem State.warden_cycles (hst : (f (s.ctxOf p) (s.pol p)).wdn.st = .resetting)
    (hl : ∃ l ∈ (f (s.ctxOf p) (s.pol p)).wdn.ladders, l.dom = .power) :
    ((s.warden p f).pol p).wdn.st = .resetting ∧ (∃ l ∈ ((s.warden p f).pol p).wdn.ladders, l.dom = .power) ∧
      (s.warden p f).mod.powered p = false := by
  rw [State.warden_pol]
  refine ⟨hst, hl, State.followRails_cycle _ p ?_⟩
  rw [State.pol_onPol]
  exact hl

end

theorem Polder.fail_wdn (q : Polder) (x : PolCtx) :
    (((q.failed x 0).raise WDN 7).postFault x 6 0 0 0 q.wdn.polderInc).wdn.st = .failed := by
  rw [(Polder.WardenKept.postFault _ _ _ _ _ _ _).wdn, Polder.raise_wdn]
  exact (q.failed_wdn x 0).1

theorem State.fail_spec (s : State) (p : Pid) :
    ((s.fail p).pol p).wdn.st = .failed ∧ (s.fail p).mod.powered p = false ∧ (s.fail p).mod.offBy = s.mod.offBy :=
  State.warden_fails (Polder.fail_wdn _ _)

theorem Polder.beginReset_power (q : Polder) (x : PolCtx) : (q.beginReset x .power 0 0 0).wdn.st = .resetting ∧
    ∃ l ∈ (q.beginReset x .power 0 0 0).wdn.ladders, l.dom = .power := by
  obtain ⟨hs, rc, h⟩ := q.beginReset_wdn x .power 0 0 0
  rw [h]
  exact ⟨rfl, _, List.mem_append_right _ (List.mem_singleton.mpr rfl), rfl⟩

/-! Who switches a polder off and on (R483, R484). -/

theorem offBy_set : ∀ (v : BitVec 4) (p : Pid), (v ||| BitVec.ofNat 4 (2 ^ p.val)).getLsbD p.val = true := by decide

theorem offBy_clear : ∀ (v : BitVec 4) (p : Pid), (v &&& ~~~(BitVec.ofNat 4 (2 ^ p.val))).getLsbD p.val = false := by decide

section
variable {s : State} {p : Pid} {w : Who}

/-- A polder switched off, before its rails follow (R483). -/
def State.switchedOff (s : State) (p : Pid) (w : Who) : State :=
  ((s.noted w).onMod id).onMod fun m => { m with offBy := m.offBy ||| BitVec.ofNat 4 (2 ^ p.val) }

/-- A polder switched on, before its recovery begins (R483). -/
def State.switchedOn (s : State) (p : Pid) (w : Who) : State :=
  ((s.noted w).onMod id).onMod fun m => { m with offBy := m.offBy &&& ~~~(BitVec.ofNat 4 (2 ^ p.val)) }

/-- A polder that starts again from phase B of its recovery, in a new incarnation (R397, R483). -/
def Polder.restarted (x : PolCtx) (q : Polder) : Polder :=
  { q with gauge := { q.gauge with bin := x.mod.bin x.pid } }.onWdn fun w => { w with
    polderInc := w.polderInc + 1, st := .recovering, recovs := [⟨none, 2, 0, x.ticks⟩] }

theorem State.switchedOff_offBy : (s.switchedOff p w).mod.offBy.getLsbD p.val = true := by
  rw [show (s.switchedOff p w).mod.offBy = ((s.noted w).onMod id).mod.offBy ||| BitVec.ofNat 4 (2 ^ p.val) from
    (congrArg Module.offBy (State.onMod_mod ((s.noted w).onMod id) _).eq :)]
  exact offBy_set _ p

theorem State.switchedOn_offBy : (s.switchedOn p w).mod.offBy.getLsbD p.val = false := by
  rw [show (s.switchedOn p w).mod.offBy = ((s.noted w).onMod id).mod.offBy &&& ~~~(BitVec.ofNat 4 (2 ^ p.val)) from
    (congrArg Module.offBy (State.onMod_mod ((s.noted w).onMod id) _).eq :)]
  exact offBy_clear _ p

theorem State.switchedOn_pol : (s.switchedOn p w).pol p = s.pol p :=
  (State.onMod_pol _ _ p).trans ((State.onMod_pol _ _ p).trans (s.noted_pol w p))

variable (ha : s.AdmitsMod (PWR + 0x50) w)
include ha

theorem State.powerWrite_gate : (decide (s.mod.power = .on) && decide (s.modGate .platform w true = .open)) = true := by
  have hcls : ∀ g, modPage (PWR + 0x50) = some g → g.blk.cls = .platform := by decide
  obtain ⟨hp, g, hg, hgate⟩ := ha
  rw [hcls g hg] at hgate
  rw [decide_eq_true hp, decide_eq_true hgate]
  rfl

theorem exec_polderOff (h : s.mod.offBy.getLsbD p.val = false) :
    exec (.polderOff p w) s = .next ((s.switchedOff p w).fail p) := by
  have hgo : (decide (s.mod.power = .on) && decide (s.modGate .platform w true = .open) &&
      !s.mod.offBy.getLsbD p.val) = true := by
    rw [s.powerWrite_gate ha, h]
    rfl
  unfold State.switchedOff
  rw [← s.writeMod_eq _ w id ha]
  exact congrArg Host.Outcome.next (if_pos hgo)

theorem exec_polderOff_again (h : s.mod.offBy.getLsbD p.val = true) :
    exec (.polderOff p w) s = .next ((s.noted w).onMod id) := by
  have hgo : (decide (s.mod.power = .on) && decide (s.modGate .platform w true = .open) &&
      !s.mod.offBy.getLsbD p.val) = false := by
    rw [h]
    exact Bool.and_false _
  rw [← s.writeMod_eq _ w id ha]
  exact congrArg Host.Outcome.next (if_neg (ne_true_of_eq_false hgo))

theorem exec_polderOn (h : s.mod.offBy.getLsbD p.val = true) :
    exec (.polderOn p w) s = .next ((s.switchedOn p w).warden p Polder.restarted) := by
  have hgo : (decide (s.mod.power = .on) && decide (s.modGate .platform w true = .open) &&
      s.mod.offBy.getLsbD p.val) = true := by
    rw [s.powerWrite_gate ha, h]
    rfl
  unfold State.switchedOn
  rw [← s.writeMod_eq _ w id ha]
  exact congrArg Host.Outcome.next (if_pos hgo)

theorem exec_polderOn_again (h : s.mod.offBy.getLsbD p.val = false) :
    exec (.polderOn p w) s = .next ((s.noted w).onMod id) := by
  have hgo : (decide (s.mod.power = .on) && decide (s.modGate .platform w true = .open) &&
      s.mod.offBy.getLsbD p.val) = false := by
    rw [h]
    exact Bool.and_false _
  rw [← s.writeMod_eq _ w id ha]
  exact congrArg Host.Outcome.next (if_neg (ne_true_of_eq_false hgo))

end

/-- A write of POLDER_OFF or POLDER_ON (R483). -/
theorem polderIsSwitched {s : State} {p : Pid} {w : Who} (ha : s.AdmitsMod (PWR + 0x50) w) :
    (s.mod.offBy.getLsbD p.val = false → ∃ t, exec (.polderOff p w) s = .next t ∧ (t.pol p).wdn.st = .failed ∧
      t.mod.offBy.getLsbD p.val = true ∧ t.mod.powered p = false) ∧
    (s.mod.offBy.getLsbD p.val = true → exec (.polderOff p w) s = .next ((s.noted w).onMod id)) ∧
    (s.mod.offBy.getLsbD p.val = true → ∃ t, exec (.polderOn p w) s = .next t ∧ (t.pol p).wdn.st = .recovering ∧
      (t.pol p).wdn.polderInc = (s.pol p).wdn.polderInc + 1 ∧ (t.pol p).wdn.recovs = [⟨none, 2, 0, s.ticks⟩] ∧
      t.mod.offBy.getLsbD p.val = false) ∧
    (s.mod.offBy.getLsbD p.val = false → exec (.polderOn p w) s = .next ((s.noted w).onMod id)) := by
  refine ⟨fun h => ?_, exec_polderOff_again ha, fun h => ?_, exec_polderOn_again ha⟩
  · obtain ⟨hst, hoff, hby⟩ := (s.switchedOff p w).fail_spec p
    exact ⟨_, exec_polderOff ha h, hst, (congrArg (·.getLsbD p.val) hby).trans State.switchedOff_offBy, hoff⟩
  · have hwdn : (((s.switchedOn p w).warden p Polder.restarted).pol p).wdn =
        { (s.pol p).wdn with
          polderInc := (s.pol p).wdn.polderInc + 1, st := .recovering, recovs := [⟨none, 2, 0, s.ticks⟩] } := by
      rw [State.warden_pol, State.switchedOn_pol]
      rfl
    refine ⟨_, exec_polderOn ha h, ?_, ?_, ?_, ?_⟩
    · rw [hwdn]
    · rw [hwdn]
    · rw [hwdn]
    · rw [State.warden_offBy]
      exact State.switchedOn_offBy

/-! Overcurrent and PLL locks (R384, R398, R480, R482). -/

/-- The rails of a polder group with an overcurrent (R482). -/
def State.tripped (s : State) (p : Pid) : State :=
  s.onMod fun m =>
    let m := { m with rails := SMap.set (fun _ => Rail.off) m.rails p.val .fault }
    ((m.count (PWR + 0x58) 1 (2 * p.val) 2).raise PWR 0).raise PWR 1

theorem exec_railFault {s : State} {p : Pid} (hon : s.mod.power = .on) (hp : s.mod.powered p = true) :
    exec (.railFault p) s = .next (if (s.pol p).afterTrip then (s.tripped p).fail p
      else (s.tripped p).warden p fun x q => q.beginReset x .power 0 0 0) := by
  have hrail : s.mod.rail p ≠ .off := by
    rw [Module.powered_iff] at hp
    rw [of_decide_eq_true hp]
    decide
  have hpol : (s.tripped p).pol p = s.pol p := State.onMod_pol _ _ p
  rw [← hpol]
  refine congrArg Host.Outcome.next (if_pos ?_)
  exact Bool.and_eq_true_iff.mpr ⟨decide_eq_true hon, decide_eq_true hrail⟩

theorem railFault_cyclesOrFails {s : State} {p : Pid} (hon : s.mod.power = .on) (hp : s.mod.powered p = true) :
    ((s.pol p).afterTrip = false → ∃ t, exec (.railFault p) s = .next t ∧ (t.pol p).wdn.st = .resetting ∧
      (∃ l ∈ (t.pol p).wdn.ladders, l.dom = .power) ∧ t.mod.powered p = false) ∧
    ((s.pol p).afterTrip = true → ∃ t, exec (.railFault p) s = .next t ∧ (t.pol p).wdn.st = .failed ∧
      t.mod.powered p = false) := by
  have hex := exec_railFault hon hp
  refine ⟨fun h => ?_, fun h => ?_⟩
  · rw [if_neg (ne_true_of_eq_false h)] at hex
    obtain ⟨hst, hl⟩ := ((s.tripped p).pol p).beginReset_power ((s.tripped p).ctxOf p)
    exact ⟨_, hex, State.warden_cycles hst hl⟩
  · rw [if_pos h] at hex
    obtain ⟨hst, hoff, -⟩ := (s.tripped p).fail_spec p
    exact ⟨_, hex, hst, hoff⟩

theorem State.onMod_wdnLive {s : State} {f : Module → Module} (h : s.mod.Posted (f s.mod)) (p : Pid) :
    (s.onMod f).wdnLive p = s.wdnLive p := by
  unfold State.wdnLive
  rw [Module.powered_iff, Module.powered_iff, (Module.Posted.onMod h).rail, State.onMod_pol]

theorem pllLockLoss_resets {s : State} {p : Pid} (hon : s.mod.power = .on) (hl : s.wdnLive p = true)
    (hd : (s.pol p).dieDown 5 = false) : exec (.pllLockLoss (.polder p)) s =
      .next ((s.onMod fun m => m.count (CLK + 0x44) 1).warden p fun x q =>
        (q.raise WDN 0).ownReset x .polder 7 Status.resetAbort) := by
  have hlive : (s.onMod fun m => m.count (CLK + 0x44) 1).wdnLive p = true :=
    (State.onMod_wdnLive (Module.Posted.wr _ _ _ _) p).trans hl
  have hpol : (s.onMod fun m => m.count (CLK + 0x44) 1).pol p = s.pol p := State.onMod_pol _ _ p
  have hgo : (decide (JoinId.pll = .pll) && decide (s.mod.power = .on)) = true := by
    rw [hon]
    rfl
  have hex : exec (.pllLockLoss (.polder p)) s = (s.onMod fun m => m.count (CLK + 0x44) 1).watch p
      fun x q => if q.dieDown 5 then q else ((q.joinLost .pll).raise WDN 0).ownReset x .polder 7 Status.resetAbort :=
    congrArg (State.watch · p _) (if_pos hgo)
  refine hex.trans (congrArg Host.Outcome.next ((if_pos hlive).trans (State.warden_congr ?_)))
  rw [hpol]
  exact if_neg (ne_true_of_eq_false hd)

/-! The thermal policy (R421). -/

/-- The temperatures a Gauge holds and its clock bin stay. -/
structure Polder.HeatKept (p q : Polder) : Prop where
  hottest : q.gauge.hottest = p.gauge.hottest
  crit : q.gauge.crit = p.gauge.crit
  bin : q.gauge.bin = p.gauge.bin

theorem Polder.HeatKept.post (p : Polder) (x : PolCtx) (policy action subject : Nat) (detail : W64) :
    p.HeatKept (p.post x policy action subject detail) := by
  unfold Polder.post
  dsimp only
  split <;> exact ⟨rfl, rfl, rfl⟩

theorem Polder.setBin_gauge (p : Polder) (x : PolCtx) (b action : Nat) (ts : List Nat) :
    (p.setBin x b action ts).gauge.hottest = p.gauge.hottest ∧ (p.setBin x b action ts).gauge.crit = p.gauge.crit ∧
      (p.setBin x b action ts).gauge.bin = BitVec.ofNat 3 b := by
  have hraise (q : Polder) (c : Prop) [Decidable c] : q.HeatKept (if c then q else q.raise GAU 6) := by
    split <;> exact ⟨rfl, rfl, rfl⟩
  have hpost (q : Polder) (c : Prop) [Decidable c] (detail : W64) :
      q.HeatKept ((if c then q else q.raise GAU 6).post x 6 action (hottestDie ts) detail) :=
    have h1 := hraise q c
    have h2 := Polder.HeatKept.post (if c then q else q.raise GAU 6) x 6 action (hottestDie ts) detail
    ⟨h2.hottest.trans h1.hottest, h2.crit.trans h1.crit, h2.bin.trans h1.bin⟩
  unfold Polder.setBin
  have h := hpost { p with gauge := { p.gauge with bin := BitVec.ofNat 3 b, since := 0 } } (p.gauge.bin.toNat = b)
    (BitVec.ofNat 64 (p.gauge.bin.toNat + b * 2 ^ 8 + hottestOf ts * 2 ^ 16))
  exact ⟨h.hottest, h.crit, h.bin⟩

/-- The clock bin after a sample (R421). -/
def Polder.binAfter (q : Polder) (c : W32) (auto : Bool) (fused hot : Nat) : BitVec 3 :=
  if auto = false then q.gauge.bin
  else if 105 ≤ hot ∧ q.gauge.crit = false then 7
  else if q.gauge.since + 1 < 10 then q.gauge.bin
  else if bitsN c 0 8 ≤ hot ∧ q.gauge.bin.toNat < bitsN c 24 3 then q.gauge.bin + 1
  else if hot ≤ bitsN c 8 8 ∧ 99 ≤ q.gauge.cool ∧ fused < q.gauge.bin.toNat then q.gauge.bin - 1
  else q.gauge.bin

theorem bin_up (b : BitVec 3) : BitVec.ofNat 3 (b.toNat + 1) = b + 1 := by
  apply BitVec.eq_of_toNat_eq
  simp

theorem bin_down {b : BitVec 3} {n : Nat} (h : n < b.toNat) : BitVec.ofNat 3 (b.toNat - 1) = b - 1 := by
  apply BitVec.eq_of_toNat_eq
  have hb := b.isLt
  have h1 : (1 : BitVec 3).toNat = 1 := rfl
  simp only [BitVec.toNat_ofNat, BitVec.toNat_sub, h1]
  omega

theorem cool_full {hot low cool : Nat} : (if hot ≤ low then min 100 (cool + 1) else 0) = 100 ↔ hot ≤ low ∧ 99 ≤ cool := by
  split <;> omega

theorem Polder.thermal_gauge (q : Polder) (x : PolCtx) (ts : List Nat) :
    (q.thermal x ts).gauge.hottest = BitVec.ofNat 8 (hottestOf ts) ∧
    (q.thermal x ts).gauge.crit = decide (105 ≤ hottestOf ts) ∧
    (q.thermal x ts).gauge.bin = q.binAfter (x.cfg q (GAU + 0x84)) ((x.cfg q (GAU + 0x40)).getLsbD 5)
      (x.mod.bin x.pid).toNat (hottestOf ts) := by
  unfold Polder.thermal
  dsimp only
  generalize hk : ({ q with gauge := { q.gauge with
    hottest := BitVec.ofNat 8 (hottestOf ts), since := min 10 (q.gauge.since + 1)
    cool := if hottestOf ts ≤ bitsN (x.cfg q (GAU + 0x84)) 8 8 then min 100 (q.gauge.cool + 1) else 0
    crit := decide (105 ≤ hottestOf ts) } } : Polder) = k
  have hhot : k.gauge.hottest = BitVec.ofNat 8 (hottestOf ts) := by rw [← hk]
  have hcrit : k.gauge.crit = decide (105 ≤ hottestOf ts) := by rw [← hk]
  have hbin : k.gauge.bin = q.gauge.bin := by rw [← hk]
  have hcfg : x.cfg k (GAU + 0x40) = x.cfg q (GAU + 0x40) := by
    rw [← hk]
    exact x.cfg_congr rfl _ _
  rw [hcfg]
  have hset (b action : Nat) := k.setBin_gauge x b action ts
  unfold Polder.binAfter
  cases hauto : (x.cfg q (GAU + 0x40)).getLsbD 5
  case false => exact ⟨hhot, hcrit, hbin⟩
  case true =>
    rw [if_neg (show ¬(!true) = true by decide), if_neg (show ¬true = false by decide)]
    have hsince : min 10 (q.gauge.since + 1) < 10 ↔ q.gauge.since + 1 < 10 := by omega
    simp only [Bool.and_eq_true, decide_eq_true_eq, Bool.not_eq_true', cool_full, hsince, and_assoc]
    split
    · obtain ⟨h1, h2, h3⟩ := hset 7 3
      exact ⟨h1.trans hhot, h2.trans hcrit, h3⟩
    split
    · exact ⟨hhot, hcrit, hbin⟩
    split
    · obtain ⟨h1, h2, h3⟩ := hset (q.gauge.bin.toNat + 1) 1
      exact ⟨h1.trans hhot, h2.trans hcrit, h3.trans (bin_up _)⟩
    split
    case isTrue hd =>
      obtain ⟨-, -, hfast⟩ := hd
      obtain ⟨h1, h2, h3⟩ := hset (q.gauge.bin.toNat - 1) 2
      exact ⟨h1.trans hhot, h2.trans hcrit, h3.trans (bin_down hfast)⟩
    case isFalse => exact ⟨hhot, hcrit, hbin⟩

section
variable (p : Pid) (temps : BitVec 48) (m : Module)

/-- One sensor of a sample: the temperature of a die and its peak (R421, R491). -/
def Module.sense (m : Module) (i : Nat) : Module :=
  let k := 6 * p.val + i
  let t : Byte := bits temps (8 * i) 8
  let peak := SMap.get (fun _ => (0 : Byte)) m.peaks k
  { m with
    temps := SMap.set (fun _ => 0) m.temps k t
    peaks := SMap.set (fun _ => 0) m.peaks k (if peak.toNat < t.toNat then t else peak) }

def Module.sampled : Module := (List.range 6).foldl (Module.sense p temps) m

theorem Module.sampled_rest : (m.sampled p temps).sensed = m.sensed ∧ (m.sampled p temps).active = m.active :=
  List.foldlRecOn (motive := fun n : Module => n.sensed = m.sensed ∧ n.active = m.active) (List.range 6) _ ⟨rfl, rfl⟩
    fun _ hn _ _ => hn

theorem Module.sampled_temp {i : Nat} (hi : i < 6) :
    SMap.get (fun _ => (0 : Byte)) (m.sampled p temps).temps (6 * p.val + i) = bits temps (8 * i) 8 := by
  have h := foldl_at_of (step := Module.sense p temps) (P := fun _ => True) (f := fun i _ => (bits temps (8 * i) 8 : Byte))
    (get := fun m i => SMap.get (fun _ => (0 : Byte)) m.temps (6 * p.val + i)) (fun _ _ _ => trivial)
    (fun a k j _ => (SMap.get_set _ a.temps _ _ _).trans (if_congr (by omega) rfl rfl)) (List.range 6) List.nodup_range m trivial i
  exact h.trans (if_pos (List.mem_range.mpr hi))

theorem Module.sampled_peak {i : Nat} (hi : i < 6) :
    (SMap.get (fun _ => (0 : Byte)) m.peaks (6 * p.val + i)).toNat ≤
      (SMap.get (fun _ => (0 : Byte)) (m.sampled p temps).peaks (6 * p.val + i)).toNat := by
  have h := foldl_at_of (step := Module.sense p temps) (P := fun _ => True)
    (f := fun i v => if v.toNat < (bits temps (8 * i) 8 : Byte).toNat then (bits temps (8 * i) 8 : Byte) else v)
    (get := fun m i => SMap.get (fun _ => (0 : Byte)) m.peaks (6 * p.val + i)) (fun _ _ _ => trivial)
    (fun a k j _ => (SMap.get_set _ a.peaks _ _ _).trans (if_congr (by omega) rfl rfl)) (List.range 6) List.nodup_range m trivial i
  have hpeak := h.trans (if_pos (List.mem_range.mpr hi))
  rw [show (m.sampled p temps) = (List.range 6).foldl (Module.sense p temps) m from rfl, hpeak]
  split <;> omega

end

section
variable {p : Pid} {s : State}

/-- A sample as the module takes it: temperatures, peaks, and the events of the thresholds it crosses (R421, R491). -/
theorem exec_thermalSample (temps : BitVec 48) (hon : s.mod.power = .on) (hp : s.mod.powered p = true) :
    ∃ g : Module → Module, (∀ m : Module, (m.sampled p temps).Posted (g m)) ∧ exec (.thermalSample p temps) s =
      .next ((s.onMod g).onPol p fun x q => q.thermal x ((List.range 6).map fun i => bitsN temps (8 * i) 8)) := by
  have hraise (n : Module) (a b : Bool) :
      n.Posted (if b then (if a then n.raise THM 0 else n).raise THM 1 else if a then n.raise THM 0 else n) := by
    have h1 : n.Posted (if a then n.raise THM 0 else n) := by
      split
      · exact .raise _ _ _
      · exact .refl _
    split
    · exact h1.trans (.raise _ _ _)
    · exact h1
  have hgo : (decide (s.mod.power = .on) && s.mod.powered p) = true := by
    rw [hon, hp]
    rfl
  exact ⟨_, fun m => hraise (m.sampled p temps) _ _, congrArg Host.Outcome.next (if_pos hgo)⟩

/-- What a sample leaves (R421, R491). -/
theorem thermalSample_spec (temps : BitVec 48) (hon : s.mod.power = .on) (hp : s.mod.powered p = true) :
    let ts := (List.range 6).map fun i => bitsN temps (8 * i) 8
    ∃ t, exec (.thermalSample p temps) s = .next t ∧ (t.pol p).gauge.hottest = BitVec.ofNat 8 (hottestOf ts) ∧
      (t.pol p).gauge.crit = decide (105 ≤ hottestOf ts) ∧
      (∀ i < 6, SMap.get (fun _ => (0 : Byte)) t.mod.temps (6 * p.val + i) = bits temps (8 * i) 8 ∧
        (SMap.get (fun _ => (0 : Byte)) s.mod.peaks (6 * p.val + i)).toNat ≤
          (SMap.get (fun _ => (0 : Byte)) t.mod.peaks (6 * p.val + i)).toNat) ∧
      (t.pol p).gauge.bin = (s.pol p).binAfter ((s.ctxOf p).cfg (s.pol p) (GAU + 0x84))
        (((s.ctxOf p).cfg (s.pol p) (GAU + 0x40)).getLsbD 5) (s.mod.bin p).toNat (hottestOf ts) := by
  intro ts
  obtain ⟨g, hg, hex⟩ := exec_thermalSample temps hon hp
  have hpost : (s.mod.sampled p temps).Posted (s.onMod g).mod := (hg s.mod).trans (s.onMod_mod g)
  have hall := hpost.trans ((s.onMod g).onPol_mod p fun x q => q.thermal x ts)
  have htemps := (congrArg Module.temps hall.eq :)
  have hpeaks := (congrArg Module.peaks hall.eq :)
  have hactive : (s.onMod g).mod.active = s.mod.active :=
    (congrArg Module.active hpost.eq :).trans (s.mod.sampled_rest p temps).2
  have hsensed : (s.onMod g).mod.sensed = s.mod.sensed :=
    hpost.supply.2.trans (s.mod.sampled_rest p temps).1
  have hcfg (off : Nat) : ((s.onMod g).ctxOf p).cfg (s.pol p) off = (s.ctxOf p).cfg (s.pol p) off := by
    unfold PolCtx.cfg State.ctxOf
    rw [hactive]
  have hbin : (s.onMod g).mod.bin p = s.mod.bin p := by
    unfold Module.bin
    rw [hsensed]
  obtain ⟨h1, h2, h3⟩ := (s.pol p).thermal_gauge ((s.onMod g).ctxOf p) ts
  have hgauge : (((s.onMod g).onPol p fun x q => q.thermal x ts).pol p).gauge =
      { ((s.pol p).thermal ((s.onMod g).ctxOf p) ts).gauge with queue := [] } := by
    rw [State.pol_onPol, State.onMod_pol]
    rfl
  refine ⟨_, hex, ?_, ?_, fun i hi => ⟨?_, ?_⟩, ?_⟩
  · rw [hgauge]
    exact h1
  · rw [hgauge]
    exact h2
  · rw [htemps]
    exact s.mod.sampled_temp p temps hi
  · rw [hpeaks]
    exact s.mod.sampled_peak p temps hi
  · rw [hgauge, ← hcfg, ← hcfg, ← hbin]
    exact h3

/-- A polder still critical when its time is out fails (R421). -/
theorem thermalCritTimeout_spec (hon : s.mod.power = .on) (hp : s.mod.powered p = true) :
    ((s.pol p).gauge.crit = true → (s.cfg p (GAU + 0x40)).getLsbD 5 = true → ∃ t,
      exec (.thermalCritTimeout p) s = .next t ∧ (t.pol p).wdn.st = .failed ∧ t.mod.powered p = false) ∧
    ((s.pol p).gauge.crit = false → exec (.thermalCritTimeout p) s = .next s) := by
  have hcond : (decide (s.mod.power = .on) && s.mod.powered p && (s.pol p).gauge.crit &&
      (s.cfg p (GAU + 0x40)).getLsbD 5) = ((s.pol p).gauge.crit && (s.cfg p (GAU + 0x40)).getLsbD 5) := by
    rw [hon, hp]
    rfl
  refine ⟨fun hc ha => ?_, fun hc => ?_⟩
  · obtain ⟨hst, hoff, -⟩ := s.fail_spec p
    refine ⟨_, congrArg Host.Outcome.next (if_pos (hcond.trans (by rw [hc, ha]; rfl))), ?_, ?_⟩
    · rw [State.onMod_pol]
      exact hst
    · rw [Module.powered_iff, (Module.Posted.onMod (Module.Posted.raise _ _ _)).rail]
      exact hoff
  · exact congrArg Host.Outcome.next (if_neg (ne_true_of_eq_false (hcond.trans (by rw [hc]; rfl))))

end

/-- Settles O58: a failed polder, a power cycle and a switch are acts of the Warden that the rails follow; a sample is
the thermal policy's cases. -/
theorem polderPowerFollowsItsManager : Obligations.PolderPowerFollowsItsManager := by
  refine ⟨fun p s w => ?_, fun p s temps hon hp => ⟨thermalSample_spec temps hon hp, thermalCritTimeout_spec hon hp⟩⟩
  intro q x
  refine ⟨fun h hall => State.gives_warden (congrArg Host.Outcome.next (if_pos ?_)) rfl, fun h => ?_,
    polderIsSwitched, railFault_cyclesOrFails, pllLockLoss_resets, fun hon hk => ?_⟩
  · refine Bool.and_eq_true_iff.mpr ⟨h, List.all_eq_true.mpr fun r _ => ?_⟩
    by_cases hr : s.mayPower r = true
    · rw [decide_eq_true (hall r hr)]
      rfl
    · rw [Bool.eq_false_of_not_eq_true hr]
      exact Bool.or_true _
  · refine congrArg Host.Outcome.next (if_neg (ne_true_of_eq_false ?_))
    rw [h]
    rfl
  · have hup : s.mod.keeperUp = true := Bool.and_eq_true_iff.mpr ⟨decide_eq_true hon, decide_eq_true hk⟩
    exact ⟨congrArg Host.Outcome.next (if_pos hup), congrArg Host.Outcome.next (if_pos hup)⟩
end Sys2Proof.Machine

/-! PROOFS. Register reads and writes: what an access is answered with, and what it changes (R8, R10, R66, R393, R466,
R467, R509, R511, R516 to R518, R527). -/

namespace Sys2Proof.Machine


/-! What accesses around a read leave of the answers. -/

theorem Module.Posted.replies {m n : Module} (h : m.Posted n) : n.replies = m.replies := (congrArg Module.replies h.eq :)

theorem State.noted_replies (s : State) (w : Who) : (s.noted w).mod.replies = s.mod.replies := by
  obtain ⟨u, h⟩ := s.noted_mod w
  exact h.replies

theorem State.onPolFree_replies (s : State) (p : Pid) (f : PolCtx → Polder → Polder) :
    (s.onPolFree p f).mod.replies = s.mod.replies := (s.onPol_mod p f).replies

/-- A direct read is answered with `a`, and no command joins or leaves the queue. -/
def State.Told (s t : State) (a : HostReply) : Prop := t.mod.replies = s.mod.replies ++ [a] ∧ t.pending = s.pending

/-- The answer of a direct read has gone back. -/
def State.withReply (t : State) (a : HostReply) : State :=
  { t with mod := { t.mod with replies := t.mod.replies ++ [a] } }

@[simp] theorem State.withReply_pol (t : State) (a : HostReply) (k : Pid) : (t.withReply a).pol k = t.pol k := rfl
@[simp] theorem State.withReply_free (t : State) (a : HostReply) : (t.withReply a).free = t.free := rfl
@[simp] theorem State.withReply_pols (t : State) (a : HostReply) : (t.withReply a).pols = t.pols := rfl

theorem State.told_withReply {s t : State} (hr : t.mod.replies = s.mod.replies) (hp : t.pending = s.pending)
    (a : HostReply) : s.Told (t.withReply a) a := ⟨congrArg (· ++ [a]) hr, hp⟩

theorem State.replied_value (t : State) (v : W32) (w : Who) :
    State.replied (t, .value v) w = t.withReply (.data (bytesOf v 4)) := rfl

theorem State.replied_down (t : State) (w : Who) :
    State.replied (t, .down) w = t.withReply (.data [0xFF, 0xFF, 0xFF, 0xFF]) := rfl

theorem State.replied_denied (t : State) {w : Who} (h : w.req ≠ .debug) :
    State.replied (t, .denied) w = t.withReply .abort := by
  unfold State.replied RegAns.reply
  dsimp only
  rw [if_neg h]
  rfl

/-! Reads of a polder's page (R393, R466, R509, R511, R518). -/

section
variable {s : State} {q : Pid} {off : BitVec 26} {g : Page} {w : Who}

/-- A polder's page has been read: its word goes back, and the read changes its own polder (R467, R509, R511, R518). -/
def State.ReadPol (s : State) (q : Pid) (g : Page) (o : Nat) (w : Who) (t : State) : Prop :=
  s.Told t (.data (bytesOf (s.polWord q g o w) 4)) ∧ t.free = s.free + 1 ∧
    ∀ k, (k = q ∧ t.pol k = ((s.pol q).readDone g o w (s.polWord q g (o + 4) w)).sent) ∨ (k ≠ q ∧ t.pol k = s.pol k)

theorem State.pol_readPol {o : Nat} {t : State} (h : s.ReadPol q g o w t) :
    t.pol q = ((s.pol q).readDone g o w (s.polWord q g (o + 4) w)).sent := by
  obtain ⟨-, -, hk⟩ := h
  obtain ⟨-, hq⟩ | ⟨hne, -⟩ := hk q
  · exact hq
  · exact absurd rfl hne

theorem State.throughPol_down (hon : s.mod.power = .on) (n : Nat) (f : State → State) :
    s.throughPol q .down w n f = (s.noted w).standIn q := by
  unfold State.throughPol
  rw [if_neg fun h => h hon]
  rfl

theorem State.throughPol_denied (hon : s.mod.power = .on) (n : Nat) (f : State → State) :
    s.throughPol q .denied w n f = (s.noted w).onMod fun m => m.deny w.req n := by
  unfold State.throughPol
  rw [if_neg fun h => h hon]
  rfl

theorem State.polRead_open (hon : s.mod.power = .on) (n : Nat) : s.polRead q g n w .open =
    ((s.noted w).onPolFree q fun _ p => p.readDone g (n % 0x1000) w (s.polWord q g (n % 0x1000 + 4) w),
      .value (s.polWord q g (n % 0x1000) w)) :=
  congrArg (·, RegAns.value (s.polWord q g (n % 0x1000) w)) (s.throughPol_eq q w n _ hon)

theorem State.readPol_replied (hon : s.mod.power = .on) (n : Nat) :
    s.ReadPol q g (n % 0x1000) w (State.replied (s.polRead q g n w .open) w) := by
  rw [s.polRead_open hon, State.replied_value]
  refine ⟨State.told_withReply ((State.onPolFree_replies _ _ _).trans (s.noted_replies w)) rfl _, rfl, fun k => ?_⟩
  rw [State.withReply_pol]
  by_cases hk : k = q
  · subst hk
    rw [State.pol_onPolFree, State.noted_pol]
    exact .inl ⟨rfl, rfl⟩
  · rw [State.pol_onPolFree_ne _ _ hk, State.noted_pol]
    exact .inr ⟨hk, rfl⟩

theorem State.polRead_down (hon : s.mod.power = .on) (n : Nat) :
    s.Told (State.replied (s.polRead q g n w .down) w) (.data [0xFF, 0xFF, 0xFF, 0xFF]) := by
  have hrest : ((s.noted w).standIn q).mod.replies = s.mod.replies ∧ ((s.noted w).standIn q).pending = s.pending := by
    unfold State.standIn
    split
    · exact ⟨(State.onPol_mod _ q _).replies.trans (s.noted_replies w), rfl⟩
    · exact ⟨s.noted_replies w, rfl⟩
  have hread : s.polRead q g n w .down = ((s.noted w).standIn q, .down) :=
    congrArg (·, RegAns.down) (s.throughPol_down hon n _)
  rw [hread, State.replied_down]
  exact State.told_withReply hrest.1 hrest.2 _

theorem Module.Posted.recordErr (m : Module) (page : Nat) (code : Status) (ev kind src : Nat) (addr : W64) :
    m.Posted (m.recordErr page code ev kind src addr) :=
  ((Module.Posted.wr m _ _ _).trans (.wr _ _ _ _)).trans (.wr _ _ _ _)

theorem Module.Posted.deny (m : Module) (r : Requester) (n : Nat) : m.Posted (m.deny r n) := by
  unfold Module.deny Module.count
  exact ((Module.Posted.wr m _ _ _).trans (.raise _ _ _)).trans (.recordErr _ _ _ _ _ _ _)

theorem State.polRead_denied (hon : s.mod.power = .on) (hw : w.req ≠ .debug) (n : Nat) :
    s.Told (State.replied (s.polRead q g n w .denied) w) .abort ∧
      (State.replied (s.polRead q g n w .denied) w).pols = s.pols := by
  have hread : s.polRead q g n w .denied = ((s.noted w).onMod fun m => m.deny w.req n, .denied) :=
    congrArg (·, RegAns.denied) (s.throughPol_denied hon n _)
  rw [hread, State.replied_denied _ hw]
  have hr : ((s.noted w).onMod fun m => m.deny w.req n).mod.replies = s.mod.replies :=
    ((State.onMod_mod (s.noted w) _).replies.trans (Module.Posted.deny (s.noted w).mod w.req n).replies).trans
      (s.noted_replies w)
  exact ⟨State.told_withReply hr rfl _, rfl⟩

variable (hon : s.mod.power = .on) (hg : polPage off.toNat = some g) (halign : off.toNat % 4 = 0)
include hon hg halign

theorem State.directRead_polder : s.directRead (.polder q off) w =
    State.replied (s.polRead q g off.toNat w (s.polGate q g.blk.cls off.toNat w false)) w := by
  unfold State.directRead State.regRead
  rw [if_neg fun h => h hon]
  dsimp only
  rw [hg]
  dsimp only
  rw [if_neg fun h => h halign]

end

/-! What a read changes of its polder (R509, R511, R518). -/

section
variable {p : Polder} {g : Page} {w : Who} {high : W32}

theorem Polder.readDone_count (p : Polder) (g : Page) (w : Who) (high : W32) : (p.readDone g 0x20 w high).rd (g.base + 0x20) = 0 := by
  have h : p.readDone g 0x20 w high = p.wr (g.base + 0x20) 0 := rfl
  rw [h]
  exact p.rd_wr_same _ _ _

theorem Polder.readDone_error :
    SMap.find? (p.readDone g 0x24 w high).captured (g.base + 0x28) = some (p.rd (g.base + 0x28)) ∧
    SMap.find? (p.readDone g 0x24 w high).captured (g.base + 0x2C) = some (p.rd (g.base + 0x2C)) := by
  have h : (p.readDone g 0x24 w high).captured = SMap.insert (SMap.insert p.captured (g.base + 0x28) (p.rd (g.base + 0x28)))
    (g.base + 0x2C) (p.rd (g.base + 0x2C)) := rfl
  rw [h]
  refine ⟨?_, SMap.find?_insert_same _ _ _⟩
  rw [SMap.find?_insert_ne _ _ (by omega), SMap.find?_insert_same]

theorem Polder.readDone_rc {o : Nat} {r : RegInfo} (ho : 0x40 ≤ o) (hr : g.blk.find o = some r) (hacc : r.acc = .rc)
    (hc : capturesHigh g.blk o = false) (hh : highHalf g.blk o = false) :
    (p.readDone g o w high).rd (g.base + o) (if r.sel = 0 then 0 else 1 + p.entryOf g.base r w) =
      BitVec.ofNat 32 r.reset := by
  have h : p.readDone g o w high =
      p.wr (g.base + o) (BitVec.ofNat 32 r.reset) (if r.sel = 0 then 0 else 1 + p.entryOf g.base r w) := by
    unfold Polder.readDone
    rw [if_neg (by omega), if_neg (by omega), if_neg (by omega), if_neg (ne_true_of_eq_false hc),
      if_neg (ne_true_of_eq_false hh), hr]
    exact if_pos hacc
  rw [h]
  exact p.rd_wr_same _ _ _

end

/-- The location of ERR_CODE in a page is that of the page's own ERR_CODE (R509). -/
theorem inPage_polder (q : Pid) {off : BitVec 26} {o : Nat} (h : off.toNat % 0x1000 = o) :
    inPage (.polder q off) o = .polder q off := by
  refine congrArg (RegAddr.polder q) (BitVec.eq_of_toNat_eq ?_)
  have hlt := off.isLt
  rw [BitVec.toNat_ofNat]
  omega

theorem inPage_module {off : BitVec 32} {o : Nat} (h : off.toNat % 0x1000 = o) :
    inPage (.module off) o = .module off := by
  refine congrArg RegAddr.module (BitVec.eq_of_toNat_eq ?_)
  have hlt := off.isLt
  rw [BitVec.toNat_ofNat]
  omega

/-- Reads of a polder's page (R393, R466, R467, R509, R511, R518). -/
theorem polderPage_isRead {s : State} (w : Who) (hon : s.mod.power = .on) {q : Pid} {off : BitVec 26} {g : Page}
    (hg : polPage off.toNat = some g) (halign : off.toNat % 4 = 0) :
    let o := off.toNat % 0x1000
    let gate := fun w => s.polGate q g.blk.cls off.toNat w false
    (gate w = .open → ∃ t, exec (.rcRegisterRead (.page (.polder q off)) w) s = .next t ∧ s.ReadPol q g o w t ∧
      (o = 0x20 → (t.pol q).rd (g.base + 0x20) = 0) ∧
      (∀ r, 0x40 ≤ o → g.blk.find o = some r → r.acc = .rc → capturesHigh g.blk o = false → highHalf g.blk o = false →
        (t.pol q).rd (g.base + o) (if r.sel = 0 then 0 else 1 + (s.pol q).entryOf g.base r w) =
          BitVec.ofNat 32 r.reset) ∧
      (o = 0x24 → exec (.errCodeRead (.page (.polder q off)) w) s = .next t ∧
        SMap.find? (t.pol q).captured (g.base + 0x28) = some ((s.pol q).rd (g.base + 0x28)) ∧
        SMap.find? (t.pol q).captured (g.base + 0x2C) = some ((s.pol q).rd (g.base + 0x2C)))) ∧
    (gate ⟨.debug, 0⟩ = .open → ∃ t, exec (.debugAccess (.polder q off) none) s = .next t ∧
      s.ReadPol q g o ⟨.debug, 0⟩ t) ∧
    (gate w = .down → ∃ t, exec (.rcRegisterRead (.page (.polder q off)) w) s = .next t ∧
      s.Told t (.data [0xFF, 0xFF, 0xFF, 0xFF])) ∧
    (gate w = .denied → w.req ≠ .debug → ∃ t, exec (.rcRegisterRead (.page (.polder q off)) w) s = .next t ∧
      s.Told t .abort ∧ t.pols = s.pols) := by
  intro o gate
  have hread (w : Who) {x : Gate} (hx : gate w = x) :
      s.directRead (.polder q off) w = State.replied (s.polRead q g off.toNat w x) w :=
    hx ▸ State.directRead_polder hon hg halign
  refine ⟨fun h => ⟨_, congrArg Host.Outcome.next (hread w h), s.readPol_replied hon off.toNat, ?_⟩,
    fun h => ⟨_, congrArg Host.Outcome.next (hread _ h), s.readPol_replied hon off.toNat⟩,
    fun h => ⟨_, congrArg Host.Outcome.next (hread w h), s.polRead_down hon off.toNat⟩,
    fun h hw => ⟨_, congrArg Host.Outcome.next (hread w h), s.polRead_denied hon hw off.toNat⟩⟩
  rw [State.pol_readPol (s.readPol_replied hon off.toNat), Polder.sent_captured]
  refine ⟨fun ho => ?_, fun r ho hr hacc hc hh => Polder.readDone_rc ho hr hacc hc hh, fun ho => ⟨?_, ?_⟩⟩
  · rw [show off.toNat % 0x1000 = 0x20 from ho]
    exact (Polder.sent_rd _ _ _).trans ((s.pol q).readDone_count g w _)
  · have herr : exec (.errCodeRead (.page (.polder q off)) w) s = .next (s.directRead (inPage (.polder q off) 0x24) w) := rfl
    rw [herr, inPage_polder q ho]
    exact congrArg Host.Outcome.next (hread w h)
  · rw [show off.toNat % 0x1000 = 0x24 from ho]
    exact Polder.readDone_error

/-! Reads of a module page and of a cell's window (R65, R66, R509, R518, R527). -/

theorem Module.readDone_replies (m : Module) (g : Page) (o : Nat) (w : Who) : (m.readDone g o w).replies = m.replies := by
  unfold Module.readDone
  dsimp only
  split
  · rfl
  split
  · rfl
  split
  · rfl
  split
  · split
    · rfl
    · split <;> rfl
  · rfl

/-- Reads of a module page (R466, R509). -/
theorem modulePage_isRead {s : State} {w : Who} (hon : s.mod.power = .on) {off : BitVec 32} {g : Page}
    (hg : modPage off.toNat = some g) (halign : off.toNat % 4 = 0) (hgate : s.modGate g.blk.cls w false = .open) :
    let o := off.toNat % 0x1000
    ∃ t, exec (.rcRegisterRead (.page (.module off)) w) s = .next t ∧ s.Told t (.data (bytesOf (s.modWord g o w) 4)) ∧
      t.pols = s.pols ∧ (o = 0x24 → exec (.errCodeRead (.page (.module off)) w) s = .next t) := by
  intro o
  have hread : s.directRead (.module off) w =
      State.withReply { (s.noted w).onMod fun m => m.readDone g o w with free := s.free + 1 }
        (.data (bytesOf (s.modWord g o w) 4)) := by
    unfold State.directRead State.regRead
    rw [if_neg fun h => h hon]
    dsimp only
    rw [hg]
    dsimp only
    rw [if_neg fun h => h halign, hgate]
    rfl
  have hr : ((s.noted w).onMod fun m => m.readDone g o w).mod.replies = s.mod.replies :=
    ((State.onMod_mod (s.noted w) _).replies.trans ((s.noted w).mod.readDone_replies g o w)).trans (s.noted_replies w)
  refine ⟨_, congrArg Host.Outcome.next hread, State.told_withReply hr rfl _, rfl, fun ho => ?_⟩
  have herr : exec (.errCodeRead (.page (.module off)) w) s = .next (s.directRead (inPage (.module off) 0x24) w) := rfl
  rw [herr, inPage_module ho, hread]

section
variable {s : State} {c : CellId} {w : Who} (hon : s.mod.power = .on) (hgate : s.cellGate c w false = .open)
include hon hgate

/-- A read of a cell's page: its word goes back, and the read changes the cell (R65, R509, R511). -/
theorem State.cellRead_page {o : Nat} (halign : o % 4 = 0) : s.cellRead c (0x1F000 + o) w =
    ((s.noted w).onPolFree c.p fun _ p => p.setCell c.key ((s.cellOf c).readDone o), .value (s.cellWord c o)) := by
  unfold State.cellRead
  rw [if_neg fun h => h hon, if_neg (by simp; omega), if_pos (by omega), hgate, Nat.add_sub_cancel_left]
  exact congrArg (·, RegAns.value (s.cellWord c o)) (s.throughPol_eq c.p w _ _ hon)

/-- A read of a cell's program store changes nothing of the cell (R66). -/
theorem State.cellRead_prog {a : Nat} (halign : a % 4 = 0) (hlo : 0x14000 ≤ a) (hhi : a < 0x16000) :
    s.cellRead c a w = ((s.noted w).onPolFree c.p fun _ p => p.setCell c.key (s.cellOf c),
      .value (bits (SMap.get (fun _ => 0) (s.cellOf c).prog ((a - 0x14000) / 8)) (32 * (a / 4 % 2)) 32)) := by
  unfold State.cellRead
  rw [if_neg fun h => h hon, if_neg (by simp; omega), if_neg (by omega), if_pos hlo, hgate]
  exact congrArg (·, RegAns.value _) (s.throughPol_eq c.p w _ _ hon)

omit hon hgate in
theorem State.told_cellRead (f : PolCtx → Polder → Polder) (v : W32) :
    s.Told (State.replied ((s.noted w).onPolFree c.p f, .value v) w) (.data (bytesOf v 4)) ∧
      ∀ k, (State.replied ((s.noted w).onPolFree c.p f, .value v) w).pol k = ((s.noted w).onPolFree c.p f).pol k :=
  ⟨State.told_withReply ((State.onPolFree_replies _ _ _).trans (s.noted_replies w)) rfl _, fun _ => rfl⟩

theorem cellPage_isRead {o : Nat} (halign : o % 4 = 0) :
    s.Told (State.replied (s.cellRead c (0x1F000 + o) w) w) (.data (bytesOf (s.cellWord c o) 4)) ∧
      (State.replied (s.cellRead c (0x1F000 + o) w) w).pol c.p =
        ((s.pol c.p).setCell c.key ((s.cellOf c).readDone o)).sent := by
  rw [State.cellRead_page hon hgate halign]
  obtain ⟨htold, hpol⟩ := s.told_cellRead (w := w) (c := c) (fun _ p => p.setCell c.key ((s.cellOf c).readDone o))
    (s.cellWord c o)
  refine ⟨htold, (hpol c.p).trans ?_⟩
  rw [State.pol_onPolFree, State.noted_pol]

theorem programStore_isRead {a : Nat} (halign : a % 4 = 0) (hlo : 0x14000 ≤ a) (hhi : a < 0x16000) :
    s.Told (State.replied (s.cellRead c a w) w) (.data (bytesOf
      (bits (SMap.get (fun _ => 0) (s.cellOf c).prog ((a - 0x14000) / 8)) (32 * (a / 4 % 2)) 32) 4)) ∧
      ∀ k, ((State.replied (s.cellRead c a w) w).cellOf k).prog = (s.cellOf k).prog := by
  rw [State.cellRead_prog hon hgate halign hlo hhi]
  obtain ⟨htold, hpol⟩ := s.told_cellRead (w := w) (c := c) (fun _ p => p.setCell c.key (s.cellOf c))
    (bits (SMap.get (fun _ => 0) (s.cellOf c).prog ((a - 0x14000) / 8)) (32 * (a / 4 % 2)) 32)
  refine ⟨htold, fun k => ?_⟩
  have hcell (t : State) : t.cellOf k = (t.pol k.p).cell k.key := rfl
  rw [hcell, hpol, hcell]
  by_cases hp : k.p = c.p
  · rw [hp, State.pol_onPolFree, State.noted_pol]
    refine (congrArg Cell.prog ((s.pol c.p).cell_setCell c.key k.key (s.cellOf c))).trans ?_
    split
    case isTrue hk => rw [hk]; rfl
    case isFalse => rfl
  · rw [State.pol_onPolFree_ne _ _ hp, State.noted_pol]

end

/-! What a write of a polder's page does once its gate is open (R8, R10, R517). -/

section
variable {s : State} {q : Pid} {g : Page} {o : Nat} {r : RegInfo} (w : Who) (v : W32)

theorem State.putReg_fixed (ho : 0x40 ≤ o) (hr : g.blk.find o = some r) (hacc : r.acc = .ro ∨ r.acc = .rc) :
    s.putReg q g o w v = s := by
  have hstays : (decide (r.acc = .ro) || decide (r.acc = .rc) || (s.pol q).deadTier g o w) = true := by
    obtain h | h := hacc
    · rw [decide_eq_true h]; rfl
    · rw [decide_eq_true h, Bool.or_true, Bool.true_or]
  unfold State.putReg
  rw [if_neg (by omega), if_neg (by omega), hr]
  exact if_pos hstays

variable (ho : 0x40 ≤ o) (hr : g.blk.find o = some r) (hacc : r.acc = .rw) (hlive : (s.pol q).deadTier g o w = false)
include ho hr hacc hlive

/-- A write that the page takes: a selector's copy, an act of the register, or its store. -/
theorem State.putReg_taken : s.putReg q g o w v =
    if g.blk.isSel o then
      s.onPol q fun _ p => p.wr (g.base + o) (v &&& BitVec.ofNat 32 r.mask) (if w.req = .keeperFw then fwPlace else 0)
    else
      match s.writeAct q g o ((s.pol q).entryOf g.base r w) w v with
      | some t => t
      | none => s.onPol q fun _ p =>
        let p' := p.storeReg g r ((s.pol q).entryOf g.base r w) v
        if g.blk = .twn && 0x44 ≤ o && o ≤ 0x4C then p'.onTwin fun t => { t with ringIdx := 0 } else p' := by
  have htakes : (decide (r.acc = .ro) || decide (r.acc = .rc) || (s.pol q).deadTier g o w) = false := by
    rw [hlive, hacc]
    rfl
  unfold State.putReg
  rw [if_neg (by omega), if_neg (by omega), hr]
  exact if_neg (ne_true_of_eq_false htakes)

theorem State.putReg_selector (hs : g.blk.isSel o = true) : s.putReg q g o w v =
    s.onPol q fun _ p => p.wr (g.base + o) (v &&& BitVec.ofNat 32 r.mask) (if w.req = .keeperFw then fwPlace else 0) :=
  (State.putReg_taken w v ho hr hacc hlive).trans (if_pos hs)

theorem State.putReg_act (hs : g.blk.isSel o = false) {t : State}
    (ha : s.writeAct q g o ((s.pol q).entryOf g.base r w) w v = some t) : s.putReg q g o w v = t := by
  rw [State.putReg_taken w v ho hr hacc hlive, if_neg (ne_true_of_eq_false hs), ha]

theorem State.putReg_store (hs : g.blk.isSel o = false)
    (ha : s.writeAct q g o ((s.pol q).entryOf g.base r w) w v = none) : s.putReg q g o w v =
      s.onPol q fun _ p =>
        let p' := p.storeReg g r ((s.pol q).entryOf g.base r w) v
        if g.blk = .twn && 0x44 ≤ o && o ≤ 0x4C then p'.onTwin fun t => { t with ringIdx := 0 } else p' := by
  rw [State.putReg_taken w v ho hr hacc hlive, if_neg (ne_true_of_eq_false hs), ha]

end

/-! Writes of a polder's page (R8, R466). -/

section
variable {s : State} {q : Pid} {off : BitVec 26} {g : Page} {w : Who} (hon : s.mod.power = .on)
  (hg : polPage off.toNat = some g) (halign : off.toNat % 4 = 0)
include hon hg halign

theorem State.regWrite_polder (v : W32) : s.regWrite (.polder q off) w v =
    s.polWrite q g off.toNat w v (s.polGate q g.blk.cls off.toNat w true) := by
  unfold State.regWrite
  rw [if_neg fun h => h hon]
  dsimp only
  rw [hg]
  exact if_neg fun h => h halign

/-- A write that is no shadowed register's and meets an open gate reaches its page. -/
theorem State.regWrite_open (v : W32) (hopen : s.polGate q g.blk.cls off.toNat w true = .open)
    (hr : ∀ r, g.blk.find (off.toNat % 0x1000) = some r → r.acc ≠ .rws) :
    (s.regWrite (.polder q off) w v).1 = (s.noted w).putReg q g (off.toNat % 0x1000) w v := by
  rw [State.regWrite_polder hon hg halign, hopen]
  have hcycle (c : Bool) : (c && decide (Gate.open = .down)) = false := Bool.and_false c
  have hplain : (match regAt g.blk off.toNat with | some r => decide (r.acc = .rws) | none => false) = false := by
    unfold regAt
    split
    case h_1 r h => exact decide_eq_false (hr r h)
    case h_2 => rfl
  refine (if_neg (ne_true_of_eq_false hplain)).trans ((if_neg (ne_true_of_eq_false (hcycle _))).trans ?_)
  exact s.throughPol_eq q w _ _ hon

/-- A shadowed register is written by RWS_WRITE (R8). -/
theorem State.regWrite_rws (v : W32) {r : RegInfo} (hr : g.blk.find (off.toNat % 0x1000) = some r) (hacc : r.acc = .rws) :
    (s.regWrite (.polder q off) w v).1 = s.writeRws (.polder q off) w v := by
  rw [State.regWrite_polder hon hg halign]
  have hrws : (match regAt g.blk off.toNat with | some r => decide (r.acc = .rws) | none => false) = true := by
    unfold regAt
    rw [hr]
    exact decide_eq_true hacc
  have hwrite : s.writeRws (.polder q off) w v =
      s.putRws q g off.toNat w v (s.polGate q g.blk.cls off.toNat w true) := by
    unfold State.writeRws
    dsimp only
    rw [hg]
  exact (if_pos hrws).trans hwrite.symm

end

theorem Polder.storeReg_rd (p : Polder) (g : Page) (r : RegInfo) (e : Nat) (v : W32) :
    (p.storeReg g r e v).rd (g.base + r.off) (if r.sel = 0 then 0 else 1 + e) = v &&& BitVec.ofNat 32 r.mask := by
  have hset (q : Polder) (c : Prop) [Decidable c] (m : SMap W32) (a b : Nat) :
      (if c then { q with effLo := m } else q).rd a b = q.rd a b := by split <;> rfl
  unfold Polder.storeReg
  exact (hset _ _ _ _ _).trans (p.rd_wr_same _ _ _)

/-- Writes of a register of a polder's page, by its access (R8, R10, R467, R517). -/
theorem polderRegister_isWritten {s : State} {q : Pid} {w : Who} (v : W32) (hon : s.mod.power = .on) {off : BitVec 26}
    {g : Page} {r : RegInfo} (hg : polPage off.toNat = some g) (halign : off.toNat % 4 = 0)
    (ho : 0x40 ≤ off.toNat % 0x1000) (hr : g.blk.find (off.toNat % 0x1000) = some r) :
    let o := off.toNat % 0x1000
    let p := s.pol q
    let opens := fun (w : Who) => s.polGate q g.blk.cls off.toNat w true = .open
    let live := p.deadTier g o w = false
    let place := if r.sel = 0 then 0 else 1 + p.entryOf g.base r w
    (r.acc = .rws → exec (.registerWrite (.page (.polder q off)) w v) s = exec (.rwsWrite (.polder q off) w v) s) ∧
    (opens w → r.acc = .ro ∨ r.acc = .rc →
      exec (.registerWrite (.page (.polder q off)) w v) s = .next (s.noted w)) ∧
    (opens w → live → r.acc = .rw → g.blk.isSel o = true → s.GivesW w (.registerWrite (.page (.polder q off)) w v) q
      (p.wr (g.base + o) (v &&& BitVec.ofNat 32 r.mask) (if w.req = .keeperFw then fwPlace else 0))) ∧
    (opens w → live → r.acc = .rw → g.blk.isSel o = false →
      (s.noted w).writeAct q g o (p.entryOf g.base r w) w v = none → g.blk ≠ .twn →
      s.GivesW w (.registerWrite (.page (.polder q off)) w v) q (p.storeReg g r (p.entryOf g.base r w) v) ∧
      (p.storeReg g r (p.entryOf g.base r w) v).rd (g.base + r.off) place = v &&& BitVec.ofNat 32 r.mask ∧
      (w = ⟨.debug, 0⟩ → exec (.debugAccess (.polder q off) (some v)) s =
        exec (.registerWrite (.page (.polder q off)) w v) s)) := by
  intro o p opens live place
  have hpol : (s.noted w).pol q = s.pol q := s.noted_pol w q
  have hwrite (hopen : opens w) (hacc : r.acc ≠ .rws) : exec (.registerWrite (.page (.polder q off)) w v) s =
      .next ((s.noted w).putReg q g o w v) :=
    congrArg Host.Outcome.next (State.regWrite_open hon hg halign v hopen fun r' h =>
      Option.some.inj (hr.symm.trans h) ▸ hacc)
  have hgives (f : PolCtx → Polder → Polder) (p' : Polder) (h : f ((s.noted w).ctxOf q) (s.pol q) = p') :
      (s.noted w).onPol q f = (s.noted w).settle q (s.pol q).summary p' := by
    rw [State.onPol_eq, hpol, h]
  refine ⟨fun hacc => ?_, fun hopen hacc => ?_, fun hopen hlive hacc hs => ?_, fun hopen hlive hacc hs ha htwn => ⟨?_,
    p.storeReg_rd g r _ v, fun hw => ?_⟩⟩
  · exact congrArg Host.Outcome.next (State.regWrite_rws hon hg halign v hr hacc)
  · rw [hwrite hopen (by obtain h | h := hacc <;> rw [h] <;> decide), State.putReg_fixed w v ho hr hacc]
  · refine (hwrite hopen (by rw [hacc]; decide)).trans (congrArg Host.Outcome.next ?_)
    rw [State.putReg_selector w v ho hr hacc (by rw [hpol]; exact hlive) hs]
    exact hgives _ _ rfl
  · refine (hwrite hopen (by rw [hacc]; decide)).trans (congrArg Host.Outcome.next ?_)
    rw [State.putReg_store w v ho hr hacc (by rw [hpol]; exact hlive) hs (by rw [hpol]; exact ha), hpol]
    refine hgives _ _ (if_neg ?_)
    rw [decide_eq_false htwn]
    exact Bool.false_ne_true
  · rw [hw]
    rfl

/-! Writes of a cell's window (R65, R66, R527). -/

section
variable {s : State} {c : CellId} {w : Who}

theorem exec_bar2Write {a : BitVec 17} (v : W32) (hw : w.req = .keeperAgent ∨ w.req = .keeperFw ∨ w.req = .debug) :
    exec (.bar2Access c w a (some v)) s = .next (s.cellWrite c a.toNat w v).1 := by
  have hdirect : (decide (w.req = .fabric) || decide (w.req = .twin) || decide (w.req = .inlet)) = false := by
    obtain h | h | h := hw <;> rw [h] <;> rfl
  exact congrArg Host.Outcome.next (if_neg (ne_true_of_eq_false hdirect))

theorem exec_bar2Read {a : BitVec 17} (hw : w.req = .keeperAgent ∨ w.req = .keeperFw ∨ w.req = .debug) :
    exec (.bar2Access c w a none) s = .next (State.replied (s.cellRead c a.toNat w) w) := by
  have hdirect : (decide (w.req = .fabric) || decide (w.req = .twin) || decide (w.req = .inlet)) = false := by
    obtain h | h | h := hw <;> rw [h] <;> rfl
  exact congrArg Host.Outcome.next (if_neg (ne_true_of_eq_false hdirect))

variable (h : s.AdmitsCell c w)
include h

theorem cellEvents_areEnabled (v : W32) : s.GivesW w (.registerWrite (.cell c) w v) c.p
    ((s.pol c.p).setCell c.key ((s.cellOf c).wr 0x18 (v &&& Blk.events .cel))) :=
  congrArg Host.Outcome.next (State.headerWrite_cell (o := 0x18) v h (by decide) rfl (by decide))

theorem State.cellWrite_memory {a : Nat} (v : W32) (halign : a % 4 = 0) (hlt : a < 0x14000) : (s.cellWrite c a w v).1 =
    (s.noted w).settle c.p (s.pol c.p).summary ((s.pol c.p).setCell c.key ((s.cellOf c).svcWrite a (bytesOf v 4)).1) := by
  unfold State.cellWrite
  rw [if_neg fun hn => hn h.1, if_neg (by simp; omega), if_neg (by omega), if_neg (by omega)]
  exact s.throughCell_eq c w _ _ h

theorem State.cellWrite_prog {a : Nat} (v : W32) (halign : a % 4 = 0) (hlo : 0x14000 ≤ a) (hhi : a < 0x16000) :
    (s.cellWrite c a w v).1 = (s.noted w).settle c.p (s.pol c.p).summary
      ((s.pol c.p).setCell c.key ((s.cellOf c).writeProg ((a - 0x14000) / 8) (a / 4 % 2 == 1) v)) := by
  unfold State.cellWrite
  rw [if_neg fun hn => hn h.1, if_neg (by simp; omega), if_neg (by omega), if_pos hlo]
  exact s.throughCell_eq c w _ _ h

end

/-! GO bits, each the row of its own command (R8). -/

section
variable {s : State} {q : Pid} {w : Who} {v : W32} {n : Nat} {g : Page} {i : Instr}

theorem exec_registerWrite_page (h : s.Admits q n w) (hn : n < 2 ^ 26) (halign : n % 4 = 0) (hg : polPage n = some g)
    (hr : ∀ r, g.blk.find (n % 0x1000) = some r → r.acc ≠ .rws) :
    exec (.registerWrite (.page (.polder q (BitVec.ofNat 26 n))) w v) s =
      .next ((s.noted w).putReg q g (n % 0x1000) w v) := by
  obtain ⟨hon, g', hg', hopen⟩ := h
  obtain rfl : g' = g := Option.some.inj (hg'.symm.trans hg)
  have hoff : (BitVec.ofNat 26 n).toNat = n := Nat.mod_eq_of_lt hn
  refine congrArg Host.Outcome.next ?_
  have hw := State.regWrite_open (s := s) (q := q) (off := BitVec.ofNat 26 n) (g := g') (w := w) hon
    (by rw [hoff]; exact hg') (by rw [hoff]; exact halign) v
    (by rw [hoff]; exact hopen) (by rw [hoff]; exact hr)
  rw [hoff] at hw
  exact hw

/-- A register that acts when it is written is its row's command. -/
theorem exec_registerWrite_go (h : s.Admits q n w) (hn : n < 2 ^ 26) (halign : n % 4 = 0) (hg : polPage n = some g)
    (ho : 0x40 ≤ n % 0x1000) {r : RegInfo} (hr : g.blk.find (n % 0x1000) = some r) (hacc : r.acc = .rw)
    (hspw : g.blk ≠ .spw) (hs : g.blk.isSel (n % 0x1000) = false)
    (hact : ∀ e, ∃ t, (s.noted w).writeAct q g (n % 0x1000) e w v = some t ∧ exec i (s.noted w) = .next t) :
    exec (.registerWrite (.page (.polder q (BitVec.ofNat 26 n))) w v) s = exec i (s.noted w) := by
  have hlive : ((s.noted w).pol q).deadTier g (n % 0x1000) w = false := by
    unfold Polder.deadTier
    rw [beq_eq_false_iff_ne.mpr hspw]
    rfl
  obtain ⟨t, ht, hi⟩ := hact (((s.noted w).pol q).entryOf g.base r w)
  rw [exec_registerWrite_page h hn halign hg fun r' h' => Option.some.inj (hr.symm.trans h') ▸ hacc ▸ by decide,
    State.putReg_act w v ho hr hacc hlive hs ht, hi]

/-- A bit of a page's CTRL is its row's command. -/
theorem exec_registerWrite_ctrl (h : s.Admits q n w) (hn : n < 2 ^ 26) (hg : polPage n = some g) (ho : n % 0x1000 = 0x0C)
    (hact : exec i (s.noted w) = .next ((s.noted w).writeCtrl q g w v)) :
    exec (.registerWrite (.page (.polder q (BitVec.ofNat 26 n))) w v) s = exec i (s.noted w) := by
  rw [exec_registerWrite_page h hn (by omega) hg fun r hr => ?_, hact, ho]
  · exact congrArg Host.Outcome.next (if_pos rfl)
  · rw [ho, g.blk.find_header (by decide)] at hr
    cases hr

end

/-- Rows of a value's bits, one after another. -/
theorem State.bitRows_cons (s : State) (v : W32) (k : Nat) (f : State → Host.Outcome State Fault Refusal)
    (l : List (Nat × (State → Host.Outcome State Fault Refusal))) :
    s.bitRows v ((k, f) :: l) = (if v.getLsbD k then afterRow s (f s) else s).bitRows v l := rfl

theorem State.bitRows_nil (s : State) (v : W32) : s.bitRows v [] = s := rfl

theorem goBits_areRows (s : State) (q : Pid) (w : Who) (v : W32) :
    ∀ a : Nat × W32 × Instr, a ∈ [(GRD + 0x4C, 1, .recfgGo q w), (GRD + 0x4C, 2, .recfgRelease q w),
        (GRD + 0x58, v, .slotTableWrite q w v), (GRD + 0x84, 1, .issueGo q w), (GRD + 0x128, 1, .pipeGo q w),
        (FLX2 + 0x4C, 1, .flxMapStage q w), (FLX2 + 0x4C, 2, .flxMapActivate q w), (FLX2 + 0x4C, 4, .flxMapRetire q w),
        (FLX2 + 0x4C, 8, .flxMapDrop q w), (PMP + 0x48, 1, .pumpArm q 0 w), (PMP + 0x48, 2, .pumpClose q 0 w),
        (WDN + 0x0C, 1, .wardenResume q w), (GRD + 0x0C, v, .debugHoldWrite q w (v.getLsbD 0))] →
      s.Admits q a.1 w → exec (.registerWrite (.page (.polder q (BitVec.ofNat 26 a.1))) w a.2.1) s =
        exec a.2.2 (s.noted w) := by
  simp only [List.forall_mem_cons]
  refine ⟨fun h => ?_, fun h => ?_, fun h => ?_, fun h => ?_, fun h => ?_, fun h => ?_, fun h => ?_, fun h => ?_,
    fun h => ?_, fun h => ?_, fun h => ?_, fun h => ?_, fun h => ?_, fun _ h => absurd h List.not_mem_nil⟩
  case refine_3 =>
    exact exec_registerWrite_go h (by decide) rfl rfl (by decide) rfl rfl (by decide) (by decide) fun _ => ⟨_, rfl, rfl⟩
  case refine_12 =>
    refine exec_registerWrite_ctrl h (by decide) rfl rfl ?_
    simp only [State.writeCtrl, State.bitRows_cons, State.bitRows_nil]
    rfl
  case refine_13 => exact exec_registerWrite_ctrl h (by decide) rfl rfl rfl
  all_goals
    refine exec_registerWrite_go h (by decide) rfl rfl (by decide) rfl rfl (by decide) (by decide) fun _ => ⟨_, rfl, ?_⟩
    simp only [State.bitRows_cons, State.bitRows_nil]
    rfl

/-! Pairs of registers (R516). -/

/-- The low halves of the pairs that are not staged, by block (R516). -/
def pairLows : List (Blk × Nat) :=
  [(.wdn, 0x78), (.gau, 0x8C), (.grd, 0x120), (.int, 0x40), (.out, 0x40), (.pmp, 0x40), (.pmp, 0x80), (.pmp, 0xC0),
    (.pmp, 0x100), (.spw, 0x8C), (.spwKv, 0x6C), (.htb, 0x44), (.flx1, 0x60), (.flx2, 0x44), (.twn, 0x44), (.twn, 0x80),
    (.twn, 0x88), (.kq, 0x4C), (.kq, 0x54)]

theorem pairLow_iff (b : Blk) (o : Nat) : pairLow b o = true ↔ (b, o) ∈ pairLows := by
  cases b <;> simp [pairLow, pairLows, or_assoc]

/-- Both halves of a pair are plain registers of one selector, and no half belongs to two pairs. -/
structure PlainPair (b : Blk) (o : Nat) (r r' : RegInfo) : Prop where
  acc : r.acc = .rw ∧ r'.acc = .rw
  off : r.off = o ∧ r'.off = o + 4
  plain : b.isSel o = false ∧ b.isSel (o + 4) = false
  sel : r'.sel = r.sel ∧ r'.smask = r.smask
  selOff : r.sel ≠ o ∧ r.sel < 0x1000
  low : 0x40 ≤ o ∧ o < 0xFFC ∧ pairLow b (o - 4) = false
  tier : b ≠ .spw ∨ 0x84 < o

theorem pairLows_plain : ∀ a ∈ pairLows, ∀ r ∈ a.1.find a.2, ∀ r' ∈ a.1.find (a.2 + 4),
    (r.acc = .rw ∧ r'.acc = .rw) ∧ (r.off = a.2 ∧ r'.off = a.2 + 4) ∧
      (a.1.isSel a.2 = false ∧ a.1.isSel (a.2 + 4) = false) ∧ (r'.sel = r.sel ∧ r'.smask = r.smask) ∧
      (r.sel ≠ a.2 ∧ r.sel < 0x1000) ∧ (0x40 ≤ a.2 ∧ a.2 < 0xFFC ∧ pairLow a.1 (a.2 - 4) = false) ∧
      (a.1 ≠ .spw ∨ 0x84 < a.2) := by decide

theorem plainPair_of_low {b : Blk} {o : Nat} {r r' : RegInfo} (h : pairLow b o = true) (hr : b.find o = some r)
    (hr' : b.find (o + 4) = some r') : PlainPair b o r r' := by
  obtain ⟨h1, h2, h3, h4, h5, h6, h7⟩ := pairLows_plain (b, o) ((pairLow_iff b o).mp h) r hr r' hr'
  exact ⟨h1, h2, h3, h4, h5, h6, h7⟩

theorem State.writeAct_pair (s : State) (q : Pid) {g : Page} {o : Nat} (e : Nat) (w : Who) (v : W32)
    (h : pairLow g.blk o = true) : s.writeAct q g o e w v = none ∧ s.writeAct q g (o + 4) e w v = none := by
  obtain ⟨b, inst, dir, base⟩ := g
  have hmem := (pairLow_iff b o).mp h
  simp only [pairLows, List.mem_cons, Prod.mk.injEq, List.not_mem_nil, or_false] at hmem
  rcases hmem with ⟨rfl, rfl⟩ | ⟨rfl, rfl⟩ | ⟨rfl, rfl⟩ | ⟨rfl, rfl⟩ | ⟨rfl, rfl⟩ | ⟨rfl, rfl⟩ | ⟨rfl, rfl⟩ | ⟨rfl, rfl⟩ |
    ⟨rfl, rfl⟩ | ⟨rfl, rfl⟩ | ⟨rfl, rfl⟩ | ⟨rfl, rfl⟩ | ⟨rfl, rfl⟩ | ⟨rfl, rfl⟩ | ⟨rfl, rfl⟩ | ⟨rfl, rfl⟩ | ⟨rfl, rfl⟩ |
    ⟨rfl, rfl⟩ | ⟨rfl, rfl⟩ <;> exact ⟨rfl, rfl⟩

/-- What a plain register's write leaves of its polder; a rewritten ring of the Twin starts at its base (R364). -/
def Polder.stored (p : Polder) (g : Page) (o : Nat) (r : RegInfo) (e : Nat) (v : W32) : Polder :=
  let p' := p.storeReg g r e v
  if g.blk = .twn && 0x44 ≤ o && o ≤ 0x4C then p'.onTwin fun t => { t with ringIdx := 0 } else p'

section
variable (p : Polder) (g : Page) (o : Nat) (r : RegInfo) (e : Nat) (v : W32)

theorem Polder.stored_registers : (p.stored g o r e v).regs = (p.storeReg g r e v).regs ∧
    (p.stored g o r e v).effLo = (p.storeReg g r e v).effLo ∧ (p.stored g o r e v).wdn = (p.storeReg g r e v).wdn := by
  unfold Polder.stored
  dsimp only
  split <;> exact ⟨rfl, rfl, rfl⟩

theorem Polder.storeReg_regs : (p.storeReg g r e v).regs =
      (p.wr (g.base + r.off) (v &&& BitVec.ofNat 32 r.mask) (if r.sel = 0 then 0 else 1 + e)).regs ∧
    (p.storeReg g r e v).wdn = p.wdn := by
  unfold Polder.storeReg
  dsimp only
  split <;> exact ⟨rfl, rfl⟩

theorem Polder.stored_wdn : (p.stored g o r e v).wdn = p.wdn :=
  (p.stored_registers g o r e v).2.2.trans (p.storeReg_regs g r e v).2

theorem Polder.stored_rd (a b : Nat) : (p.stored g o r e v).rd a b =
    if a + 2 ^ 26 * b = g.base + r.off + 2 ^ 26 * (if r.sel = 0 then 0 else 1 + e) then v &&& BitVec.ofNat 32 r.mask
    else p.rd a b := by
  have hregs := (p.stored_registers g o r e v).1.trans (p.storeReg_regs g r e v).1
  unfold Polder.rd
  rw [hregs]
  exact p.rd_wr _ _ _ _ _

theorem Polder.stored_effLo_low (h : pairLow g.blk (r.off - 4) = false) : (p.stored g o r e v).effLo = p.effLo := by
  have hno : (decide (4 ≤ r.off) && pairLow g.blk (r.off - 4)) = false := by
    rw [h]
    exact Bool.and_false _
  refine (p.stored_registers g o r e v).2.1.trans ?_
  unfold Polder.storeReg
  dsimp only
  rw [if_neg (ne_true_of_eq_false hno)]
  rfl

theorem Polder.stored_effLo_high (h4 : 4 ≤ r.off) (h : pairLow g.blk (r.off - 4) = true) :
    SMap.get polDefault (p.stored g o r e v).effLo (g.base + r.off - 4 + 2 ^ 26 * (if r.sel = 0 then 0 else 1 + e)) =
      p.rd (g.base + r.off - 4) (if r.sel = 0 then 0 else 1 + e) := by
  have hhigh : (decide (4 ≤ r.off) && pairLow g.blk (r.off - 4)) = true := by
    rw [h, decide_eq_true h4]
    rfl
  rw [(p.stored_registers g o r e v).2.1]
  unfold Polder.storeReg
  dsimp only
  rw [if_pos hhigh]
  refine (SMap.get_set_same _ _ _ _).trans ?_
  rw [Polder.rd_wr, if_neg (by omega)]

end

/-- The gate of a polder's page depends on the fuses sensed, the keeper die, the rails and the Warden (R393, R466). -/
theorem State.polGate_of {s t : State} {q : Pid} (hs : t.mod.sensed = s.mod.sensed) (hk : t.mod.keeper = s.mod.keeper)
    (hr : t.mod.rails = s.mod.rails) (hw : (t.pol q).wdn = (s.pol q).wdn) (cls : PageClass) (off : Nat) (w : Who) (b : Bool) :
    t.polGate q cls off w b = s.polGate q cls off w b := by
  unfold State.polGate Module.denied Module.serverShut Module.powered Polder.quarantined Polder.pageDown Polder.engDown
    Polder.dieDown
  dsimp only
  rw [hs, hk, hr, hw]

section
variable {s : State} {q : Pid} {off : BitVec 26} {g : Page} {r r' : RegInfo} {w : Who} {o : Nat}

/-- The state a write of a plain register leaves. -/
def State.putStored (s : State) (q : Pid) (g : Page) (o : Nat) (r : RegInfo) (w : Who) (v : W32) : State :=
  (s.noted w).onPol q fun _ p => p.stored g o r ((s.pol q).entryOf g.base r w) v

theorem State.putStored_pol (v : W32) :
    (s.putStored q g o r w v).pol q = ((s.pol q).stored g o r ((s.pol q).entryOf g.base r w) v).sent := by
  unfold State.putStored
  rw [State.pol_onPol, State.noted_pol]

theorem State.putStored_mod (v : W32) : (s.putStored q g o r w v).mod.power = s.mod.power ∧
    (s.putStored q g o r w v).mod.sensed = s.mod.sensed ∧ (s.putStored q g o r w v).mod.keeper = s.mod.keeper ∧
    (s.putStored q g o r w v).mod.rails = s.mod.rails := by
  obtain ⟨u, hu⟩ := s.noted_mod w
  have h := hu.trans ((s.noted w).onPol_mod q fun _ p => p.stored g o r ((s.pol q).entryOf g.base r w) v)
  exact ⟨h.supply.1, h.supply.2, h.keeper.keeper, (congrArg Module.rails h.eq :)⟩

theorem State.putStored_gate (v : W32) (cls : PageClass) (n : Nat) (w' : Who) (b : Bool) :
    (s.putStored q g o r w v).polGate q cls n w' b = s.polGate q cls n w' b := by
  obtain ⟨-, hs, hk, hr⟩ := s.putStored_mod (q := q) (g := g) (o := o) (r := r) (w := w) v
  refine State.polGate_of hs hk hr ?_ cls n w' b
  rw [State.putStored_pol]
  exact (s.pol q).stored_wdn g o r _ v

/-- A write of a plain register that acts on nothing stores it. -/
theorem State.regWrite_stored (hon : s.mod.power = .on) (hg : polPage off.toNat = some g) (halign : off.toNat % 4 = 0)
    (hopen : s.polGate q g.blk.cls off.toNat w true = .open) (hmod : off.toNat % 0x1000 = o) (ho : 0x40 ≤ o)
    (hr : g.blk.find o = some r) (hacc : r.acc = .rw) (hlive : (s.pol q).deadTier g o w = false)
    (hs : g.blk.isSel o = false) (v : W32)
    (ha : ∀ e, (s.noted w).writeAct q g o e w v = none) :
    (s.regWrite (.polder q off) w v).1 = s.putStored q g o r w v := by
  subst hmod
  have hpol : (s.noted w).pol q = s.pol q := s.noted_pol w q
  rw [State.regWrite_open hon hg halign v hopen fun r' h => Option.some.inj (hr.symm.trans h) ▸ hacc ▸ by decide,
    State.putReg_store w v ho hr hacc (by rw [hpol]; exact hlive) hs (ha _), hpol]
  rfl

end

section
variable {b : Blk} {o : Nat} {r r' : RegInfo}

theorem PlainPair.live {g : Page} (h : PlainPair g.blk o r r') (p : Polder) (w : Who) :
    p.deadTier g o w = false ∧ p.deadTier g (o + 4) w = false := by
  unfold Polder.deadTier
  obtain hb | ho := h.tier
  · rw [beq_eq_false_iff_ne.mpr hb]
    exact ⟨rfl, rfl⟩
  · rw [decide_eq_false (show ¬o ≤ 0x84 by omega), decide_eq_false (show ¬o + 4 ≤ 0x84 by omega)]
    simp only [Bool.and_false, Bool.false_and, and_self]

/-- Where a register's write lands, by its selector. -/
def RegInfo.place (r : RegInfo) (e : Nat) : Nat := if r.sel = 0 then 0 else 1 + e

/-- The low half's write leaves the entry its pair's selector chooses. -/
theorem PlainPair.entryOf {g : Page} (h : PlainPair g.blk o r r') {n : Nat} (_hbase : g.base = n * 0x1000)
    (_hlt : g.base < 2 ^ 26) (p : Polder) (e : Nat) (v : W32) (w : Who) :
    ((p.stored g o r e v).sent).entryOf g.base r' w = p.entryOf g.base r w := by
  obtain ⟨hoff, -⟩ := h.off
  obtain ⟨hsel, hmask⟩ := h.sel
  obtain ⟨hne, hsmall⟩ := h.selOff
  obtain ⟨-, hsmall', -⟩ := h.low
  have hkeep (i : Nat) : ((p.stored g o r e v).sent).rd (g.base + r.sel) i = p.rd (g.base + r.sel) i := by
    rw [Polder.sent_rd, Polder.stored_rd, if_neg]
    generalize (if r.sel = 0 then 0 else 1 + e) = j
    omega
  unfold Polder.entryOf Polder.sel Polder.rdN
  rw [hsel, hmask, hkeep]

/-- The low half of a pair is held (R516). -/
theorem PlainPair.low_held {g : Page} (h : PlainPair g.blk o r r') (p : Polder) (e : Nat) (v : W32) :
    (p.stored g o r e v).rd (g.base + o) (r.place e) = v &&& BitVec.ofNat 32 r.mask ∧
      (p.stored g o r e v).pair (g.base + o) (r.place e) = p.pair (g.base + o) (r.place e) := by
  obtain ⟨hoff, -⟩ := h.off
  obtain ⟨-, -, hlow⟩ := h.low
  have heff : (p.stored g o r e v).effLo = p.effLo := p.stored_effLo_low g o r e v (by rw [hoff]; exact hlow)
  refine ⟨?_, ?_⟩
  · rw [Polder.stored_rd, hoff]
    exact if_pos rfl
  · unfold Polder.pair
    rw [heff, Polder.stored_rd, hoff, if_neg (by unfold RegInfo.place; omega)]

/-- The high half brings the held low half into effect with it (R516). -/
theorem PlainPair.high_lands {g : Page} (h : PlainPair g.blk o r r') (hp : pairLow g.blk o = true) (p : Polder) (e : Nat)
    (hi : W32) : (p.stored g (o + 4) r' e hi).pair (g.base + o) (r'.place e) =
      (hi &&& BitVec.ofNat 32 r'.mask) ++ p.rd (g.base + o) (r'.place e) := by
  obtain ⟨-, hoff⟩ := h.off
  have heff := p.stored_effLo_high g (o + 4) r' e hi (by omega) (by rw [hoff]; exact hp)
  rw [hoff, show g.base + (o + 4) - 4 = g.base + o by omega] at heff
  unfold Polder.pair
  rw [Polder.stored_rd, hoff, if_pos (by unfold RegInfo.place; omega)]
  exact congrArg ((hi &&& BitVec.ofNat 32 r'.mask) ++ ·) heff

end

/-- Writes of a pair's halves (R516). -/
theorem pairs_takeEffect {s : State} {q : Pid} {w : Who} (v : W32) (hon : s.mod.power = .on) {off : BitVec 26} {g : Page}
    {r r' : RegInfo} (hg : polPage off.toNat = some g) (halign : off.toNat % 4 = 0)
    (hp : pairLow g.blk (off.toNat % 0x1000) = true) (hr : g.blk.find (off.toNat % 0x1000) = some r)
    (hr' : g.blk.find (off.toNat % 0x1000 + 4) = some r')
    (hopen : s.polGate q g.blk.cls off.toNat w true = .open) :
    let lo := g.base + off.toNat % 0x1000
    let place := if r.sel = 0 then 0 else 1 + (s.pol q).entryOf g.base r w
    (∃ t, exec (.registerWrite (.page (.polder q off)) w v) s = .next t ∧
      (t.pol q).rd lo place = v &&& BitVec.ofNat 32 r.mask ∧ (t.pol q).pair lo place = (s.pol q).pair lo place) ∧
    ∀ hi : W32, ∃ t, exec (.loHiPairWrite (.polder q off) w v hi) s = .next t ∧
      (t.pol q).pair lo place = (hi &&& BitVec.ofNat 32 r'.mask) ++ (v &&& BitVec.ofNat 32 r.mask) := by
  have hpair := plainPair_of_low hp hr hr'
  have hact (s : State) (e : Nat) (v : W32) := s.writeAct_pair q (g := g) e w v hp
  have hbase := polPage_base hg
  have hlt := off.isLt
  generalize ho : off.toNat % 0x1000 = o at hp hr hr' hpair hact ⊢
  obtain ⟨h40, hsmall, -⟩ := hpair.low
  obtain ⟨hacc, hacc'⟩ := hpair.acc
  obtain ⟨hs, hs'⟩ := hpair.plain
  intro lo place
  have hfirst : (s.regWrite (.polder q off) w v).1 = s.putStored q g o r w v :=
    State.regWrite_stored hon hg halign hopen ho h40 hr hacc (hpair.live _ w).1 hs v fun e => (hact _ e v).1
  have hpol := s.putStored_pol (q := q) (g := g) (o := o) (r := r) (w := w) v
  obtain ⟨hlow, hkeep⟩ := hpair.low_held (s.pol q) ((s.pol q).entryOf g.base r w) v
  refine ⟨⟨_, congrArg Host.Outcome.next hfirst, ?_, ?_⟩, fun hi => ?_⟩
  · rw [hpol]
    exact hlow
  · rw [hpol]
    exact hkeep
  · have hnext : (off + 4).toNat = off.toNat + 4 := by
      rw [BitVec.toNat_add, show (4 : BitVec 26).toNat = 4 from rfl]
      exact Nat.mod_eq_of_lt (by omega)
    have hpower := (s.putStored_mod (q := q) (g := g) (o := o) (r := r) (w := w) v).1
    have hsecond : ((s.putStored q g o r w v).regWrite (.polder q (off + 4)) w hi).1 =
        (s.putStored q g o r w v).putStored q g (o + 4) r' w hi := by
      refine State.regWrite_stored (hpower.trans hon) ?_ (by omega) ?_ (by omega) (by omega) hr' hacc' (hpair.live _ w).2 hs' hi
        fun e => (hact _ e hi).2
      · rw [hnext]
        exact (polPage_congr (by omega)).trans hg
      · rw [State.putStored_gate, hnext]
        exact (s.polGate_congr q _ w true (by omega)).trans hopen
    have hexec : exec (.loHiPairWrite (.polder q off) w v hi) s =
        .next ((s.putStored q g o r w v).putStored q g (o + 4) r' w hi) := by
      rw [← hsecond, ← hfirst]
      rfl
    have hentry := hpair.entryOf hbase (by omega) (s.pol q) ((s.pol q).entryOf g.base r w) v w
    have hplace : r'.place ((s.pol q).entryOf g.base r w) = place := by
      unfold RegInfo.place
      rw [hpair.sel.1]
    have hland := hpair.high_lands hp ((s.pol q).stored g o r ((s.pol q).entryOf g.base r w) v).sent
      ((s.pol q).entryOf g.base r w) hi
    refine ⟨_, hexec, ?_⟩
    rw [State.putStored_pol, hpol, hentry]
    rw [hplace, Polder.sent_rd, show (Polder.rd _ _ place) = _ from hlow] at hland
    exact hland

/-- Settles O60: a read is its gate's answer; a write that meets an open gate is a selector's copy, an act, or a
store, and a pair's halves are two stores. -/
theorem registersAreReadAndWritten : Obligations.RegistersAreReadAndWritten := by
  refine ⟨fun s w hon => ⟨fun q off g hg halign => polderPage_isRead w hon hg halign,
    fun off g hg halign hgate => modulePage_isRead hon hg halign hgate, fun c hgate => ⟨?_, ?_, ?_⟩⟩,
    fun s q w v hon => ⟨fun off g r hg halign ho hr => polderRegister_isWritten v hon hg halign ho hr,
      fun c hc => ⟨cellEvents_areEnabled hc v, fun a halign hw => ⟨fun hlt => ?_, fun hlo hhi => ?_⟩⟩,
      fun off g r r' hg halign hp hr hr' hopen => pairs_takeEffect v hon hg halign hp hr hr' hopen, goBits_areRows s q w v⟩⟩
  · obtain ⟨htold, hpol⟩ := cellPage_isRead hon hgate (o := 0x20) rfl
    exact ⟨_, rfl, htold, hpol⟩
  · obtain ⟨htold, hpol⟩ := cellPage_isRead hon hgate (o := 0x24) rfl
    exact ⟨_, rfl, htold, hpol⟩
  · intro a halign hlo hhi hw
    obtain ⟨htold, hprog⟩ := programStore_isRead hon hgate halign hlo hhi
    exact ⟨_, exec_bar2Read hw, htold, hprog⟩
  · exact (exec_bar2Write v hw).trans (congrArg Host.Outcome.next (State.cellWrite_memory hc v halign hlt))
  · exact (exec_bar2Write v hw).trans (congrArg Host.Outcome.next (State.cellWrite_prog hc v halign hlo hhi))
end Sys2Proof.Machine
